-- ==== Sys2Proof/Word.lean ====
section
/-! DEFINITION. The words the device counts in: 32-bit register words and bytes (R10). -/
namespace Sys2Proof

/-- A 32-bit register word (R12). -/
abbrev Word := BitVec 32

/-- A byte of memory or of a brick (R10: multi-byte values are little-endian). -/
abbrev Byte := BitVec 8

end Sys2Proof
end

