-- ==== Sys2Proof/Types.lean ====
section
/-! DEFINITION. The types every part of the model shares: sparse stores, register fields with their access codes (R13), and the answers and sections that registers name. -/
namespace Sys2Proof.Machine

/-- A sparse map from numbers: keys strictly rising, no entry equal to what an unlisted key reads as. Its operations stand in Machine/Store.lean. -/
abbrev Store (β : Type) := List (Nat × β)

/-- The access codes of R13. -/
inductive Acc where
  | rw | ro | wo | w1c | w1s | rc
  deriving DecidableEq, Repr

/-- The sections of the configuration image (R414). -/
inductive Sec where
  | system | clocks | rings | axes | points | safety | loopPrograms | appFirmware | capture
  deriving DecidableEq, Repr

/-- One register field: the register's address, the field's lowest bit and width, its access code (R13), its reset value (R15), whether PD0 retains it, and the image section that loads it. -/
structure Fld where
  addr : Nat
  lo : Nat
  w : Nat
  acc : Acc
  rst : Nat
  kept : Bool
  img : Option Sec
  deriving DecidableEq, Repr

/-- One row of a block's register list: the first register's address, up to two index ranges (count and stride), and the fields at index 0. -/
structure RegRow where
  addr : Nat
  n1 : Nat
  s1 : Nat
  n2 : Nat
  s2 : Nat
  flds : List Fld
  deriving DecidableEq, Repr

/-- What the interconnect answers the requester of an access: nothing was asked, the data of a read, a write taken, or a bus error (R12, R20). -/
inductive Bus where
  | none
  | data (v : Nat)
  | done
  | error
  deriving DecidableEq, Repr

/-- The device states of R5; `reset` is the interval between reset entry and reset release (R399, R403). -/
inductive Dev where
  | off | watch | boot | standby | run | safeHold | reset
  deriving DecidableEq, Repr

/-- A lasting fault, or the host command, that made the device enter SAFE_HOLD (R7). -/
inductive HoldBy where
  | host | hsx | island | conflict | selfTest
  deriving DecidableEq, Repr

end Sys2Proof.Machine
end

