-- ==== Sys2Proof/Types/Core.lean ====
section
/-! DEFINITION. The state of the application cores, the hardware scheduler and the DMA engine (R364 to R387). -/
namespace Sys2Proof.Machine

/-- An application core (R364): X0 to X31 and F0 to F31, the program counter, machine mode or user mode, the writable CSRs by number, the cycle and retired-instruction counts, the word reserved by LR.W, whether it waits in WFI, the word of its thread's record that holds PRIO and AFFIN as loaded (R373), and memory as its instruction cache may still hold it: as at its last FENCE.I, with what it has fetched since; none while the cache is empty (R366). -/
structure Core where
  x : List Nat
  f : List Nat
  pc : Nat
  machine : Bool
  csr : Store Nat
  cyc : Nat
  ret : Nat
  res : Option Nat
  wfi : Bool
  pw : Nat
  ic : Option (Store (BitVec 8))
  deriving DecidableEq, Repr

/-- The states of a thread (R374). -/
inductive ThrSt where
  | dormant | blocked | ready | running
  deriving DecidableEq, Repr

/-- A thread as the scheduler holds it: its state, PRIO and AFFIN as MAKE_READY read them, and the order in which it became READY (R373 to R375). -/
structure Thr where
  st : ThrSt
  prio : Nat
  affin : Nat
  ord : Nat
  deriving DecidableEq, Repr

/-- The scheduler: threads, the next order, the thread running on each core, the prefetched context in each core's slot (thread and the first 77 words of its record), what a core's running thread becomes at its switch where an operation asked for it, cores whose thread yields, cores whose next boundary is a switch point in every mode, and the timer compares in effect (R372, R374, R375). -/
structure Sch where
  thr : Store Thr
  ord : Nat
  cur : List Nat
  slot : Store (Option (Nat × List Nat))
  out : Store (Option ThrSt)
  yields : List Nat
  atOnce : List Nat
  tcmp : List Nat
  deriving DecidableEq, Repr

/-- A DMA descriptor (R379). -/
structure DDesc where
  src : Nat
  dst : Nat
  count : Nat
  rows : Nat
  ss : Int
  ds : Int
  next : Nat
  ctrl : Nat
  deriving DecidableEq, Repr

/-- A DMA channel beyond its registers: the descriptor under way, its list elements, the bytes of it written, the descriptor that the chain comes to next, and the ERR_CODE that RECOVER will give a HELD channel (R379, R381, R384). -/
structure DCh where
  desc : Option DDesc
  elems : List (Nat × Nat)
  moved : Nat
  next : Nat
  held : Nat
  deriving DecidableEq, Repr

/-- What a DMA bus error struck: a read ahead, a write, or a read of a descriptor or list element (R384). -/
inductive DErr where
  | read | write | desc
  deriving DecidableEq, Repr

end Sys2Proof.Machine
end

