-- ==== Sys2Proof/Types/Ring.lean ====
section
/-! DEFINITION. The state of the Bondline rings (R171 to R214): bricks as they arrive, bond tables, nodes, ports, and the start-up of the device. -/
namespace Sys2Proof.Machine

/-- How a brick copy ends on the lane: /T/, /V/, or neither in its place (R181, R184). -/
inductive Term where
  | t | v | none
  deriving DecidableEq, Repr

/-- One copy of a brick as it reaches a port: the ring, its bytes from header byte 0 to the last CRC byte, its end, the device time in ns at which its /S/ arrived, the port (true for west), and how many of its code groups were invalid or broke the running disparity (R171, R217). -/
structure Copy where
  ring : Fin 4
  bytes : List (BitVec 8)
  term : Term
  at_ : Nat
  onWest : Bool
  codes : Nat
  deriving DecidableEq, Repr

/-- A port with a link: a ring's east or west port, or port A or B of the cascade (R171, R348). -/
inductive Lnk where
  | ring (k : Fin 4) (west : Bool)
  | cas (b : Bool)
  deriving DecidableEq, Repr

/-- The loss of a link: the port, and the invalid code groups and disparity errors outside bricks that have come before it (R171, R217). -/
structure LinkLoss where
  link : Lnk
  codes : Nat
  deriving DecidableEq, Repr

/-- The header fields of R182. -/
structure Hdr where
  type : Nat
  sched : Nat
  west : Bool
  alert : Bool
  src : Nat
  ringId : Nat
  course : Nat
  epoch : Nat
  len : Nat
  brick : Nat
  deriving DecidableEq, Repr

/-- A bond table entry, its four words (R192). -/
structure BEnt where
  w0 : Nat
  w1 : Nat
  w2 : Nat
  w3 : Nat
  deriving DecidableEq, Repr

/-- A schedule of one ring: its descriptor and its entries (R191). -/
structure BSched where
  period : Nat
  ts : Nat
  ta : Nat
  fbStart : Nat
  fbEnd : Nat
  cmdStart : Nat
  gap : Nat
  ents : List BEnt
  deriving DecidableEq, Repr

/-- A node: its descriptor (address, UID and KIND, R210), the UID that claimed it, the delays it reported (0xFFFFFFFF for a sense without a copy), its offsets and counts (R206, R207), and its claim: the courses of the CLAIM and of the TABLE_ACK, the entries lost before its first brick, and whether that brick has come (R207, R211). -/
structure Node where
  addr : Nat
  uid : Nat
  kind : Nat
  claimed : Bool
  claimUid : Nat
  present : Bool
  seenNow : Bool
  drift : Bool
  off : Bool
  ofsE : Int
  ofsW : Int
  lost : Nat
  edge : Nat
  drifts : Nat
  dlyE : Nat
  dlyW : Nat
  resid : Nat
  linkE : Bool
  linkW : Bool
  claimAt : Nat
  ackAt : Option Nat
  due : Nat
  seen : Bool
  edgeRun : Nat
  lossRun : Nat
  rank : Nat
  fbWest : Bool
  deriving DecidableEq, Repr

/-- One port: its link's synchronisation, whether it has a measured delay and the delay in 1/16 ns, whether a measurement has been made since it last synchronised, whether it forwards, the REQUEST under way (sequence number and t1), and a RESPONSE owed (sequence number and t2) (R197, R213). -/
structure Port where
  sync : Bool
  meas : Bool
  dly : Nat
  fresh : Bool
  fwd : Bool
  req : Option (Nat × Nat)
  resp : Option (Nat × Nat)
  refs : Bool
  deriving DecidableEq, Repr

/-- A MGMT message that waits for a head MGMT entry (R190). -/
structure Mg where
  op : Nat
  dest : Nat
  data : List Nat
  deriving DecidableEq, Repr

/-- A JOIN as last heard: UID, KIND, rank, delays and residence time (R210). -/
structure JoinMsg where
  uid : Nat
  kind : Nat
  rank : Nat
  dlyE : Nat
  dlyW : Nat
  resid : Nat
  deriving DecidableEq, Repr

/-- A ring: its nodes, schedules and record map, its ports, the entries accepted and those discarded or lost in this course (R175, R214), the corrupted copies already counted (R177), the messages, claims and sequence number of the head, the silence after insertion (R180), whether the member heads, follows or does neither of them, the run of courses with references on every synchronised port (R180), the own loop delays in 1/16 ns (R198), the reference's returns (R202), the run of lost head bricks, the output payloads of the snapshots (R231), and that the bypass pin falls at the next sync gap (R180, R449). -/
structure Ring where
  nodes : List Node
  scheds : List (Option BSched)
  map : List Nat
  east : Port
  west : Port
  acc : List Nat
  bad : List Nat
  crcSeen : List Nat
  mq : List Mg
  claims : List (Nat × Nat × Nat)
  heard : List JoinMsg
  seq : Nat
  ltSeq : Nat
  quiet : Bool
  refRun : Nat
  loopE : Nat
  loopW : Nat
  retE : Bool
  retW : Bool
  headRun : Nat
  snap : Store (List Nat)
  leave : Bool
  deriving DecidableEq, Repr

/-- The start-up of the device and its following of a head (R196, R201, R202): what this listening period has heard, the courses for which it is held out, whether its first course is still clean, the head's time minus its own at the last REFERENCE, whether its time is stepped at the next course start, the courses left until it takes over from a backup timekeeper (R203), the target of an announced switch that its image lacks, and that its course counter goes on by holdover while it listens (R449). -/
structure Bond where
  heardRef : Bool
  heardAny : Bool
  held : Nat
  clean : Bool
  startDue : Bool
  hofs : Int
  stepDue : Bool
  takeOver : Option Nat
  missing : Option Nat
  coast : Bool
  deriving DecidableEq, Repr

end Sys2Proof.Machine
end

