-- ==== Sys2Proof/Types/Hst.lean ====
section
/-! DEFINITION. The state of the host port (R328 to R337), of device time (R338 to R346) and of the cascade (R347 to R359). -/
namespace Sys2Proof.Machine

/-- A UDP payload as it reaches HST: whether its frame and packet are ones that HST takes (untagged, at most 1518 bytes, for the own address, no fragment, no options, a good header checksum; R328, R329), its bytes, source address and port, destination port, and whether the receive FIFO is full (R333). -/
structure Udp where
  taken : Bool
  bytes : List (BitVec 8)
  ip : BitVec 32
  sport : BitVec 16
  dport : BitVec 16
  full : Bool
  deriving DecidableEq, Repr

/-- A Dripota message parsed (R331). -/
structure DMsg where
  kind : Nat
  client : Nat
  dev : Nat
  member : Nat
  seq : Nat
  opcode : Nat
  status : Nat
  estate : Nat
  body : List Nat
  deriving DecidableEq, Repr

/-- What HST sets in the IPv4 header of a packet it sends: TTL, the DF flag, the DSCP (R329). -/
structure IpHdr where
  ttl : Nat
  df : Bool
  dscp : Nat
  deriving DecidableEq, Repr

/-- A packet that HST sends: a UDP payload to an address and port from a port of its own, an ICMP echo answer, or a Delay_Req of the PTP client to the PTP multicast group (R329, R340). -/
inductive Pkt where
  | udp (ip port sport : Nat) (bytes : List Nat)
  | echo (ip : Nat) (data : List Nat)
  | delayReq (seq : Nat)
  deriving DecidableEq, Repr

/-- An answer that waits for its peer's MAC address: the next hop, the time it is dropped, and the packet (R329). -/
structure Wait where
  hop : Nat
  until_ : Nat
  pkt : Pkt
  deriving DecidableEq, Repr

/-- The host port: the client address table, most recently updated first (client, address, port; R335), the ARP cache (address, MAC, time of its filling), waiting answers, echo answers within the present second (its start and count), an MDIO access under way, the result of a poll deferred by one (the Basic Status register, and whether the PHY runs 1000 Mbit/s full duplex), the PHY's last reported link bit, and the PHY address of the SYSTEM section, at which the polls go (R328). -/
structure Hst where
  clients : List (Nat × Nat × Nat)
  arp : List (Nat × Nat × Nat)
  waits : List Wait
  echoAt : Nat
  echoes : Nat
  busy : Bool
  pollDue : Option (Nat × Bool)
  phyUp : Bool
  phy : Nat
  deriving DecidableEq, Repr

/-- An Announce data set (IEEE 1588): clockIdentity and port of the sender, priorities, clock quality, grandmaster identity, steps removed, and the announce interval's log2. -/
structure Ann where
  src : Nat
  port : Nat
  prio1 : Nat
  cls : Nat
  acc : Nat
  var : Nat
  prio2 : Nat
  gm : Nat
  steps : Nat
  deriving DecidableEq, Repr

/-- A PTP message as the MAC hands it to the client: domain, sender (clockIdentity and port), sequence number, whether the message uses anything R340 does not support, the correctionField in units of 2^-16 ns, and the raw time stamp of the MAC in ns where it is an event message. -/
structure Ptp where
  domain : Nat
  src : Nat
  port : Nat
  seq : Nat
  bad : Bool
  corr : Int
  stamp : Int
  deriving DecidableEq, Repr

/-- The PTP client and device time: the fraction in 2^-32 ns, the selected master and its data set, candidates heard with the number of their Announces, a two-step Sync awaiting its Follow_Up (sequence, t2, correction), the last Sync exchange (t1, t2 and the corrections), a Delay_Req under way (sequence, t3), path delays newest first, offsets of the present run newest first, the last offset with its time, the last Sync's time, the Sync interval in ns, the rate r and r_int in ppb, whether an offset beyond JUMP_TH is being waited out, an offset to step by at the next course start with whether it is the first lock's (R342) and whether TIME_RESTEP asked for it, and the next Delay_Req's sequence number (R340 to R345). -/
structure Tim where
  frac : Nat
  master : Option Ann
  cands : List (Ann × Nat)
  sync : Option (Nat × Int × Int)
  pair : Option (Int × Int)
  dreq : Option (Nat × Int)
  delays : List Int
  ofss : List Int
  last : Option (Int × Nat)
  syncAt : Nat
  r : Rat
  rInt : Rat
  waitJump : Bool
  stepBy : Option (Int × Bool × Bool)
  dseq : Nat
  deriving DecidableEq, Repr

/-- The header of a cascade frame and its CRC verdict (R348). -/
structure CFrm where
  crcOk : Bool
  src : Fin 64
  memberB : Bool
  course : Nat
  dest : Nat
  west : Bool
  portB : Bool
  at_ : Nat
  deriving DecidableEq, Repr

/-- The header of a cascade frame that leaves, but for LEN, which its payload gives (R348): TYPE, the sender's position and member, COURSE, DEST, SENSE. -/
structure CHdr where
  type : Nat
  src : Nat
  memberB : Bool
  course : Nat
  dest : Nat
  west : Bool
  deriving DecidableEq, Repr

/-- An unplanned frame that waits for its port (R349): the port (true for B), TYPE, DEST and payload. -/
structure CWait where
  onB : Bool
  type : Nat
  dest : Nat
  payload : List Nat
  deriving DecidableEq, Repr

/-- A MARK payload (R349). -/
structure Mark where
  time : Nat
  course : Nat
  corr : Nat
  sched : Nat
  pending : Bool
  next : Nat
  left : Nat
  stepSeq : Nat
  deriving DecidableEq, Repr

/-- The cascade: its two ports, the MARKs received in a row and missed in a row, this course's MARK (come, judged missing, or neither yet), STEP_SEQ, root time minus own time at the last MARK, whether the stop inserts at the next course start, the plan's entries, the course of each position's last STATUS, unplanned frames that wait for a port, oldest first, and the device time until which each port is busy, positions whose presence is new, frames of this course already acted on (type, source, what tells them apart), the last MARK, the next /LT/ sequence number, and the positions from which a SETP has come, as a mask. -/
structure Cas where
  a : Port
  b : Port
  run : Nat
  miss : Nat
  seen : Option Bool
  stepSeq : Nat
  ofs : Int
  due : Bool
  plan : List Nat
  last : Store (Option Nat)
  mq : List CWait
  tillA : Nat
  tillB : Nat
  fresh : Bool
  acted : List (Nat × Nat × List Nat)
  mark : Option Mark
  ltSeq : Nat
  heard : Nat
  deriving DecidableEq, Repr

/-- The boot chain (R358, R359): the blocks a follower has kept; on the master the position and block of the IMAGE frame under way, and whether it has been sent a second time. -/
structure Chain where
  image : Store (List Nat)
  cur : Option (Nat × Nat)
  again : Bool
  deriving DecidableEq, Repr

/-- What a JTAG instruction connects between TDI and TDO (R360). -/
inductive Tdr where
  | bypass | idcode | boundary
  deriving DecidableEq, Repr

/-- What the boundary register does to the pins: nothing, drives them, holds them, or makes the outputs high-impedance. -/
inductive BScan where
  | none | extest | clamp | highz
  deriving DecidableEq, Repr

/-- A scan of the boundary register: the pins' levels that it captures, which are shifted out, and the bits shifted in (R360). -/
structure Scan where
  pins : Nat
  bits : Nat
  deriving DecidableEq, Repr

/-- The TAP (R360): the instruction register, the data register selected, the boundary register and its hold on the pins. -/
structure Jtag where
  ir : Nat
  sel : Tdr
  bnd : Nat
  scan : BScan
  deriving DecidableEq, Repr

end Sys2Proof.Machine
end

