-- ==== Sys2Proof/Types/Isl.lean ====
section
/-! DEFINITION. The configuration and the state of the safety island (R266 to R296). -/
namespace Sys2Proof.Machine

/-- An input descriptor: the test pulse assigned, and FILT in 0.1 ms (R273). -/
structure IInp where
  tp : Option Nat
  filt : Nat
  deriving DecidableEq, Repr

/-- An output descriptor: TEST_EN, the groups it belongs to or names as a mask, and T_CHK in ms for a contactor (R276 to R279). -/
structure IOut where
  test : Bool
  groups : Nat
  tchk : Nat
  deriving DecidableEq, Repr

/-- The axis safety parameters of an axis connection (R289); `res` is what the reserved bytes 40 to 63 hold. -/
structure IAxis where
  axis : Nat
  tss1 : Nat
  react : Nat
  w : Nat
  tbrk : Nat
  sosWin : Nat
  sls : List Nat
  slpMin : Int
  slpMax : Int
  sdiTol : Nat
  res : Nat
  deriving DecidableEq, Repr

/-- A connection descriptor: the seeds of both directions, WD in ms, the nominal record interval T_REC in ns, and the axis (R280, R281, R283). -/
structure IConn where
  seedOut : Nat
  seedIn : Nat
  wd : Nat
  tRec : Nat
  axis : Option IAxis
  deriving DecidableEq, Repr

/-- A block entry: TYPE, the reserved byte 1, the four inputs as 16-bit words, and P0 to P2 (R287). -/
structure IBlk where
  type : Nat
  res : Nat
  ins : List Nat
  p0 : Nat
  p1 : Nat
  p2 : Nat
  deriving DecidableEq, Repr

/-- The SAFETY section as the island holds it: descriptors, test-pulse and off-pulse settings (TP_PER in ms, TP_W in 10 µs, OP_W in 10 µs, OP_INT in s), connections, blocks, the bytes of its load records with the CRC2 of its trailer, and whether the trailer's signature and the hash of its key check (R294, R418, R419). -/
structure IslCfg where
  inps : List IInp
  outs : List IOut
  tpEn : Nat
  tpPer : Nat
  tpW : Nat
  opW : Nat
  opInt : Nat
  conns : Store (Option IConn)
  blocks : List IBlk
  recs : List Nat
  crc2 : Nat
  sigOk : Bool
  keyOk : Bool
  deriving DecidableEq, Repr

/-- A connection descriptor as the SAFETY section holds it: an axis connection has 64 bytes of axis parameters (R289). -/
structure IConnSec where
  seedOut : Nat
  seedIn : Nat
  wd : Nat
  tRec : Nat
  axis : Option (List Nat)
  deriving DecidableEq, Repr

/-- The SAFETY section as the image holds it: the block entries of 16 bytes and the axis parameters of 64 bytes as bytes (R287, R289), the load records as bytes for CRC2, the trailer, and the descriptors, for whose bytes the spec gives no layout, by their fields (R294, R418; log entry 13). -/
structure IslSec where
  inps : List IInp
  outs : List IOut
  tpEn : Nat
  tpPer : Nat
  tpW : Nat
  opW : Nat
  opInt : Nat
  conns : Store (Option IConnSec)
  blocks : List (List Nat)
  recs : List Nat
  crc2 : Nat
  sigOk : Bool
  keyOk : Bool
  deriving DecidableEq, Repr

/-- What a self-test of the island finds (R271): it passes or fails, or a read of island memory fails its ECC check once (transient) or twice (lasting). -/
inductive IslTest where
  | pass | fail | transient | lasting
  deriving DecidableEq, Repr

/-- The state of one block: its output, its timer in safety cycles, a latch and an auxiliary bit, and its inputs of the last cycle. -/
structure BlkSt where
  out : Bool
  t : Nat
  l : Bool
  m : Bool
  a : Bool
  b : Bool
  deriving DecidableEq, Repr

/-- What the table carries for a connection from cycle to cycle (R283 to R288): the safe speed in counts/s, latched violations (bits SOS, SLS, SLP, SDI), the SS1 of a block and that of a violation in safety cycles to the STO instant, the references of SOS and SDI, the brake check, the outbound bits. `stoIn` and `sbcIn` are this cycle's inputs of the STO and SBC blocks. -/
structure CSt where
  v : Rat
  viol : Nat
  ss1 : Option Nat
  vss1 : Option Nat
  sosRef : Option Int
  sdiExt : Option Int
  sbcT : Option Nat
  sbcF : Bool
  stoIn : Bool
  sbcIn : Option Bool
  tq : Bool
  brk : Bool
  data : Nat
  deriving DecidableEq, Repr

/-- What a connection has received: the counter and data of the newest accepted record, the records of the speed window newest first (counter, SPOS), the safety cycles left of its watchdog, the watchdog latch, and whether a record has been accepted since it latched (R281). -/
structure CRx where
  cnt : Option Nat
  data : Nat
  recs : List (Nat × Int)
  wd : Nat
  lat : Bool
  since : Bool
  deriving DecidableEq, Repr

/-- The state that the result vector carries into the next cycle. -/
structure EvSt where
  blks : List BlkSt
  cs : Store (Option CSt)
  deriving DecidableEq, Repr

/-- The inputs latched for a cycle (R270): filtered inputs, contactor feedback, outputs on, contactors on, latched output faults (SO in bits 0 to 15, KO in 16 to 19), NS0 to NS7, ACK, the inbound data of each connection, and what each connection has received. -/
structure IslIn where
  si : Nat
  kf : Nat
  so : Nat
  ko : Nat
  flt : Nat
  ns : Nat
  ack : Bool
  inb : Store Nat
  rx : Store (Option CRx)
  deriving DecidableEq, Repr

/-- A result vector: output and contactor demands, bridge-off channels, and the next state. -/
structure Vec where
  so : Nat
  ko : Nat
  off : Nat
  ev : EvSt
  deriving DecidableEq, Repr

/-- One output stage, SO 0 to 15 and KO 16 to 19 (R275 to R279): the commanded state, whether an off-pulse runs and whether it has been judged, a failed test that awaits its repeat, the mismatches in a row, the latched fault (1 stuck-on, 2 stuck-off, 3 contactor feedback), for a contactor the check that runs and its length so far in cycles, and the read-back samples left of the 20 µs after a switching, in which nothing is judged. -/
structure Stg where
  cmd : Bool
  pulse : Bool
  judged : Bool
  retest : Bool
  mis : Nat
  flt : Nat
  chk : Bool
  chkT : Nat
  settle : Nat
  deriving DecidableEq, Repr

/-- One input: its raw and filtered levels, the level of the last sample given to the filter and the samples for which it has held, the fault found by its last test (0 none, 1 or 2 the code, 3 its TP) and the TP whose pulse repeats that test, and whether it has passed since a lasting fault (R273, R274). -/
structure SInp where
  raw : Bool
  filt : Bool
  last : Bool
  run : Nat
  bad : Nat
  by_ : Nat
  passed : Bool
  deriving DecidableEq, Repr

/-- The pulse window under way (R272 to R274): the TP, samples since its start, samples since its end, raw inputs just before, inputs high in the second half, inputs low throughout, and whether the TP itself read high in the second half. -/
structure TpWin where
  tp : Nat
  n : Nat
  ended : Option Nat
  before : Nat
  hiHalf : Nat
  lowAll : Nat
  tpHigh : Bool
  deriving DecidableEq, Repr

/-- The island: its checked configuration, inputs, the pulse window, TP faults (1 first, 2 lasting) and tests passed, output stages with the last samples of read-back, stage senses and contactor feedback, the connections received and sent (counter and newest record), the table's state, the latched inputs, the vector under way and whether it has been compared, ACK for the next cycle, the vector in force as compared with the peer, mismatches of the shadow comparison, blanking after a switch-over (samples left; while a lease is not renewed it does not run down), the inputs as they were at the last lease renewal received (R292), and the contactors that may resume while KF reads low, as a mask. -/
structure Isl where
  cfg : Option IslCfg
  inps : List SInp
  win : Option TpWin
  tpBad : List Nat
  stg : List Stg
  fb : Nat
  sense : Nat
  kf : Nat
  rx : Store (Option CRx)
  tx : Store (Nat × List Nat)
  ev : EvSt
  inp : IslIn
  vec : Option Vec
  compared : Bool
  ack : Bool
  force : Nat × Nat × Nat
  shadowMis : Nat
  blank : Nat
  holdBlank : Bool
  renewInps : List SInp
  resume : Nat
  deriving DecidableEq, Repr

end Sys2Proof.Machine
end

