-- ==== Sys2Proof/Types/Axis.lean ====
section
/-! DEFINITION. The state of the axes, the groups and the profile engines (R37 to R82). -/
namespace Sys2Proof.Machine

/-- The axis states of R45, in the order of their codes. -/
inductive AxSt where
  | disabled | standstill | moving | group | sync | homing | stopping | faultStop | fault
  deriving DecidableEq, Repr

/-- The profile engines' copy of a parameter record (R43), fields as their raw patterns. -/
structure AxPar where
  cfg : Nat
  softMin : Nat
  softMax : Nat
  velLimit : Nat
  accLimit : Nat
  jerkLimit : Nat
  stopDec : Nat
  stopJerk : Nat
  emergDec : Nat
  homeMethod : Nat
  homeDir : Nat
  homeDwell : Nat
  homeVfast : Nat
  homeVslow : Nat
  homeAcc : Nat
  homeOfs : Nat
  homeMaxdist : Nat
  homeTorque : Nat
  limCfg : Nat
  limPol : Nat
  pubCfg : Nat
  deriving DecidableEq, Repr

/-- One segment of a profile: its duration in seconds, the acceleration at its start and its jerk (R54). -/
structure Seg where
  t : Rat
  a : Rat
  j : Rat
  deriving DecidableEq, Repr

/-- A profile: its start position and velocity, its segments, and the time already run. -/
structure Plan where
  p : Rat
  v : Rat
  segs : List Seg
  el : Rat
  deriving DecidableEq, Repr

/-- A queue entry of an axis (16 words, R51) or of a group (24 words, R68): the words firmware staged, the status the profile engines write, the start and end positions, and the joint velocity the look-ahead has lowered (R59; none while nothing has lowered it). -/
structure Entry where
  words : List Nat
  status : Nat
  startPos : Int
  endPos : Int
  joint : Option Rat
  deriving DecidableEq, Repr

/-- A debouncer: the debounced value, the run of raw samples that show the other value, and the position latched with the run's first sample (R77, R79). -/
structure Deb where
  val : Bool
  run : Nat
  pos : Int
  deriving DecidableEq, Repr

/-- The chatter watch of one limit input (R80): the last raw value, none before the first sample, the device times of its changes within the window, the instant of the last change, and whether the input is treated as active. -/
structure Chat where
  raw : Option Bool
  changes : List Nat
  last : Nat
  act : Bool
  deriving DecidableEq, Repr

/-- The steps of the homing methods (R77). -/
inductive HomeStep where
  | search | turn | away | backStop | back | offStop | approach | settle
  deriving DecidableEq, Repr

/-- A homing run: its step, the position where the step began, the position latched when the awaited condition first showed, the home point once found, the time in ns for which the condition of HM_HARDSTOP has held, and whether LP and LN were active a tick ago (R77, R78). -/
structure Homing where
  step : HomeStep
  origin : Int
  mark : Option Int
  point : Option Int
  held : Nat
  lpWas : Bool
  lnWas : Bool
  deriving DecidableEq, Repr

/-- The sync state of a slave: the master's last value and its last increment, the ticks the master has been missing, and the accumulated periods (R70 to R72). -/
structure SyncSt where
  master : Int
  step : Int
  missed : Nat
  known : Bool
  track : Int
  deriving DecidableEq, Repr

/-- What the last feedback or channel latch gave an axis: raw limit inputs, index mark, absolute position, drive report (R77, R79, R187). -/
structure AxIn where
  lp : Bool
  ln : Bool
  hm : Bool
  index : Bool
  indexPos : Int
  absCap : Bool
  absValid : Bool
  absPos : Int
  drvFault : Bool
  tqOff : Bool
  crs : Nat
  deriving DecidableEq, Repr

/-- An axis. `pos`, `vel` and `acc` are the planner's exact state (R40); `goal` is where the active profile ends, `turnAt` the point where the active entry turns because it first comes to rest (R63), `cmdPos` is the set-point, `prevPos` the one before; `pend` the fault causes other engines have reported since the last tick (R50 step 1); `late` the last course whose command was late (R29); `ofs` what homing has added to the raw position (R77); `ss1` and `sto` the island's lines (R285), `stoSince` that the drive is held disabled until CLEAR_FAULT is accepted (R47). -/
structure Ax where
  assigned : Bool
  st : AxSt
  homeCode : Nat
  fault : Nat
  posUnc : Bool
  homed : Bool
  lp : Deb
  ln : Deb
  hm : Deb
  chatLp : Chat
  chatLn : Chat
  gearLocked : Bool
  camLocked : Bool
  camRefused : Bool
  reversal : Bool
  softStop : Bool
  grp : Option Nat
  par : AxPar
  copied : Bool
  slots : List Entry
  head : Nat
  count : Nat
  pos : Rat
  vel : Rat
  acc : Rat
  plan : Option Plan
  goal : Rat
  turnAt : Option Rat
  cmdPos : Int
  prevPos : Int
  actPos : Int
  actPrev : Int
  stopPos : Int
  overshoot : Int
  ofs : Int
  activeTag : Nat
  doneTag : Nat
  crsLo : Nat
  dwell : Option Nat
  homing : Option Homing
  sync : SyncSt
  inp : AxIn
  pend : Nat
  cond : Nat
  ended : Bool
  doneEvt : Bool
  faultEvt : Bool
  late : Option Nat
  ss1 : Bool
  sto : Bool
  evts : List Nat
  stoSince : Bool
  initCtl : Bool
  paramNew : Bool
  deriving DecidableEq, Repr

/-- A line a group runs: its path profile, its length, the travel of each member, and the path deceleration and jerk of a stop along it (R69). -/
structure GLine where
  plan : Plan
  len : Rat
  deltas : List Int
  d : Rat
  j : Rat
  deriving DecidableEq, Repr

/-- A group (R68): its members with their scales, its queue, the lines that run (two while a tolerance blend superimposes them), the member positions they start from, whether a STOP runs, the hold time of a DWELL in courses, and the line that has ended in this tick with a path velocity. -/
structure Grp where
  members : List (Option Nat)
  scales : List Nat
  slots : List Entry
  head : Nat
  count : Nat
  lines : List GLine
  base : List Int
  stopping : Bool
  waiting : Bool
  dwell : Option Nat
  activeTag : Nat
  pathVel : Rat
  last : Option GLine
  ended : Bool
  doneEvt : Bool
  deriving DecidableEq, Repr

/-- A command the profile engines have sampled: opcode, target, group flag, and the copy of the staging entry (R49). -/
structure PfCmd where
  op : Nat
  target : Nat
  isGroup : Bool
  staging : List Nat
  deriving DecidableEq, Repr

end Sys2Proof.Machine
end

