-- ==== Sys2Proof/Types/Loop.lean ====
section
/-! DEFINITION. The state of the loop engines (R113, R122 to R126, R139, R140) and of the standard loop program's axes (R85 to R106). -/
namespace Sys2Proof.Machine

/-- The state of a long accumulator (R128, R130). -/
inductive LaccSt where
  | normal | satPos | satNeg | nan
  deriving DecidableEq, Repr

/-- A long accumulator: the integer N, whose value is N × 2^-96, and its state (R128). -/
structure Lacc where
  n : Int
  st : LaccSt
  deriving DecidableEq, Repr

/-- The states of a loop engine (R122). -/
inductive EngSt where
  | halted | running | error
  deriving DecidableEq, Repr

/-- An event of a slot: ready or feedback missing, for a course (R123). `crs` is the 64-bit course counter, `sched` the schedule of that course (R94, R104), `at_` the device time in ns, which is the engine cycle, at which it is posted (R26). -/
structure Ev where
  slot : Nat
  missing : Bool
  axis : Nat
  crs : Nat
  sched : Nat
  at_ : Nat
  deriving DecidableEq, Repr

/-- A command published by CMDC: the four words of the staging record, and the course (R125). -/
structure Pub where
  crs : Nat
  words : List Nat
  deriving DecidableEq, Repr

/-- One bank of digest lanes: the course it stands for, its 16 lanes, the slots that have executed CMDC, and whether it is closed (R139, R140). -/
structure Bank where
  crs : Nat
  lanes : List Nat
  done : List Nat
  closed : Bool
  deriving DecidableEq, Repr

/-- A loop engine (R113, R122). `axes` is the axis of each occupied slot (R117), `pub` the published command of each slot; `ready` holds the cycles until a data register's result stands (R143), and `swap` the slot and target course of a live update whose parameters a late loop of an earlier course still keeps out (R104, R108); `kept` holds, by slot, the first course and the bytes of a copy of R105 that such a loop keeps out. -/
structure Eng where
  st : EngSt
  v : List Nat
  a : List Nat
  m : List Nat
  b : List Nat
  l : List Nat
  bind : List (Option Nat)
  lacc : List Lacc
  sf : Nat
  pc : Nat
  cur : Option Ev
  queue : List Ev
  asleep : Bool
  haltReq : Bool
  errCode : Nat
  cyc : Nat
  awake : Nat
  busy : Nat
  even : Bank
  odd : Bank
  dig : Nat
  digCrs : Nat
  axes : List Nat
  pub : Store Pub
  ready : Store Nat
  swap : Option (Nat × Nat)
  kept : Store (Nat × List (Nat × BitVec 8))
  deriving DecidableEq, Repr

/-- The histories of one biquad filter, as FP32 patterns (R94). -/
structure Bq where
  x1 : Nat
  x2 : Nat
  y1 : Nat
  y2 : Nat
  ready : Bool
  deriving DecidableEq, Repr

/-- What the standard loop program carries from course to course for one axis (R85 to R103); FP32 values as patterns, times in ns. `enabled` holds for the courses from `since` on, and before them its opposite, so that a late loop is judged as it would have been on time (R102, R104). -/
structure Loop where
  uPrev : Nat
  uCur : Nat
  integ : Nat
  pReal : Int
  tReal : Nat
  pActPrev : Int
  vActPrev : Nat
  tPrev : Nat
  kI : Nat
  kBus : Nat
  kpEff : Nat
  bq : List Bq
  feRun : Nat
  veRun : Nat
  heldRun : Nat
  faulted : Bool
  driveOff : Bool
  detail : Nat
  govSeen : Bool
  prodSeen : Bool
  cycMax : Nat
  satCnt : Nat
  heldCnt : Nat
  sched : Nat
  enabled : Bool
  since : Nat
  deriving DecidableEq, Repr

/-- A live update that is pending: the axis, the target course, and whether the check of R108 passed. -/
structure Upd where
  axis : Nat
  crs : Nat
  ok : Bool
  deriving DecidableEq, Repr

end Sys2Proof.Machine
end

