-- ==== Sys2Proof/Types/Pim.lean ====
section
/-! DEFINITION. The state of the process image (R218 to R236). -/
namespace Sys2Proof.Machine

/-- Who asks for an access over the interconnect: an application core or the DMA engine (R20, R231). -/
inductive Req where
  | core (n : Fin 4)
  | dma
  deriving DecidableEq, Repr

/-- A range descriptor: FIRST, COUNT, TYPE, DIR, CLASS and INIT (R219), with its four words as the image gave them. -/
structure Rng where
  first : Nat
  count : Nat
  type : Nat
  dir : Nat
  cls : Nat
  init : Nat
  deriving DecidableEq, Repr

/-- A segment map: FIRST, COUNT and DIR (R227). -/
structure PSeg where
  first : Nat
  count : Nat
  dir : Nat
  deriving DecidableEq, Repr

/-- A refreshed record: its value, its stored quality byte, and the course of its refresh (R221, R223, R224). -/
structure Pt where
  value : Nat
  qual : Nat
  stamp : Nat
  deriving DecidableEq, Repr

/-- An output record as the holder's resynchronisation pass sends it: its point and stored value, and the course of its last refresh; none for an output that was never written (R221, R235). -/
structure OutRec where
  point : Nat
  value : Nat
  course : Option Nat
  deriving DecidableEq, Repr

/-- What the image has served to a requester (R239): the millisecond of device time under way, the bytes served in it, and those of the last complete millisecond before it. -/
structure Served where
  ms : Nat
  bytes : Nat
  last : Nat
  deriving DecidableEq, Repr

/-- The process image: ranges, segment maps (key ring × 256 + map), refreshed records, the latch of each requester (0 CORE, 1 DMA: the point and its second word, R233), the output log of this course (point and value, oldest first), its accepted writes, and whether a resynchronisation pass has been complete (R234, R235). `start` and `prev` are the process-point masters as the PFM read them at the start of this course and of the one before (R231), `served` what each of the eight requesters was served (R239). -/
structure Pim where
  ranges : List Rng
  segs : Store (Option PSeg)
  recs : Store (Option Pt)
  latch : Store (Option (Nat × Nat))
  log : List (Nat × Nat)
  writes : Nat
  passDone : Bool
  start : List (Nat × Int)
  prev : List (Nat × Int)
  served : Store Served
  deriving DecidableEq, Repr

end Sys2Proof.Machine
end

