-- ==== Sys2Proof/Types/Stepper.lean ====
section
/-! DEFINITION. The state of the integrated stepper channels (R149 to R168). -/
namespace Sys2Proof.Machine

/-- What one phase's bridge does: off, driving, fast decay, slow decay, or high-impedance for a bridge-fault retry (R160, R167). -/
inductive PhSt where
  | off | drive | fast | slow | retry
  deriving DecidableEq, Repr

/-- The measurements of the period before that an on-time ending ahead of its conversion has replaced: peak, off-time, on-slope, and the upper threshold of the on-time (R160, R162). -/
structure Early where
  peak : Rat
  tOff : Rat
  sOn : Rat
  u : Int
  deriving DecidableEq, Repr

/-- One phase's chopper (R160): currents in DAC codes, times in ns. `wait` says that a target below 1 awaits an index change; `held` that the sample-and-hold has closed and its conversion is awaited, and `early` holds what that conversion still needs once the on-time has ended; `fault` is the bridge fault whose fresh period runs; `cur` is the table entry read at the last index update (R158). -/
structure Phase where
  st : PhSt
  neg : Bool
  delta : Rat
  sOn : Rat
  sOff : Rat
  tOff : Rat
  tOn : Rat
  havePrev : Bool
  peak : Rat
  valley : Rat
  t : Rat
  tPrev : Rat
  u : Int
  l : Int
  dac : Int
  wait : Bool
  held : Bool
  early : Option Early
  fault : Option Nat
  cur : Int
  deriving DecidableEq, Repr

/-- A level at the fault input of a channel's external drive, SA against 0.6 V (R149, R157). -/
structure DrivePin where
  chan : Fin 48
  high : Bool
  deriving DecidableEq, Repr

/-- What one calibration run of a channel measures: the comparator offsets of phases A and B in DAC codes, and their ADC zeros in ADC codes (R168). -/
structure CalRun where
  ca : Int
  cb : Int
  aa : Int
  ab : Int
  deriving DecidableEq, Repr

/-- The configuration a channel has adopted at ENABLE or RELOAD, at first the image's (R169), fields of STPn_CFG to STPn_STALL_ERR as raw words. -/
structure ChanCfg where
  cfg : Nat
  cur : Nat
  chop0 : Nat
  chop1 : Nat
  chop2 : Nat
  stepdir : Nat
  encNum : Nat
  encDen : Nat
  stall : Nat
  stallVmin : Nat
  stallErr : Nat
  deriving DecidableEq, Repr

/-- A channel: its configuration, the generator with the two ends of its interpolation, whether the newest set-point is late and whether that of the present course is missing (R30), queued STEP pulses in runs of one direction, oldest first, the level of DIR, the encoder, SCALE's standstill count, both phases, the stall measurement, a lasting bridge fault, a running calibration, and its limit and home pins. -/
structure Chan where
  cfg : ChanCfg
  gen : Int
  src : Int
  dst : Int
  frozen : Bool
  lateSp : Bool
  miss : Bool
  pulses : List (Bool × Nat)
  up : Bool
  encA : Bool
  encB : Bool
  enc : Int
  encOfs : Int
  still : Nat
  hold : Bool
  search : Bool
  phA : Phase
  phB : Phase
  slopeSum : Rat
  slopeN : Nat
  slopeRun : Nat
  stall : Bool
  stallPos : Int
  flt : Option Nat
  cal : Option Nat
  lp : Bool
  ln : Bool
  hm : Bool
  deriving DecidableEq, Repr

end Sys2Proof.Machine
end

