-- ==== Sys2Proof/Types/Pair.lean ====
section
/-! DEFINITION. The state of paired operation and of the journal of accepted work (R297 to R327). -/
namespace Sys2Proof.Machine

/-- The pair roles, in the order of their codes (R298). -/
inductive Role where
  | alone | holder | detached | syncing | ready | unhealthy
  deriving DecidableEq, Repr

/-- The envelope of a mortar frame as received: whether its CRC-32C checks, and its sequence number (R301, R302). -/
structure MtrFrm where
  crcOk : Bool
  seq : Nat
  deriving DecidableEq, Repr

/-- A HELLO: identity, revision, PAIR_ID, role, epoch, state format code (R301), and what tells two images and two SAFETY sections apart (R319). -/
structure Hello where
  sysId : Nat
  sysRev : Nat
  memberB : Bool
  role : Role
  epoch : Nat
  sfc : Nat
  img : Nat
  safCrc : Nat
  deriving DecidableEq, Repr

/-- A weather report: the fields of the WX_ registers (R316). -/
structure Weather where
  ready : Bool
  outSync : Bool
  jnlSync : Bool
  safeIsl : Bool
  unhealthy : Bool
  testRes : Nat
  seq : Nat
  logicPct : Nat
  memPct : Nat
  roundS : Nat
  mismatch : Nat
  safeDiv : Nat
  corrected : Nat
  transient : Nat
  tjMax : Nat
  tjAvg : Nat
  deriving DecidableEq, Repr

/-- A journal entry (R321): `st` is STATE. `opcode` is the command's opcode, which the journal logic keeps for device commands (R336); `ord` and `rel` are the orders of acceptance and release, `taken` whether firmware has taken it, `ack` the status of an acknowledgement that awaits the JACK, `res` a result not yet committed with the course of its JNL_DONE. -/
structure JEnt where
  client : Nat
  st : Nat
  seq : Nat
  acc : Nat
  doneC : Nat
  body : List Nat
  result : List Nat
  opcode : Nat
  ord : Nat
  rel : Nat
  taken : Bool
  ack : Option Nat
  res : Option (List Nat × Nat)
  deriving DecidableEq, Repr

/-- A client slot: its identifier, NEXT, and the time of its last command (R322). -/
structure JCl where
  client : Nat
  next : Nat
  last : Nat
  deriving DecidableEq, Repr

/-- The journal: entries by index, client slots, the next acceptance and release orders. -/
structure Jnl where
  ents : Store (Option JEnt)
  cls : Store (Option JCl)
  ord : Nat
  rel : Nat
  deriving DecidableEq, Repr

/-- The schedule state that the last copy brought (R204, R311): the course it ends, by how many courses the own count was ahead of it, the schedule in force, and a pending switch with the courses left. -/
structure CopySched where
  crs : Nat
  lag : Nat
  sched : Nat
  swTo : Option Nat
  swLeft : Nat
  deriving DecidableEq, Repr

/-- A state copy (R311): the header's contents, the loss sets per ring, and the profile, loop and stepper state at the end of the course; `outs` is the output log and `ovf` says that it overflowed. -/
structure StateCopy where
  crs : Nat
  sched : Nat
  swTo : Option Nat
  swLeft : Nat
  epoch : Nat
  lease : Nat
  sfc : Nat
  commits : List Nat
  mirror : List (Nat × PfCmd)
  loss : List (List Nat)
  axes : Store Ax
  grps : Store Grp
  loops : Store Loop
  chans : Store Chan
  outs : List (Nat × Nat)
  ovf : Bool
  deriving DecidableEq, Repr

/-- What a BULK frame carries (R315, R235): journal entries, client slots, output records; `last` ends the journal and client table. -/
structure Bulk where
  ents : List (Nat × JEnt)
  cls : List (Nat × JCl)
  recs : List OutRec
  last : Bool
  deriving DecidableEq, Repr

/-- The contents of a mortar frame (R301). -/
inductive MFrame where
  | renew (epoch course granted : Nat)
  | journal (i : Nat) (e : JEnt)
  | jack (i : Nat)
  | safety (cycle : Nat) (words : List Nat)
  | digest (course : Nat) (d : List (Nat × Bool))
  | copy (c : StateCopy)
  | weather (w : Weather)
  | bulk (b : Bulk)
  | hello (h : Hello)
  | handover (course : Nat)
  deriving DecidableEq, Repr

/-- The pair as the mortar link controller holds it. `fence` is the fence timer in HSX cycles; `peer` the HELLO last received; `rx` and `tx` the sequence numbers expected and next. On the standby: `granted` the last course a RENEW granted and `renewed` the course of that RENEW, `margin` the margin course, `probing` the claim probe, `retry` the first course in which a tied claim is tried again, `excl` the courses excluded from comparison, `lossPrev` the own loss sets of the last course, `adopt` whether the next complete copy is adopted, `copyAt` the course of the last complete copy, `end_` a copied end state to be taken at the next course start, `mirror` the command mirror, `evs` the loop events of the course, `shared` the snapshot of the shared master records, `half` that the tick of the course before waits for its commands, `jnlOk` a complete journal, `bulkOn` that its transfer has begun. On both: `said` that the own HELLO of this start of the link has been sent. On the holder: `copyLen` the size of the copy under way, `relDue` a release at the next course start, `lastRenew` the course of a last renewal, `copyMiss` 1 while the copy under way has failed and 2 when the one before it has, `unfit` that the member becomes UNHEALTHY when it has released. `conflict` counts courses with PEER_CONFLICT present; `digs` holds peer digests not yet compared, `misRun` the mismatches in a row; `selfOk` the start-up self-test, `testRes` the last quick self-test, `divRun` that a divergence has been handled in this run; `sfc` and `img` the own state format code and image; the weather report's sequence number and the time of the last report. -/
structure Mtr where
  paired : Bool
  role : Role
  fence : Nat
  peerAct : Bool
  pairAct : Bool
  probing : Bool
  peer : Option Hello
  rx : Nat
  tx : Nat
  granted : Option Nat
  renewed : Option Nat
  margin : Option Nat
  retry : Nat
  relDue : Bool
  unfit : Bool
  lastRenew : Option Nat
  conflict : Nat
  copyMiss : Nat
  copyAt : Option Nat
  copySch : Option CopySched
  excl : List Nat
  lossPrev : List (List Nat)
  adopt : Bool
  end_ : Option StateCopy
  mirror : List (Nat × PfCmd)
  evs : List (Nat × Ev)
  shared : Store (BitVec 8)
  half : Bool
  jnlOk : Bool
  bulkOn : Bool
  said : Bool
  copyLen : Nat
  digs : Store (List (Nat × Bool))
  misRun : Nat
  divRun : Bool
  selfOk : Bool
  testRes : Nat
  sfc : Nat
  img : Nat
  wxSeq : Nat
  wxAt : Nat
  jnl : Jnl
  deriving DecidableEq, Repr

/-- The member holds the keystone (R298). -/
def Mtr.holder (m : Mtr) : Bool := m.role == .holder

end Sys2Proof.Machine
end

