-- ==== Sys2Proof/Types/Sys.lean ====
section
/-! DEFINITION. The state of clocks, power, reset, self-test and the configuration image (R388 to R425). -/
namespace Sys2Proof.Machine

/-- The reset sources but the safety one (R398). -/
inductive RstCause where
  | por | pin | sw | wdt | clock
  deriving DecidableEq, Repr

/-- PD0 beyond its registers: the key and feed sequences under way, the watchdog's run and the device time of its expiry, domains being powered up, domains that the image enables, the fast and the always-on tree whose mux waits for a stopped source, and the cause of the reset under way (R389 to R402). -/
structure Pwr where
  key : Bool
  fed : Bool
  wdtOn : Bool
  wdtEnd : Nat
  rising : List Nat
  imgDoms : Nat
  muxFast : Bool
  muxAo : Bool
  cause : Option RstCause
  deriving DecidableEq, Repr

/-- What TST does: nothing, a round or the quick self-test (R406). -/
inductive TstRun where
  | idle | round | quick
  deriving DecidableEq, Repr

/-- TST: what runs, what waits behind it, the poisoned words, as memory code and word address, and the device time at which the last round ended, and whether a lasting logic failure stands (R405 to R407). -/
structure Tst where
  run : TstRun
  waits : List TstRun
  poison : List (Nat × Nat)
  endAt : Nat
  lasting : Bool
  covL : Nat
  covM : Nat
  deriving DecidableEq, Repr

/-- What a read of a memory word found: no error, a corrected one, or an uncorrectable one that a second read passed or failed (R405). -/
inductive EccRes where
  | clean | corrected | transient | lasting
  deriving DecidableEq, Repr

/-- An instruction of core `core`, with what the read of its fetch and that of its load find in memory (R368, R405). -/
structure CoreTurn where
  core : Fin 4
  fetch : EccRes
  load : EccRes
  deriving DecidableEq, Repr

/-- The header of a slot as read from the NVM: its 256 bytes, those of the second read that R404 calls for where HDR_CRC fails, and IMAGE_LEN as read at each CHAIN_OFS, from chain position 1 on (R404, R413, R420). -/
structure HdrRead where
  first : List (BitVec 8)
  second : List (BitVec 8)
  chain : List Nat
  deriving DecidableEq, Repr

/-- What a slot's header says (R413, R414, R420): the code of the first failed check (0 none, 1 to 3), whether a second read of the header passed where the first had not, GEN, IMAGE_LEN, SIGNED, the directory as OFFSET, LENGTH and CRC-32 in TYPE order, and for the chain positions from 1 on the slot offset and the IMAGE_LEN of the follower's image, 0 where there is none. -/
structure SlotHdr where
  code : Nat
  again : Bool
  gen : Nat
  len : Nat
  signed : Bool
  dir : List (Nat × Nat × Nat)
  chain : List (Nat × Nat)
  deriving DecidableEq, Repr

/-- A load record of a section, its data read under the layouts of the chapters it goes to (R415, R416): a register word; bytes at a map address; a schedule, the record map or a node descriptor of a ring; the range descriptors or a segment map; the island's configuration; the switches of the SYSTEM section that no register holds (AUTORUN, paired, the state format code, the image's identity for R319) with the cascade plan; the entry address of APP_FIRMWARE; a record outside every destination. -/
inductive LoadItem where
  | reg (addr : BitVec 32) (v : BitVec 32)
  | mem (addr : BitVec 32) (b : List (BitVec 8))
  | sched (k : Fin 4) (j : Fin 4) (b : BSched)
  | map (k : Fin 4) (els : List Nat)
  | node (k : Fin 4) (addr : Nat) (uid : Nat) (kind : Nat)
  | ranges (r : List Rng)
  | seg (k : Fin 4) (m : Fin 256) (g : PSeg)
  | island (x : IslSec)
  | system (autorun paired : Bool) (sfc img : Nat)
  | plan (w : List Nat)
  | entry (a : BitVec 32)
  | stray
  deriving DecidableEq, Repr

/-- What discovery found of the NVM (R411): the density in use in KiB, whether reads use 1-4-4 mode, and whether erases of 4 KiB and 64 KiB are advertised. -/
structure NvmInfo where
  kib : Nat
  quad : Bool
  e4 : Bool
  e64 : Bool
  deriving DecidableEq, Repr

/-- A section as read from the NVM: its slot, its TYPE, its bytes and those of the second read that R404 calls for where the CRC-32 fails, its load records of TARGET 1 to 5 and what SYSTEM gives that no register holds, read under the layouts of the chapters they go to, and the outcome of the content checks whose inputs stand in the image alone (R404, R415, R416, R421). -/
structure SecRead where
  slotB : Bool
  type : Fin 10
  first : List (BitVec 8)
  second : List (BitVec 8)
  items : List LoadItem
  rest : Bool
  deriving DecidableEq, Repr

/-- A section as the loader judges it: its slot, its TYPE, whether its CRC-32 checked on the first and on the second read, its load records, and the outcome of the content checks whose inputs stand in the image alone: deadlines (R27), the frames of the cascade plan on its segments (R352), the ranges of capture fields (R414 to R416, R421). -/
structure Section where
  slotB : Bool
  type : Fin 10
  crc1 : Bool
  crc2 : Bool
  items : List LoadItem
  rest : Bool
  deriving DecidableEq, Repr

/-- The boot ROM's progress (R403, R420 to R422): the headers read, the slots still to try (false A), the slot under way, the sections of it loaded with the extents of their records, AUTORUN, the entry address, the NVM as discovered, and the bytes of the slot whose image is loaded, which writes may not touch (R424). -/
structure Boot where
  hdrs : Option (SlotHdr × SlotHdr)
  queue : List Bool
  first : Option Bool
  slot : Option Bool
  done : Nat
  spans : List (Nat × Nat × Nat)
  autorun : Bool
  entry : Nat
  nvm : NvmInfo
  protect : Option (Nat × Nat)
  deriving DecidableEq, Repr

end Sys2Proof.Machine
end

