-- ==== Sys2Proof/Syntax.lean ====
section
/-! DEFINITION. The commands of the device, one constructor per row of spec/opcode_table.json with the row's operands. -/
namespace Sys2Proof
open Machine

/-- A command: a register access, an operation, a message or frame arriving, or an event of the device's clocks, pins or engines. -/
inductive Instr where
  /-- REGISTER_WRITE (R13). -/
  | registerWrite (q : Req) (a : BitVec 32) (size : Fin 4) (v : BitVec 64)
  /-- COUNTER_READ_CLEAR (R13). -/
  | counterReadClear (q : Req) (a : BitVec 32)
  /-- CRS_CNT_LO_READ (R35). -/
  | crsCntLoRead (q : Req)
  /-- DIG_LO_READ (R148). -/
  | digLoRead (q : Req) (n : Fin 12)
  /-- TIM_NOW_LO_READ (R362). -/
  | timNowLoRead (q : Req)
  /-- TIM_MASTER_LO_READ (R362). -/
  | timMasterLoRead (q : Req)
  /-- CAP_CASC_T_LO_READ (R263). -/
  | capCascTLoRead (q : Req)
  /-- MISS_T_LO_READ (R264). -/
  | missTLoRead (q : Req) (m : Fin 8)
  /-- MISS_CNT_READ (R256). -/
  | missCntRead (q : Req) (m : Fin 8)
  /-- COURSE_START (R23). -/
  | courseStart (late : Bool)
  /-- SAMPLE_INSTANT (R23). -/
  | sampleInstant (pins : BitVec 144)
  /-- ACTUATION_INSTANT (R154). -/
  | actuationInstant
  /-- SYNC_GAP_START (R30). -/
  | syncGapStart
  /-- FEEDBACK_MISSING (R28). -/
  | feedbackMissing (a : Fin 192)
  /-- SW_GO (R34). -/
  | swGo
  /-- SELF_TEST_SLICE (R406). -/
  | selfTestSlice (unit : BitVec 8) (addr : BitVec 32) (cut : Bool) (first : Bool) (second : Bool) (logicPct : BitVec 8) (memPct : BitVec 8)
  /-- ENABLE (R42). -/
  | enable (n : Fin 4) (target : BitVec 8) (isGroup : Bool)
  /-- DISABLE (R46). -/
  | disable (n : Fin 4) (target : BitVec 8) (isGroup : Bool)
  /-- QUEUE (R51). -/
  | queue (n : Fin 4) (target : BitVec 8) (isGroup : Bool)
  /-- REPLACE (R61). -/
  | replace (n : Fin 4) (target : BitVec 8) (isGroup : Bool)
  /-- STOP (R74). -/
  | stop (n : Fin 4) (target : BitVec 8) (isGroup : Bool)
  /-- ESTOP (R76). -/
  | estop (n : Fin 4) (target : BitVec 8) (isGroup : Bool)
  /-- CLEAR_FAULT (R47). -/
  | clearFault (n : Fin 4) (target : BitVec 8) (isGroup : Bool)
  /-- HOME (R77). -/
  | home (n : Fin 4) (target : BitVec 8) (isGroup : Bool)
  /-- RELOAD (R42). -/
  | reload (n : Fin 4) (target : BitVec 8) (isGroup : Bool)
  /-- SET_GROUP (R68). -/
  | setGroup (n : Fin 4) (target : BitVec 8) (isGroup : Bool)
  /-- BAD_OPCODE (R448). -/
  | badOpcode (n : Fin 4) (op : BitVec 8) (target : BitVec 8) (isGroup : Bool)
  /-- DWELL_EXPIRE (R52). -/
  | dwellExpire (a : Fin 240)
  /-- LIMIT_DEBOUNCE (R79). -/
  | limitDebounce (a : Fin 240) (i : Fin 3)
  /-- HOME_DWELL_EXPIRE (R77). -/
  | homeDwellExpire (a : Fin 240)
  /-- AXIS_LOOP (R85). -/
  | axisLoop (n : Fin 12)
  /-- FOLLOWING_ERROR_LIMIT (R96). -/
  | followingErrorLimit (a : Fin 192)
  /-- VELOCITY_ERROR_LIMIT (R97). -/
  | velocityErrorLimit (a : Fin 192)
  /-- FEEDBACK_LOST (R102). -/
  | feedbackLost (a : Fin 192)
  /-- LIVE_UPDATE_REQUEST (R107). -/
  | liveUpdateRequest (axis : BitVec 8) (course : BitVec 16)
  /-- LIVE_UPDATE_APPLY (R108). -/
  | liveUpdateApply
  /-- ENGINE_START (R122). -/
  | engineStart (n : Fin 12)
  /-- ENGINE_HALT_REQ (R122). -/
  | engineHaltReq (n : Fin 12)
  /-- NOP (R143). -/
  | leNop (n : Fin 12)
  /-- ADD (R143). -/
  | leAdd (n : Fin 12) (d : Fin 32) (a : Fin 32) (b : Fin 32)
  /-- SUB (R143). -/
  | leSub (n : Fin 12) (d : Fin 32) (a : Fin 32) (b : Fin 32)
  /-- AND (R143). -/
  | leAnd (n : Fin 12) (d : Fin 32) (a : Fin 32) (b : Fin 32)
  /-- OR (R143). -/
  | leOr (n : Fin 12) (d : Fin 32) (a : Fin 32) (b : Fin 32)
  /-- XOR (R143). -/
  | leXor (n : Fin 12) (d : Fin 32) (a : Fin 32) (b : Fin 32)
  /-- SLL (R143). -/
  | leSll (n : Fin 12) (d : Fin 32) (a : Fin 32) (b : Fin 32)
  /-- SRL (R143). -/
  | leSrl (n : Fin 12) (d : Fin 32) (a : Fin 32) (b : Fin 32)
  /-- SRA (R143). -/
  | leSra (n : Fin 12) (d : Fin 32) (a : Fin 32) (b : Fin 32)
  /-- ADDI (R143). -/
  | leAddi (n : Fin 12) (d : Fin 32) (a : Fin 32) (imm : BitVec 16)
  /-- LUI (R143). -/
  | leLui (n : Fin 12) (d : Fin 32) (imm : BitVec 16)
  /-- ORI (R143). -/
  | leOri (n : Fin 12) (d : Fin 32) (a : Fin 32) (imm : BitVec 16)
  /-- ADD64 (R143). -/
  | leAdd64 (n : Fin 12) (d : Fin 32) (a : Fin 32) (b : Fin 32)
  /-- SUB64 (R143). -/
  | leSub64 (n : Fin 12) (d : Fin 32) (a : Fin 32) (b : Fin 32)
  /-- SLT64 (R143). -/
  | leSlt64 (n : Fin 12) (d : Fin 32) (a : Fin 32) (b : Fin 32)
  /-- SLT (R143). -/
  | leSlt (n : Fin 12) (d : Fin 32) (a : Fin 32) (b : Fin 32)
  /-- FADD (R127). -/
  | leFadd (n : Fin 12) (d : Fin 32) (a : Fin 32) (b : Fin 32)
  /-- FSUB (R127). -/
  | leFsub (n : Fin 12) (d : Fin 32) (a : Fin 32) (b : Fin 32)
  /-- FMUL (R127). -/
  | leFmul (n : Fin 12) (d : Fin 32) (a : Fin 32) (b : Fin 32)
  /-- FDIV (R127). -/
  | leFdiv (n : Fin 12) (d : Fin 32) (a : Fin 32) (b : Fin 32)
  /-- FMIN (R127). -/
  | leFmin (n : Fin 12) (d : Fin 32) (a : Fin 32) (b : Fin 32)
  /-- FMAX (R127). -/
  | leFmax (n : Fin 12) (d : Fin 32) (a : Fin 32) (b : Fin 32)
  /-- FABS (R143). -/
  | leFabs (n : Fin 12) (d : Fin 32) (a : Fin 32)
  /-- FNEG (R143). -/
  | leFneg (n : Fin 12) (d : Fin 32) (a : Fin 32)
  /-- FCLT (R127). -/
  | leFclt (n : Fin 12) (d : Fin 32) (a : Fin 32) (b : Fin 32)
  /-- FCLAMP (R127). -/
  | leFclamp (n : Fin 12) (d : Fin 32) (a : Fin 32) (b : Fin 32) (c : Fin 32)
  /-- CVTIF (R143). -/
  | leCvtif (n : Fin 12) (d : Fin 32) (a : Fin 32)
  /-- CVTLF (R143). -/
  | leCvtlf (n : Fin 12) (d : Fin 32) (a : Fin 32)
  /-- CVTFL (R127). -/
  | leCvtfl (n : Fin 12) (d : Fin 32) (a : Fin 32)
  /-- FINITE (R143). -/
  | leFinite (n : Fin 12) (d : Fin 32) (a : Fin 32)
  /-- LCLR (R143). -/
  | leLclr (n : Fin 12) (i : Fin 4)
  /-- LMAC (R129). -/
  | leLmac (n : Fin 12) (i : Fin 4) (p : Fin 32) (q : Fin 32)
  /-- LMSU (R129). -/
  | leLmsu (n : Fin 12) (i : Fin 4) (p : Fin 32) (q : Fin 32)
  /-- LMAC2 (R129). -/
  | leLmac2 (n : Fin 12) (i : Fin 4) (p : Fin 32) (q : Fin 32) (x : Fin 32) (y : Fin 32)
  /-- LADD (R129). -/
  | leLadd (n : Fin 12) (i : Fin 4) (p : Fin 32)
  /-- LDOT (R143). -/
  | leLdot (n : Fin 12) (i : Fin 4) (x : Fin 8) (y : Fin 8) (c : Fin 32)
  /-- LRD (R131). -/
  | leLrd (n : Fin 12) (i : Fin 4) (p : Fin 32)
  /-- LRDQ (R131). -/
  | leLrdq (n : Fin 12) (i : Fin 4) (p : Fin 32)
  /-- LST (R132). -/
  | leLst (n : Fin 12) (i : Fin 4) (an : Fin 8) (pm : Bool) (ofs : BitVec 14)
  /-- LLD (R132). -/
  | leLld (n : Fin 12) (i : Fin 4) (an : Fin 8) (pm : Bool) (ofs : BitVec 14)
  /-- LDW (R136). -/
  | leLdw (n : Fin 12) (d : Fin 32) (an : Fin 8) (pm : Bool) (ofs : BitVec 14)
  /-- STW (R120). -/
  | leStw (n : Fin 12) (d : Fin 32) (an : Fin 8) (pm : Bool) (ofs : BitVec 14)
  /-- LDD (R136). -/
  | leLdd (n : Fin 12) (d : Fin 32) (an : Fin 8) (pm : Bool) (ofs : BitVec 14)
  /-- STD (R136). -/
  | leStd (n : Fin 12) (d : Fin 32) (an : Fin 8) (pm : Bool) (ofs : BitVec 14)
  /-- MVTA (R136). -/
  | leMvta (n : Fin 12) (cls : Fin 4) (i : Fin 8) (v : Fin 32)
  /-- MVFA (R135). -/
  | leMvfa (n : Fin 12) (cls : Fin 4) (i : Fin 8) (v : Fin 32)
  /-- ADDA (R135). -/
  | leAdda (n : Fin 12) (an : Fin 8) (imm : BitVec 16)
  /-- CBIND (R136). -/
  | leCbind (n : Fin 12) (an : Fin 8) (en : Bool) (k : Fin 8)
  /-- VMAX (R137). -/
  | leVmax (n : Fin 12) (d : Fin 32) (an : Fin 8) (c : Fin 32)
  /-- VMIN (R137). -/
  | leVmin (n : Fin 12) (d : Fin 32) (an : Fin 8) (c : Fin 32)
  /-- JAL (R143). -/
  | leJal (n : Fin 12) (d : Fin 32) (target : BitVec 16)
  /-- JR (R143). -/
  | leJr (n : Fin 12) (a : Fin 32)
  /-- BR (R144). -/
  | leBr (n : Fin 12) (cond : Fin 16) (r : Fin 32) (ofs : BitVec 17)
  /-- EVWAIT (R123). -/
  | leEvwait (n : Fin 12) (d : Fin 32)
  /-- HALT (R145). -/
  | leHalt (n : Fin 12)
  /-- DFOLD (R139). -/
  | leDfold (n : Fin 12) (a : Fin 32)
  /-- CMDC (R125). -/
  | leCmdc (n : Fin 12)
  /-- RDFLG (R145). -/
  | leRdflg (n : Fin 12) (d : Fin 32)
  /-- CLRF (R145). -/
  | leClrf (n : Fin 12) (a : Fin 32)
  /-- RDCYC (R145). -/
  | leRdcyc (n : Fin 12) (d : Fin 32)
  /-- RDCRS (R145). -/
  | leRdcrs (n : Fin 12) (d : Fin 32)
  /-- ILLEGAL_INSTRUCTION (R146). -/
  | illegalInstruction (n : Fin 12) (w : Word)
  /-- INDEX_UPDATE (R155). -/
  | indexUpdate (n : Fin 48)
  /-- STEP_PULSE (R157). -/
  | stepPulse (n : Fin 48)
  /-- BLANKING_END (R160). -/
  | blankingEnd (n : Fin 48) (b : Bool) (beat : Bool)
  /-- COMPARATOR_TRIP (R160). -/
  | comparatorTrip (n : Fin 48) (b : Bool) (ton : Nat)
  /-- ON_TIME_MAX (R160). -/
  | onTimeMax (n : Fin 48) (b : Bool)
  /-- FAST_DECAY_END (R160). -/
  | fastDecayEnd (n : Fin 48) (b : Bool)
  /-- SLOW_DECAY_MIDPOINT (R167). -/
  | slowDecayMidpoint (n : Fin 48) (b : Bool) (beat : Bool)
  /-- OFF_TIME_END (R160). -/
  | offTimeEnd (n : Fin 48) (b : Bool)
  /-- BRIDGE_FAULT_RETRY_END (R167). -/
  | bridgeFaultRetryEnd (n : Fin 48) (b : Bool)
  /-- ADC_CONVERSION (R162). -/
  | adcConversion (n : Fin 48) (b : Bool) (code : BitVec 12) (t : Nat)
  /-- HOLD_DELAY_EXPIRE (R159). -/
  | holdDelayExpire (n : Fin 48)
  /-- EXTERNAL_DRIVE_FAULT (R157). -/
  | externalDriveFault (n : DrivePin)
  /-- ENCODER_EDGE (R163). -/
  | encoderEdge (n : Fin 48) (a : Bool) (b : Bool)
  /-- STALL (R164). -/
  | stall (n : Fin 48)
  /-- CAL_GO (R168). -/
  | calGo (n : Fin 48)
  /-- CALIBRATION_END (R168). -/
  | calibrationEnd (n : Fin 48) (ca : Int) (cb : Int) (aa : Int) (ab : Int)
  /-- FEEDBACK (R187). -/
  | feedback (c : Copy)
  /-- REFERENCE (R196). -/
  | reference (c : Copy)
  /-- IO_IN (R229). -/
  | ioIn (c : Copy)
  /-- SAFETY (R281). -/
  | safety (c : Copy)
  /-- JOIN (R210). -/
  | join (c : Copy)
  /-- FILL (R183). -/
  | fill (c : Copy)
  /-- MGMT_STATUS (R190). -/
  | mgmtStatus (c : Copy)
  /-- TABLE_ACK (R210). -/
  | tableAck (c : Copy)
  /-- MGMT_NONE (R190). -/
  | mgmtNone (c : Copy)
  /-- MGMT_SERVICE_DATA (R190). -/
  | mgmtServiceData (c : Copy)
  /-- MGMT_REFUSED_OPCODE (R190). -/
  | mgmtRefusedOpcode (c : Copy)
  /-- BRICK_FORWARD (R174). -/
  | brickForward (c : Copy)
  /-- BRICK_ENTRY_DUE (R205). -/
  | brickEntryDue (k : Fin 4) (i : Fin 1024) (ofs : Int)
  /-- IO_OUT_SNAPSHOT (R230). -/
  | ioOutSnapshot (k : Fin 4) (i : Fin 1024)
  /-- MG_TX_GO (R217). -/
  | mgTxGo (k : Fin 4) (dest : BitVec 6) (op : BitVec 8) (len : BitVec 6)
  /-- MG_RX_RELEASE (R217). -/
  | mgRxRelease (k : Fin 4)
  /-- BRICK_LOST (R207). -/
  | brickLost (k : Fin 4) (i : Fin 1024)
  /-- LT_REQUEST_SEND (R197). -/
  | ltRequestSend (l : Lnk) (t1 : Nat)
  /-- LT_REQUEST (R197). -/
  | ltRequest (l : Lnk) (seq : BitVec 16) (t2 : Nat)
  /-- LT_RESPONSE (R197). -/
  | ltResponse (l : Lnk) (seq : BitVec 16) (value : BitVec 32) (t4 : Nat)
  /-- LINK_DOWN (R212). -/
  | linkDown (l : LinkLoss)
  /-- LINK_SYNC (R213). -/
  | linkSync (l : Lnk)
  /-- FORWARDING_RESUME (R213). -/
  | forwardingResume (l : Lnk)
  /-- STARTUP_LISTEN_PERIOD (R202). -/
  | startupListenPeriod
  /-- RING_INSERT (R180). -/
  | ringInsert (k : Fin 4)
  /-- INSERT_QUIET_END (R180). -/
  | insertQuietEnd
  /-- ENROL_PHASE_END (R209). -/
  | enrolPhaseEnd
  /-- CLAIM_TIMEOUT (R211). -/
  | claimTimeout (k : Fin 4) (a : Fin 64)
  /-- POINT_WRITE (R232). -/
  | pointWrite (q : Req) (p : Fin 262144) (v : BitVec 32)
  /-- POINT_VALUE_READ (R233). -/
  | pointValueRead (q : Req) (p : Fin 262144)
  /-- POINT_STATUS_READ (R233). -/
  | pointStatusRead (q : Req) (p : Fin 262144)
  /-- OUTPUT_RESYNC_PASS (R235). -/
  | outputResyncPass (recs : List OutRec) (last : Bool)
  /-- ARM (R250). -/
  | arm (m : Fin 8)
  /-- CAPTURE_ABORT (R259). -/
  | captureAbort (m : Fin 8)
  /-- FORCE (R251). -/
  | force (m : Fin 8)
  /-- CAPTURE_ROW (R246). -/
  | captureRow (m : Fin 8)
  /-- TRIG_IN_EDGE (R253). -/
  | trigInEdge (m : Fin 4) (high : Bool) (t : Nat)
  /-- TRIG_OUT_PULSE_END (R262). -/
  | trigOutPulseEnd (m : Fin 4) (t : Nat)
  /-- SAFETY_CYCLE_START (R270). -/
  | safetyCycleStart
  /-- VECTOR_COMPARE (R271). -/
  | vectorCompare (equal : Bool) (late : Bool)
  /-- SI_SAMPLE (R273). -/
  | siSample (raw : BitVec 32) (tp : BitVec 8)
  /-- TEST_PULSE_START (R272). -/
  | testPulseStart (j : Fin 8)
  /-- TEST_PULSE_END (R274). -/
  | testPulseEnd (j : Fin 8)
  /-- SOFB_SAMPLE (R275). -/
  | sofbSample (fb : BitVec 16) (sense : BitVec 20) (kf : BitVec 4)
  /-- OUTPUT_TEST_PULSE_START (R276). -/
  | outputTestPulseStart (n : Fin 20)
  /-- OUTPUT_TEST_PULSE_END (R276). -/
  | outputTestPulseEnd (n : Fin 20)
  /-- OUTPUT_TEST_REPEAT (R276). -/
  | outputTestRepeat (n : Fin 20) (readsOff : Bool)
  /-- KF_CHECK_TIMEOUT (R279). -/
  | kfCheckTimeout (j : Fin 4)
  /-- CONNECTION_WATCHDOG_EXPIRE (R281). -/
  | connectionWatchdogExpire (c : Fin 64)
  /-- ISLAND_CLOCK_CHECK (R269). -/
  | islandClockCheck (ppm : Int)
  /-- SS1_STO_INSTANT (R285). -/
  | ss1StoInstant (c : Fin 64)
  /-- LOGIC_TIMER_EXPIRE (R287). -/
  | logicTimerExpire
  /-- SBC_FAULT (R287). -/
  | sbcFault (c : Fin 64)
  /-- ISLAND_START (R294). -/
  | islandStart (test : IslTest)
  /-- ACK (R296). -/
  | ack
  /-- RESTART (R296). -/
  | restart
  /-- NSREQ (R296). -/
  | nsreq (arg : BitVec 8)
  /-- RENEW (R304). -/
  | renew (f : MtrFrm) (epoch : Nat) (course : Nat) (granted : Nat)
  /-- JOURNAL (R320). -/
  | journal (f : MtrFrm) (i : Fin 256) (e : JEnt)
  /-- JACK (R320). -/
  | jack (f : MtrFrm) (i : Fin 256)
  /-- SAFETY_FRAME (R291). -/
  | safetyFrame (f : MtrFrm) (cycle : Nat) (words : List Nat)
  /-- DIGEST (R313). -/
  | digest (f : MtrFrm) (course : Nat) (d : List (Nat × Bool))
  /-- COPY (R312). -/
  | copy (f : MtrFrm) (c : StateCopy)
  /-- WEATHER (R316). -/
  | weather (f : MtrFrm) (w : Weather)
  /-- BULK (R315). -/
  | bulk (f : MtrFrm) (b : Bulk)
  /-- HELLO (R301). -/
  | hello (f : MtrFrm) (h : Hello)
  /-- HANDOVER_FRAME (R318). -/
  | handoverFrame (f : MtrFrm) (course : Nat)
  /-- FRAME_ACK_TIMEOUT (R303). -/
  | frameAckTimeout (seq : BitVec 16) (copy : Bool) (ok : Bool)
  /-- MORTAR_LINK_DOWN (R303). -/
  | mortarLinkDown
  /-- WEATHER_SEND (R316). -/
  | weatherSend
  /-- WEATHER_TIMEOUT (R316). -/
  | weatherTimeout
  /-- FENCE_EXPIRE (R305). -/
  | fenceExpire
  /-- LEASE_CHECK (R306). -/
  | leaseCheck
  /-- CLAIM_PROBE (R306). -/
  | claimProbe
  /-- CLAIM_CONFIRM (R306). -/
  | claimConfirm
  /-- PEER_ACT_RISE (R308). -/
  | peerActRise
  /-- QUICK_SELF_TEST_END (R314). -/
  | quickSelfTestEnd (own : Bool) (peer : Bool)
  /-- HANDOVER_REQUEST (R318). -/
  | handoverRequest
  /-- JNL_TAKE (R323). -/
  | jnlTake
  /-- JNL_DONE (R324). -/
  | jnlDone (i : BitVec 8) (len : BitVec 9)
  /-- CLIENT_SLOT_EXPIRE (R322). -/
  | clientSlotExpire (k : Fin 16)
  /-- COMMAND (R334). -/
  | command (u : Udp)
  /-- SERVICE (R337). -/
  | service (u : Udp)
  /-- FWQ_TX_SUBMIT (R337). -/
  | fwqTxSubmit (head : BitVec 4)
  /-- TIME_RESTEP (R345). -/
  | timeRestep
  /-- HANDOVER (R336). -/
  | handover
  /-- SCHED_SWITCH (R336). -/
  | schedSwitch
  /-- SAFE_HOLD_ENTER (R7). -/
  | safeHoldEnter
  /-- SAFE_HOLD_LEAVE (R7). -/
  | safeHoldLeave
  /-- HOST_LINK_CHANGE (R328). -/
  | hostLinkChange (sync : Bool) (gig : Bool)
  /-- PHY_POLL (R328). -/
  | phyPoll (status : BitVec 16) (gig : Bool)
  /-- MDIO_WRITE (R328). -/
  | mdioWrite (phy : BitVec 5) (reg : BitVec 5) (data : BitVec 16)
  /-- MDIO_READ (R328). -/
  | mdioRead (phy : BitVec 5) (reg : BitVec 5)
  /-- MDIO_COMPLETE (R328). -/
  | mdioComplete (v : BitVec 16)
  /-- ARP_REQUEST (R329). -/
  | arpRequest (target : BitVec 32) (ip : BitVec 32) (mac : BitVec 48)
  /-- ARP_REPLY (R329). -/
  | arpReply (ip : BitVec 32) (mac : BitVec 48)
  /-- ARP_CACHE_EXPIRE (R329). -/
  | arpCacheExpire (ip : BitVec 32)
  /-- ARP_RESOLVE_TIMEOUT (R329). -/
  | arpResolveTimeout (ip : BitVec 32)
  /-- ICMP_ECHO_REQUEST (R329). -/
  | icmpEchoRequest (ip : BitVec 32) (d : List (BitVec 8))
  /-- SYNC (R342). -/
  | sync (p : Ptp) (t1 : Int) (two : Bool)
  /-- FOLLOW_UP (R340). -/
  | followUp (p : Ptp) (t1 : Int)
  /-- DELAY_REQ (R340). -/
  | delayReq (raw : Int)
  /-- DELAY_RESP (R342). -/
  | delayResp (p : Ptp) (t4 : Int)
  /-- ANNOUNCE (R340). -/
  | announce (p : Ptp) (a : Ann)
  /-- SYNC_TIMEOUT (R344). -/
  | syncTimeout
  /-- ANNOUNCE_TIMEOUT (R344). -/
  | announceTimeout
  /-- MARK (R350). -/
  | mark (f : CFrm) (m : Mark)
  /-- MARK_MISSING (R350). -/
  | markMissing
  /-- CASCADE_INSERT (R350). -/
  | cascadeInsert
  /-- SETP (R353). -/
  | setp (f : CFrm) (p : List (BitVec 8))
  /-- MSG (R355). -/
  | msg (f : CFrm) (b : List (BitVec 8))
  /-- TRIG (R354). -/
  | trig (f : CFrm) (t : Nat) (sender : Fin 64) (set_ : Fin 8)
  /-- CASCADE_STATUS (R356). -/
  | cascadeStatus (f : CFrm) (flags : BitVec 8) (epoch : BitVec 16)
  /-- PLAN (R352). -/
  | plan (f : CFrm) (plan : List (BitVec 32))
  /-- POSITION_PRESENCE_EXPIRE (R356). -/
  | positionPresenceExpire (p : Fin 64)
  /-- ENUM (R359). -/
  | enum (n : BitVec 5)
  /-- IMAGE (R359). -/
  | image (p : Fin 16) (block : Nat) (d : List (BitVec 8)) (ack : Bool) (crcOk : Bool)
  /-- EXTEST (R360). -/
  | extest (v : Scan)
  /-- IDCODE (R360). -/
  | idcode
  /-- SAMPLE_PRELOAD (R360). -/
  | samplePreload (pins : Nat) (v : Nat)
  /-- HIGHZ (R360). -/
  | highz
  /-- CLAMP (R360). -/
  | clamp
  /-- BYPASS (R360). -/
  | bypass (code : BitVec 8)
  /-- CORE_INSTRUCTION (R364). -/
  | coreInstruction (q : CoreTurn)
  /-- FENCE_I (R366). -/
  | fenceI (n : Fin 4)
  /-- LR_W (R367). -/
  | lrW (n : Fin 4)
  /-- SC_W (R367). -/
  | scW (n : Fin 4)
  /-- AMO (R367). -/
  | amo (n : Fin 4)
  /-- WFI (R371). -/
  | wfi (n : Fin 4)
  /-- TIMER_COMPARE_MATCH (R372). -/
  | timerCompareMatch (n : Fin 4)
  /-- TCMP_HI_WRITE (R372). -/
  | tcmpHiWrite (n : Fin 4) (v : BitVec 32)
  /-- EXTERNAL_INTERRUPT (R372). -/
  | externalInterrupt (n : Fin 4) (src : Fin 15)
  /-- CORE_RELEASE (R370). -/
  | coreRelease (n : Fin 4)
  /-- MAKE_READY (R374). -/
  | makeReady (n : Fin 4) (t : BitVec 8) (beat : Bool)
  /-- BLOCK (R374). -/
  | block (n : Fin 4) (t : BitVec 8) (beat : Bool)
  /-- CANCEL (R374). -/
  | cancel (n : Fin 4) (t : BitVec 8)
  /-- YIELD (R374). -/
  | yield (n : Fin 4)
  /-- CONTEXT_SWITCH (R375). -/
  | contextSwitch (n : Fin 4)
  /-- DMA_START (R383). -/
  | dmaStart (n : Fin 32)
  /-- DMA_REQUEST (R383). -/
  | dmaRequest (q : Fin 9)
  /-- DESCRIPTOR_COMPLETE (R381). -/
  | descriptorComplete (n : Fin 32)
  /-- DMA_BUS_ERROR (R384). -/
  | dmaBusError (n : Fin 32) (k : DErr) (addr : BitVec 32) (again : Bool) (written : Nat) (last : Bool)
  /-- DMA_ABORT (R385). -/
  | dmaAbort (n : Fin 32) (written : Nat) (tie : Bool)
  /-- RECOVER (R384). -/
  | recover
  /-- OSCILLATOR_STABLE (R389). -/
  | oscillatorStable (lsx : Bool) (ratio : BitVec 32)
  /-- OSCILLATOR_TIMEOUT (R389). -/
  | oscillatorTimeout (lsx : Bool)
  /-- CLOCK_MONITOR_WINDOW (R390). -/
  | clockMonitorWindow (hsx : Int) (irc : Option Int) (lsx : Int) (lrc : Int) (stopped : BitVec 2)
  /-- RATIO_RELEARN (R390). -/
  | ratioRelearn (ratio : BitVec 32)
  /-- MUX_FORCE (R392). -/
  | muxForce
  /-- CLOCK_GATE_WRITE (R394). -/
  | clockGateWrite (v : BitVec 18) (busy : BitVec 18)
  /-- GATE_CLOSE_DEFERRED (R394). -/
  | gateCloseDeferred (i : Fin 18)
  /-- DOMAIN_REQUEST (R396). -/
  | domainRequest (v : BitVec 12)
  /-- DOMAIN_POWER_UP (R396). -/
  | domainPowerUp (d : Fin 12) (pass : Bool)
  /-- POWER_ON (R395). -/
  | powerOn (memberB : Bool) (root : Bool)
  /-- VSUP_LOW (R395). -/
  | vsupLow (mv : BitVec 16)
  /-- VSUP_FAIL (R395). -/
  | vsupFail
  /-- OVERTEMP (R395). -/
  | overtemp (tj : BitVec 16)
  /-- GO_RUN (R397). -/
  | goRun
  /-- GO_STANDBY (R397). -/
  | goStandby
  /-- GO_WATCH (R397). -/
  | goWatch
  /-- WAKE (R397). -/
  | wake (kind : Fin 4)
  /-- PIN_RESET (R400). -/
  | pinReset
  /-- RESET_HELD_LONG (R400). -/
  | resetHeldLong
  /-- SOFTWARE_RESET (R398). -/
  | softwareReset
  /-- RESET_ENTRY (R399). -/
  | resetEntry (c : RstCause)
  /-- RESET_RELEASE (R403). -/
  | resetRelease (hold : Nat) (memberB : Bool) (root : Bool)
  /-- WATCHDOG_FEED (R402). -/
  | watchdogFeed (v : BitVec 8)
  /-- WATCHDOG_EXPIRE (R402). -/
  | watchdogExpire
  /-- ROUND (R406). -/
  | round
  /-- QUICK (R314). -/
  | quick
  /-- SELF_TEST_ROUND_START (R406). -/
  | selfTestRoundStart
  /-- ROUND_DEADLINE (R407). -/
  | roundDeadline (quick : Bool)
  /-- SCRUB_READ (R405). -/
  | scrubRead (m : Fin 9) (addr : BitVec 32) (r : EccRes)
  /-- SFDP_TIMEOUT (R358). -/
  | sfdpTimeout
  /-- SECTION_LOAD (R421). -/
  | sectionLoad (nvm : NvmInfo) (a : HdrRead) (b : HdrRead) (x : SecRead)
  /-- BOOT_COMPLETE (R403). -/
  | bootComplete (digest : List (BitVec 32)) (digestOk : Bool) (keyOk : Bool) (sigOk : Bool) (selfTest : Bool) (cals : List (CalRun × CalRun))
  /-- NVM_READ (R423). -/
  | nvmRead (addr : BitVec 27) (len : BitVec 9)
  /-- NVM_PROGRAM (R423). -/
  | nvmProgram (addr : BitVec 27) (len : BitVec 9)
  /-- ERASE_4K (R423). -/
  | erase4k (addr : BitVec 27)
  /-- ERASE_64K (R423). -/
  | erase64k (addr : BitVec 27)
  /-- NVM_OP_COMPLETE (R423). -/
  | nvmOpComplete (d : List (BitVec 8)) (ok1 : Bool) (ok2 : Bool)
  /-- FUSE_PROGRAM (R419). -/
  | fuseProgram (w : BitVec 4)
  /-- GPIO_SET (R431). -/
  | gpioSet (v : BitVec 32)
  /-- GPIO_CLR (R431). -/
  | gpioClr (v : BitVec 32)
  /-- GPIO_EDGE (R431). -/
  | gpioEdge (n : Fin 32) (level : Bool)
  /-- SFP_LOS (R430). -/
  | sfpLos (l : Lnk)
  /-- PEER_ACT_FALL (R152). -/
  | peerActFall
  /-- HEAD_BRICK (R214). -/
  | headBrick (c : Copy)
  /-- OWN_BRICK_RETURN (R174). -/
  | ownBrickReturn (c : Copy)
  /-- PLANNED_FRAME_DUE (R349). -/
  | plannedFrameDue (setp : Bool)
  /-- HALF_EVENT (R382). -/
  | halfEvent (n : Fin 32)
  deriving DecidableEq, Repr

end Sys2Proof
end

