-- ==== Sys2Proof/Decode.lean ====
section
/-! DEFINITION. The commands that the table's bits spell: none, since no row of spec/opcode_table.json gives bits. The encoding of the loop-engine instructions stands in Machine/LeCode.lean, that of the cores' in Machine/RvDecode.lean. -/
namespace Sys2Proof

/-- The command that a word spells by the table's bits. The table gives no row any bits. -/
def decodeTableWord (nbits w : Nat) : Option Instr :=
  match nbits, w with
  | _, _ => none

end Sys2Proof
end

