-- ==== Sys2Proof/Config.lean ====
section
/-! DEFINITION. The free values: what the spec leaves open, as constants without a body. Nothing in Lean can evaluate one, so a statement about one holds for every value. -/
namespace Sys2Proof.Config

/-- A value the spec leaves open, drawn at the count of draws so far (State.free). DESIGN CHOICE, log entry 2. -/
opaque freeNat : Nat → Nat

/-- Whether FCLT on a quiet NaN operand counts as an invalid operation (R127 leaves the comparison predicate of IEEE 754 open). Log entry 2. -/
opaque fcltQuietInvalid : Bool

/-- The velocity that R85 and R88 form of a position difference over a time of 0, a quotient that does not exist. Log entry 2. -/
opaque rateZero : Int → Nat

/-- The contents of the boot ROM, which the spec does not give. Log entry 20. -/
opaque romByte : Nat → Nat

/-- How long after its start, in ns, the SETP frame of a cascade position reaches this stop: the link delays and residence times between them, which no register holds. Log entry 96. -/
opaque casHop : Nat → Nat

/-- The cells of the boundary register that belong to pins which EXTEST only observes (R360), as a mask: the spec gives the register's cells no order. Log entry 97. -/
opaque bscanObserve : Nat

end Sys2Proof.Config
end

