-- ==== Sys2Proof/Machine/Num.lean ====
section
/-! DEFINITION. Number helpers: bit fields, two's complement (R10), exact rounding, square roots to a fixed precision, and FP32 with subnormals as IEEE 754 binary32. The loop engine's own variant, which flushes subnormals, stands in Machine/LeFloat.lean. -/
namespace Sys2Proof.Machine

/-- Bits `[lo+w-1 : lo]` of `v`. -/
def bits (v lo w : Nat) : Nat := v / 2 ^ lo % 2 ^ w

/-- Bit `i` of `v`. -/
def bit (v i : Nat) : Bool := v / 2 ^ i % 2 == 1

/-- `v` with bits `[lo+w-1 : lo]` replaced by the low `w` bits of `x`. -/
def setBits (v lo w x : Nat) : Nat :=
  v % 2 ^ lo + x % 2 ^ w * 2 ^ lo + v / 2 ^ (lo + w) * 2 ^ (lo + w)

/-- `v` with bit `i` set or cleared. -/
def setBit (v i : Nat) (b : Bool) : Nat := setBits v i 1 (if b then 1 else 0)

/-- 1 for true. -/
def b2n (b : Bool) : Nat := if b then 1 else 0

/-- The two's complement value of the low `w` bits of `v` (R10). -/
def sx (w v : Nat) : Int :=
  if v % 2 ^ w < 2 ^ (w - 1) then (v % 2 ^ w : Nat) else ((v % 2 ^ w : Nat) : Int) - (2 ^ w : Nat)

/-- The low `w` bits of an integer, as a number (R10). -/
def ux (w : Nat) (i : Int) : Nat := (i % ((2 ^ w : Nat) : Int)).toNat

/-- `n / d` rounded up. -/
def ceilDiv (n d : Nat) : Nat := (n + d - 1) / d

/-- `n / d` rounded to nearest, ties to even. -/
def rneNat (n d : Nat) : Nat :=
  let q := n / d
  let r := n % d
  if 2 * r < d then q else if d < 2 * r then q + 1 else if q % 2 = 0 then q else q + 1

/-- A rational rounded to the nearest integer, ties to even. -/
def rne (q : Rat) : Int :=
  if q.num < 0 then -((rneNat q.num.natAbs q.den : Nat) : Int) else ((rneNat q.num.natAbs q.den : Nat) : Int)

/-- A rational rounded to the nearest integer, halves away from zero (R71). -/
def rha (q : Rat) : Int :=
  let m : Nat := (2 * q.num.natAbs + q.den) / (2 * q.den)
  if q.num < 0 then -(m : Int) else (m : Int)

/-- The absolute value of a rational. -/
def absR (q : Rat) : Rat := if q < 0 then -q else q

/-- The sign of a rational as -1, 0 or 1. -/
def sgnR (q : Rat) : Rat := if q < 0 then -1 else if q = 0 then 0 else 1

/-- A rational cut to a 32-bit fraction, the planner's own precision of a position (R40). -/
def cut32 (q : Rat) : Rat := ((q * 4294967296).floor : Rat) / 4294967296

/-- Bitwise integer square root: `k` bits still to try. -/
def isqrtGo : Nat → Nat → Nat → Nat
  | 0, r, _ => r
  | k + 1, r, n => if (r + 2 ^ k) * (r + 2 ^ k) ≤ n then isqrtGo k (r + 2 ^ k) n else isqrtGo k r n

/-- The integer square root. -/
def isqrt (n : Nat) : Nat := isqrtGo (n.log2 / 2 + 1) 0 n

/-- The square root of a non-negative rational, cut to a 32-bit fraction. -/
def sqrtR (q : Rat) : Rat :=
  if q ≤ 0 then 0
  else (isqrt (q.num.natAbs * 18446744073709551616 / q.den) : Rat) / 4294967296

/-! FP32 values are held as their 32-bit patterns. -/

/-- The exponent field. -/
def f32Exp (x : Nat) : Nat := bits x 23 8

/-- The fraction field. -/
def f32Frac (x : Nat) : Nat := bits x 0 23

/-- The sign bit. -/
def f32Neg (x : Nat) : Bool := bit x 31

/-- Neither infinite nor a NaN. -/
def f32Fin (x : Nat) : Bool := f32Exp x != 255

/-- A NaN. -/
def f32NaN (x : Nat) : Bool := f32Exp x == 255 && f32Frac x != 0

/-- An infinity. -/
def f32Inf (x : Nat) : Bool := f32Exp x == 255 && f32Frac x == 0

/-- A zero of either sign. -/
def f32Zero (x : Nat) : Bool := bits x 0 31 == 0

/-- A finite value times 2^149, an integer. -/
def f32Int (x : Nat) : Int :=
  let m : Nat := if f32Exp x = 0 then f32Frac x else (f32Frac x + 2 ^ 23) * 2 ^ (f32Exp x - 1)
  if f32Neg x then -(m : Int) else (m : Int)

/-- The exact value of a finite pattern. -/
def f32Rat (x : Nat) : Rat := (f32Int x : Rat) / ((2 ^ 149 : Nat) : Rat)

/-- The pattern of a magnitude `n / d`, rounded to nearest even on the grid of binary32, subnormals included, with overflow to infinity. Scaled by 2^149 the subnormal step is 1, and a pattern is its exponent step times 2^23 plus the rounded significand. -/
def f32Mag (n d : Nat) : Nat :=
  let e := (n * 2 ^ 149 / d).log2
  let sh := if 24 ≤ e then e - 23 else 0
  let p := sh * 2 ^ 23 + rneNat (n * 2 ^ 149) (d * 2 ^ sh)
  if 0x7F800000 ≤ p then 0x7F800000 else p

/-- The FP32 pattern nearest a rational, ties to even; zero gives +0. -/
def f32OfRat (q : Rat) : Nat :=
  f32Mag q.num.natAbs q.den + (if q.num < 0 then 2 ^ 31 else 0)

/-- The FP32 pattern nearest an integer, ties to even. -/
def f32OfInt (i : Int) : Nat := f32OfRat (i : Rat)

end Sys2Proof.Machine
end

