-- ==== Sys2Proof/Machine/Regs.lean ====
section
/-! DEFINITION. The register fields of the 23 register blocks, one definition per field of the spec's register tables (R2, R35, R82, R112, R148, R169, R170, R216, R217, R239, R263 to R265, R296, R327, R361 to R363, R386, R387, R408 to R410, R425, R429, R431): address, lowest bit, width, access code (R13), reset value (R15, R426), whether it is retained, and the image section that loads it. Reserved bits are no field: they read 0 and ignore writes (R11). A family of registers takes its index. -/
namespace Sys2Proof.Machine.R

/-! Fields of the registers of spec/00_scope.md. -/
def SYS_ID_DEVICE : Fld := ⟨0x80000000, 0, 32, .ro, 0x4F580192, false, none⟩
def SYS_REV_MAJOR : Fld := ⟨0x80000004, 16, 16, .ro, 0x1, false, none⟩
def SYS_REV_MINOR : Fld := ⟨0x80000004, 0, 16, .ro, 0x1, false, none⟩

/-! Fields of the registers of spec/01_course.md. -/
def BOND_CRS_CTRL_SCHED_NEXT : Fld := ⟨0x80030000, 0, 2, .rw, 0x0, false, none⟩
def BOND_CRS_CTRL_SW_GO : Fld := ⟨0x80030000, 4, 1, .w1s, 0x0, false, none⟩
def BOND_CRS_STAT_SCHED_CUR : Fld := ⟨0x80030004, 0, 2, .ro, 0x0, false, none⟩
def BOND_CRS_STAT_SW_LEFT : Fld := ⟨0x80030004, 4, 5, .ro, 0x0, false, none⟩
def BOND_CRS_STAT_SW_ERR : Fld := ⟨0x80030004, 9, 1, .w1c, 0x0, false, none⟩
def BOND_CRS_STAT_PF_LATE : Fld := ⟨0x80030004, 10, 1, .w1c, 0x0, false, none⟩
def BOND_CRS_STAT_LOOP_LATE : Fld := ⟨0x80030004, 11, 1, .w1c, 0x0, false, none⟩
def BOND_CRS_STAT_SCHED_MISSING : Fld := ⟨0x80030004, 12, 1, .w1c, 0x0, false, none⟩
def BOND_CRS_CNT_LO_CNT_LO : Fld := ⟨0x80030008, 0, 32, .ro, 0x0, false, none⟩
def BOND_CRS_CNT_HI_CNT_HI : Fld := ⟨0x8003000C, 0, 32, .ro, 0x0, false, none⟩
def BOND_CRS_PERIOD_PERIOD_NS : Fld := ⟨0x80030010, 0, 20, .ro, 0x0, false, (some .rings)⟩
def BOND_CRS_TS_TS_NS : Fld := ⟨0x80030014, 0, 20, .ro, 0x0, false, (some .rings)⟩
def BOND_CRS_TA_TA_NS : Fld := ⟨0x80030018, 0, 20, .ro, 0x0, false, (some .rings)⟩
def BOND_LOOP_LATE_CNT_COUNT : Fld := ⟨0x8003001C, 0, 16, .rc, 0x0, false, none⟩
def BOND_PF_LATE_CNT_COUNT : Fld := ⟨0x80030020, 0, 16, .rc, 0x0, false, none⟩

/-! Fields of the registers of spec/02_axes_and_motion.md. -/
def PF_STAT_RUNNING : Fld := ⟨0x80080000, 0, 1, .ro, 0x0, false, none⟩
def PF_STAT_PORT_ERR : Fld := ⟨0x80080000, 1, 1, .w1c, 0x0, false, none⟩
def PF_IRQ_EN_DONE_IE : Fld := ⟨0x80080004, 0, 1, .rw, 0x0, false, none⟩
def PF_IRQ_EN_FAULT_IE : Fld := ⟨0x80080004, 1, 1, .rw, 0x0, false, none⟩
def PF_IRQ_EN_CMD_IE : Fld := ⟨0x80080004, 2, 1, .rw, 0x0, false, none⟩
def PF_CMD_OP_OPCODE (k : Nat) : Fld := ⟨0x80080010 + 0x10 * k, 0, 8, .rw, 0x0, false, none⟩
def PF_CMD_OP_TARGET (k : Nat) : Fld := ⟨0x80080010 + 0x10 * k, 8, 8, .rw, 0x0, false, none⟩
def PF_CMD_OP_IS_GROUP (k : Nat) : Fld := ⟨0x80080010 + 0x10 * k, 16, 1, .rw, 0x0, false, none⟩
def PF_CMD_OP_GO (k : Nat) : Fld := ⟨0x80080010 + 0x10 * k, 31, 1, .w1s, 0x0, false, none⟩
def PF_CMD_ARG0_ARG0 (k : Nat) : Fld := ⟨0x80080014 + 0x10 * k, 0, 32, .rw, 0x0, false, none⟩
def PF_CMD_ARG1_ARG1 (k : Nat) : Fld := ⟨0x80080018 + 0x10 * k, 0, 32, .rw, 0x0, false, none⟩
def PF_CMD_STAT_RESULT (k : Nat) : Fld := ⟨0x8008001C + 0x10 * k, 0, 8, .ro, 0x0, false, none⟩
def PF_CMD_STAT_COURSE (k : Nat) : Fld := ⟨0x8008001C + 0x10 * k, 16, 16, .ro, 0x0, false, none⟩
def PF_DONE_DONE (k : Nat) : Fld := ⟨0x80080080 + 0x4 * k, 0, 32, .w1c, 0x0, false, none⟩
def PF_FAULT_FAULT (k : Nat) : Fld := ⟨0x800800A0 + 0x4 * k, 0, 32, .w1c, 0x0, false, none⟩
def PF_GRP_DONE_GRP_DONE : Fld := ⟨0x800800C0, 0, 32, .w1c, 0x0, false, none⟩

/-! Fields of the registers of spec/03_control_loops.md. -/
def LE_AXMAP_ENGINE_0 (k : Nat) : Fld := ⟨0x80091000 + 0x4 * k, 0, 4, .ro, 0x0, false, (some .axes)⟩
def LE_AXMAP_ENGINE_1 (k : Nat) : Fld := ⟨0x80091000 + 0x4 * k, 8, 4, .ro, 0x0, false, (some .axes)⟩
def LE_AXMAP_ENGINE_2 (k : Nat) : Fld := ⟨0x80091000 + 0x4 * k, 16, 4, .ro, 0x0, false, (some .axes)⟩
def LE_AXMAP_ENGINE_3 (k : Nat) : Fld := ⟨0x80091000 + 0x4 * k, 24, 4, .ro, 0x0, false, (some .axes)⟩
def LE_AXMAP_ASSIGNED_0 (k : Nat) : Fld := ⟨0x80091000 + 0x4 * k, 7, 1, .ro, 0x0, false, (some .axes)⟩
def LE_AXMAP_ASSIGNED_1 (k : Nat) : Fld := ⟨0x80091000 + 0x4 * k, 15, 1, .ro, 0x0, false, (some .axes)⟩
def LE_AXMAP_ASSIGNED_2 (k : Nat) : Fld := ⟨0x80091000 + 0x4 * k, 23, 1, .ro, 0x0, false, (some .axes)⟩
def LE_AXMAP_ASSIGNED_3 (k : Nat) : Fld := ⟨0x80091000 + 0x4 * k, 31, 1, .ro, 0x0, false, (some .axes)⟩
def LE_UPD_CTRL_AXIS : Fld := ⟨0x800910C0, 0, 8, .rw, 0x0, false, none⟩
def LE_UPD_CTRL_COURSE : Fld := ⟨0x800910C0, 8, 16, .rw, 0x0, false, none⟩
def LE_UPD_CTRL_GO : Fld := ⟨0x800910C0, 31, 1, .w1s, 0x0, false, none⟩
def LE_UPD_STAT_RESULT : Fld := ⟨0x800910C4, 0, 8, .ro, 0x0, false, none⟩
def LE_UPD_STAT_UPD_ERR : Fld := ⟨0x800910C4, 8, 1, .w1c, 0x0, false, none⟩
def LE_UPD_STAT_COURSE : Fld := ⟨0x800910C4, 16, 16, .ro, 0x0, false, none⟩
def LE_LOOPFLT_LOOPFLT (k : Nat) : Fld := ⟨0x800910D0 + 0x4 * k, 0, 32, .w1c, 0x0, false, none⟩
def LE_NONFIN_CNT_COUNT : Fld := ⟨0x800910E8, 0, 16, .rc, 0x0, false, none⟩
def LE_HELD_CNT_COUNT : Fld := ⟨0x800910EC, 0, 16, .rc, 0x0, false, none⟩

/-! Fields of the registers of spec/04_loop_engine.md. -/
def LE_ENG_CTRL_START (k : Nat) : Fld := ⟨0x80090000 + 0x40 * k, 0, 1, .w1s, 0x0, false, none⟩
def LE_ENG_CTRL_HALT_REQ (k : Nat) : Fld := ⟨0x80090000 + 0x40 * k, 1, 1, .w1s, 0x0, false, none⟩
def LE_ENG_STAT_STATE (k : Nat) : Fld := ⟨0x80090004 + 0x40 * k, 0, 2, .ro, 0x0, false, none⟩
def LE_ENG_STAT_AWAKE (k : Nat) : Fld := ⟨0x80090004 + 0x40 * k, 2, 1, .ro, 0x0, false, none⟩
def LE_ENG_STAT_DIG_PART (k : Nat) : Fld := ⟨0x80090004 + 0x40 * k, 3, 1, .w1c, 0x0, false, none⟩
def LE_ENG_STAT_ERR_CODE (k : Nat) : Fld := ⟨0x80090004 + 0x40 * k, 4, 3, .ro, 0x0, false, none⟩
def LE_ENG_STAT_QDEPTH (k : Nat) : Fld := ⟨0x80090004 + 0x40 * k, 8, 5, .ro, 0x0, false, none⟩
def LE_ENG_ENTRY_ENTRY (k : Nat) : Fld := ⟨0x80090008 + 0x40 * k, 0, 16, .rw, 0x0, false, (some .loopPrograms)⟩
def LE_ENG_PC_PC (k : Nat) : Fld := ⟨0x8009000C + 0x40 * k, 0, 16, .ro, 0x0, false, none⟩
def LE_ENG_FLAGS_FLAGS (k : Nat) : Fld := ⟨0x80090010 + 0x40 * k, 0, 7, .w1c, 0x0, false, none⟩
def LE_ENG_DIG_LO_DIG_LO (k : Nat) : Fld := ⟨0x80090014 + 0x40 * k, 0, 32, .ro, 0x0, false, none⟩
def LE_ENG_DIG_HI_DIG_HI (k : Nat) : Fld := ⟨0x80090018 + 0x40 * k, 0, 32, .ro, 0x0, false, none⟩
def LE_ENG_DIG_CRS_DIG_CRS (k : Nat) : Fld := ⟨0x8009001C + 0x40 * k, 0, 32, .ro, 0x0, false, none⟩
def LE_ENG_EVCNT_EVREPL (k : Nat) : Fld := ⟨0x80090020 + 0x40 * k, 0, 16, .rc, 0x0, false, none⟩
def LE_ENG_EVCNT_EVDROP (k : Nat) : Fld := ⟨0x80090020 + 0x40 * k, 16, 16, .rc, 0x0, false, none⟩
def LE_ENG_ERR_ADDR_ADDR (k : Nat) : Fld := ⟨0x80090024 + 0x40 * k, 0, 32, .ro, 0x0, false, none⟩
def LE_ENG_BUSY_CYCLES (k : Nat) : Fld := ⟨0x80090028 + 0x40 * k, 0, 16, .ro, 0x0, false, none⟩
def LE_ENG_ERR_ERR : Fld := ⟨0x80090300, 0, 12, .w1c, 0x0, false, none⟩
def LE_WIN_ERR_CNT_COUNT : Fld := ⟨0x80090304, 0, 16, .rc, 0x0, false, none⟩

/-! Fields of the registers of spec/05_stepper_channels.md. -/
def STP_CTRL_CAL_GO (k : Nat) : Fld := ⟨0x800A0000 + 0x40 * k, 0, 1, .w1s, 0x0, false, none⟩
def STP_CFG_MODE (k : Nat) : Fld := ⟨0x800A0004 + 0x40 * k, 0, 1, .rw, 0x0, false, (some .axes)⟩
def STP_CFG_MRES (k : Nat) : Fld := ⟨0x800A0004 + 0x40 * k, 1, 4, .rw, 0x0, false, (some .axes)⟩
def STP_CFG_TABLE (k : Nat) : Fld := ⟨0x800A0004 + 0x40 * k, 5, 2, .rw, 0x0, false, (some .axes)⟩
def STP_CFG_DECAY (k : Nat) : Fld := ⟨0x800A0004 + 0x40 * k, 7, 2, .rw, 0x0, false, (some .axes)⟩
def STP_CFG_ENC_EN (k : Nat) : Fld := ⟨0x800A0004 + 0x40 * k, 9, 1, .ro, 0x0, false, (some .axes)⟩
def STP_CFG_ENC_DIR (k : Nat) : Fld := ⟨0x800A0004 + 0x40 * k, 10, 1, .rw, 0x0, false, (some .axes)⟩
def STP_CFG_STALL_FLT (k : Nat) : Fld := ⟨0x800A0004 + 0x40 * k, 11, 1, .rw, 0x0, false, (some .axes)⟩
def STP_CFG_DIR_POL (k : Nat) : Fld := ⟨0x800A0004 + 0x40 * k, 12, 1, .rw, 0x0, false, (some .axes)⟩
def STP_CFG_EN_POL (k : Nat) : Fld := ⟨0x800A0004 + 0x40 * k, 13, 1, .rw, 0x0, false, (some .axes)⟩
def STP_CFG_XFLT_POL (k : Nat) : Fld := ⟨0x800A0004 + 0x40 * k, 14, 1, .rw, 0x0, false, (some .axes)⟩
def STP_CUR_FS_CODE (k : Nat) : Fld := ⟨0x800A0008 + 0x40 * k, 0, 10, .rw, 0x0, false, (some .axes)⟩
def STP_CUR_RUN_SCALE (k : Nat) : Fld := ⟨0x800A0008 + 0x40 * k, 10, 8, .rw, 0x0, false, (some .axes)⟩
def STP_CUR_HOLD_SCALE (k : Nat) : Fld := ⟨0x800A0008 + 0x40 * k, 18, 8, .rw, 0x0, false, (some .axes)⟩
def STP_CHOP0_BLANK (k : Nat) : Fld := ⟨0x800A000C + 0x40 * k, 0, 5, .rw, 0x0, false, (some .axes)⟩
def STP_CHOP0_TOFF_MIN (k : Nat) : Fld := ⟨0x800A000C + 0x40 * k, 5, 8, .rw, 0x0, false, (some .axes)⟩
def STP_CHOP0_HYST (k : Nat) : Fld := ⟨0x800A000C + 0x40 * k, 13, 6, .rw, 0x0, false, (some .axes)⟩
def STP_CHOP0_FD_TIME (k : Nat) : Fld := ⟨0x800A000C + 0x40 * k, 19, 7, .rw, 0x0, false, (some .axes)⟩
def STP_CHOP1_CMP_DLY (k : Nat) : Fld := ⟨0x800A0010 + 0x40 * k, 0, 9, .rw, 0x0, false, (some .axes)⟩
def STP_CHOP1_ADAPT (k : Nat) : Fld := ⟨0x800A0010 + 0x40 * k, 9, 2, .rw, 0x0, false, (some .axes)⟩
def STP_CHOP1_DELTA_MAX (k : Nat) : Fld := ⟨0x800A0010 + 0x40 * k, 11, 6, .rw, 0x0, false, (some .axes)⟩
def STP_CHOP1_OC_CODE (k : Nat) : Fld := ⟨0x800A0010 + 0x40 * k, 17, 10, .rw, 0x0, false, (some .axes)⟩
def STP_CHOP2_TON_MAX (k : Nat) : Fld := ⟨0x800A0014 + 0x40 * k, 0, 10, .rw, 0x0, false, (some .axes)⟩
def STP_CHOP2_OPEN_MIN (k : Nat) : Fld := ⟨0x800A0014 + 0x40 * k, 10, 10, .rw, 0x0, false, (some .axes)⟩
def STP_CHOP2_HOLD_DELAY (k : Nat) : Fld := ⟨0x800A0014 + 0x40 * k, 20, 10, .rw, 0x0, false, (some .axes)⟩
def STP_STEPDIR_STEP_W (k : Nat) : Fld := ⟨0x800A0018 + 0x40 * k, 0, 8, .rw, 0x0, false, (some .axes)⟩
def STP_STEPDIR_DIR_SU (k : Nat) : Fld := ⟨0x800A0018 + 0x40 * k, 8, 8, .rw, 0x0, false, (some .axes)⟩
def STP_ENC_NUM_ENC_NUM (k : Nat) : Fld := ⟨0x800A001C + 0x40 * k, 0, 32, .rw, 0x0, false, (some .axes)⟩
def STP_ENC_DEN_ENC_DEN (k : Nat) : Fld := ⟨0x800A0020 + 0x40 * k, 0, 16, .rw, 0x0, false, (some .axes)⟩
def STP_STALL_STALL_THR (k : Nat) : Fld := ⟨0x800A0024 + 0x40 * k, 0, 16, .rw, 0x0, false, (some .axes)⟩
def STP_STALL_STALL_STEPS (k : Nat) : Fld := ⟨0x800A0024 + 0x40 * k, 16, 8, .rw, 0x0, false, (some .axes)⟩
def STP_STALL_VMIN_STALL_VMIN (k : Nat) : Fld := ⟨0x800A0028 + 0x40 * k, 0, 32, .rw, 0x0, false, (some .axes)⟩
def STP_STALL_ERR_STALL_ERR (k : Nat) : Fld := ⟨0x800A002C + 0x40 * k, 0, 32, .rw, 0x0, false, (some .axes)⟩
def STP_STAT_STATE (k : Nat) : Fld := ⟨0x800A0030 + 0x40 * k, 0, 3, .ro, 0x0, false, none⟩
def STP_STAT_STALL (k : Nat) : Fld := ⟨0x800A0030 + 0x40 * k, 3, 1, .ro, 0x0, false, none⟩
def STP_STAT_UNCAL (k : Nat) : Fld := ⟨0x800A0030 + 0x40 * k, 4, 1, .ro, 0x0, false, none⟩
def STP_STAT_TRANS (k : Nat) : Fld := ⟨0x800A0030 + 0x40 * k, 5, 1, .w1c, 0x0, false, none⟩
def STP_STAT_FLT_CODE (k : Nat) : Fld := ⟨0x800A0030 + 0x40 * k, 8, 3, .ro, 0x0, false, none⟩
def STP_STAT_SLOPE_AVG (k : Nat) : Fld := ⟨0x800A0030 + 0x40 * k, 16, 16, .ro, 0x0, false, none⟩
def STP_DELTA_DELTA_A (k : Nat) : Fld := ⟨0x800A0034 + 0x40 * k, 0, 16, .ro, 0x0, false, none⟩
def STP_DELTA_DELTA_B (k : Nat) : Fld := ⟨0x800A0034 + 0x40 * k, 16, 16, .ro, 0x0, false, none⟩
def STP_MON_VALLEY_A (k : Nat) : Fld := ⟨0x800A0038 + 0x40 * k, 0, 12, .ro, 0x0, false, none⟩
def STP_MON_VALLEY_B (k : Nat) : Fld := ⟨0x800A0038 + 0x40 * k, 16, 12, .ro, 0x0, false, none⟩
def STP_CAL_CMP_OFS_A (k : Nat) : Fld := ⟨0x800A003C + 0x40 * k, 0, 6, .ro, 0x0, false, none⟩
def STP_CAL_CMP_OFS_B (k : Nat) : Fld := ⟨0x800A003C + 0x40 * k, 6, 6, .ro, 0x0, false, none⟩
def STP_CAL_ADC_OFS_A (k : Nat) : Fld := ⟨0x800A003C + 0x40 * k, 12, 8, .ro, 0x0, false, none⟩
def STP_CAL_ADC_OFS_B (k : Nat) : Fld := ⟨0x800A003C + 0x40 * k, 20, 8, .ro, 0x0, false, none⟩
def STP_CAL_CAL_RES (k : Nat) : Fld := ⟨0x800A003C + 0x40 * k, 28, 2, .ro, 0x0, false, none⟩
def STP_SAFE_OFF0_SAFE_OFF : Fld := ⟨0x800A0C00, 0, 32, .ro, 0x0, false, none⟩
def STP_SAFE_OFF1_SAFE_OFF : Fld := ⟨0x800A0C04, 0, 16, .ro, 0x0, false, none⟩
def STP_FLT0_FLT : Fld := ⟨0x800A0C08, 0, 32, .w1c, 0x0, false, none⟩
def STP_FLT1_FLT : Fld := ⟨0x800A0C0C, 0, 16, .w1c, 0x0, false, none⟩
def STP_TRANS_CNT_COUNT : Fld := ⟨0x800A0C10, 0, 16, .rc, 0x0, false, none⟩
def STP_DRIVE_PERMIT : Fld := ⟨0x800A0C14, 0, 1, .ro, 0x0, false, none⟩
def STP_DRIVE_PEER_ACT : Fld := ⟨0x800A0C14, 1, 1, .ro, 0x0, false, none⟩
def STP_DRIVE_FENCED : Fld := ⟨0x800A0C14, 2, 1, .ro, 0x0, false, none⟩
def STP_MTAB_ENTRY (k i : Nat) : Fld := ⟨0x800A1000 + 0x1000 * k + 0x4 * i, 0, 32, .rw, 0x0, false, (some .axes)⟩
def STP_MTAB0_ENTRY (k : Nat) : Fld := ⟨0x800A4000 + 0x4 * k, 0, 32, .ro, 0x0, false, none⟩

/-! Fields of the registers of spec/06_bondline.md. -/
def BOND_START_RANK : Fld := ⟨0x80030040, 0, 2, .ro, 0x0, false, none⟩
def BOND_START_CAND : Fld := ⟨0x80030040, 2, 1, .ro, 0x0, false, (some .rings)⟩
def BOND_START_FAILS : Fld := ⟨0x80030040, 3, 2, .ro, 0x0, false, none⟩
def BOND_START_HELD64 : Fld := ⟨0x80030040, 5, 1, .ro, 0x0, false, none⟩
def BOND_START_WAIT256 : Fld := ⟨0x80030040, 6, 1, .ro, 0x0, false, none⟩
def BOND_START_STATE : Fld := ⟨0x80030040, 8, 3, .ro, 0x0, false, none⟩
def BOND_START_QUIET : Fld := ⟨0x80030040, 16, 16, .ro, 0x0, false, none⟩
def BOND_ENROL_LEFT : Fld := ⟨0x80030044, 0, 13, .ro, 0x0, false, none⟩
def RING_CFG_EN (k : Nat) : Fld := ⟨0x80040000 + 0x10000 * k, 0, 1, .ro, 0x0, false, (some .rings)⟩
def RING_CFG_TOPO (k : Nat) : Fld := ⟨0x80040000 + 0x10000 * k, 1, 1, .ro, 0x0, false, (some .rings)⟩
def RING_CFG_RATE (k : Nat) : Fld := ⟨0x80040000 + 0x10000 * k, 2, 1, .ro, 0x0, false, (some .rings)⟩
def RING_STAT_STATE (k : Nat) : Fld := ⟨0x80040004 + 0x10000 * k, 0, 3, .ro, 0x0, false, none⟩
def RING_STAT_E_SYNC (k : Nat) : Fld := ⟨0x80040004 + 0x10000 * k, 3, 1, .ro, 0x0, false, none⟩
def RING_STAT_W_SYNC (k : Nat) : Fld := ⟨0x80040004 + 0x10000 * k, 4, 1, .ro, 0x0, false, none⟩
def RING_STAT_BYP (k : Nat) : Fld := ⟨0x80040004 + 0x10000 * k, 5, 1, .ro, 0x0, false, none⟩
def RING_STAT_BREAK (k : Nat) : Fld := ⟨0x80040004 + 0x10000 * k, 6, 1, .w1c, 0x0, false, none⟩
def RING_STAT_EPOCH_AHEAD (k : Nat) : Fld := ⟨0x80040004 + 0x10000 * k, 7, 1, .w1c, 0x0, false, none⟩
def RING_STAT_DRIFT (k : Nat) : Fld := ⟨0x80040004 + 0x10000 * k, 8, 1, .w1c, 0x0, false, none⟩
def RING_STAT_SQUALL (k : Nat) : Fld := ⟨0x80040004 + 0x10000 * k, 9, 1, .w1c, 0x0, false, none⟩
def RING_STAT_COLLIDE (k : Nat) : Fld := ⟨0x80040004 + 0x10000 * k, 10, 1, .w1c, 0x0, false, none⟩
def RING_STAT_JOIN_OPEN (k : Nat) : Fld := ⟨0x80040004 + 0x10000 * k, 11, 1, .ro, 0x0, false, none⟩
def RING_STAT_OFF_SENT (k : Nat) : Fld := ⟨0x80040004 + 0x10000 * k, 12, 1, .w1c, 0x0, false, none⟩
def RING_IRQ_EN_IE (k : Nat) : Fld := ⟨0x80040008 + 0x10000 * k, 6, 7, .rw, 0x0, false, none⟩
def RING_HEAD_SRC (k : Nat) : Fld := ⟨0x8004000C + 0x10000 * k, 0, 6, .ro, 0x0, false, none⟩
def RING_HEAD_RANK (k : Nat) : Fld := ⟨0x8004000C + 0x10000 * k, 6, 2, .ro, 0x0, false, none⟩
def RING_HEAD_EPOCH_MAX (k : Nat) : Fld := ⟨0x8004000C + 0x10000 * k, 16, 16, .ro, 0x0, false, none⟩
def RING_LINK_E_DLY (k : Nat) : Fld := ⟨0x80040010 + 0x10000 * k, 0, 24, .ro, 0x0, false, none⟩
def RING_LINK_W_DLY (k : Nat) : Fld := ⟨0x80040014 + 0x10000 * k, 0, 24, .ro, 0x0, false, none⟩
def RING_HEAD_DLY_E_D (k : Nat) : Fld := ⟨0x80040018 + 0x10000 * k, 0, 32, .ro, 0x0, false, none⟩
def RING_HEAD_DLY_W_D (k : Nat) : Fld := ⟨0x8004001C + 0x10000 * k, 0, 32, .ro, 0x0, false, none⟩
def RING_LOOP_E_LOOP (k : Nat) : Fld := ⟨0x80040020 + 0x10000 * k, 0, 32, .ro, 0x0, false, none⟩
def RING_LOOP_W_LOOP (k : Nat) : Fld := ⟨0x80040024 + 0x10000 * k, 0, 32, .ro, 0x0, false, none⟩
def RING_CRC_CNT_HCRC (k : Nat) : Fld := ⟨0x80040028 + 0x10000 * k, 0, 16, .rc, 0x0, false, none⟩
def RING_CRC_CNT_CRC (k : Nat) : Fld := ⟨0x80040028 + 0x10000 * k, 16, 16, .rc, 0x0, false, none⟩
def RING_DISC_CNT_HDR (k : Nat) : Fld := ⟨0x8004002C + 0x10000 * k, 0, 16, .rc, 0x0, false, none⟩
def RING_DISC_CNT_EPOCH (k : Nat) : Fld := ⟨0x8004002C + 0x10000 * k, 16, 16, .rc, 0x0, false, none⟩
def RING_EDGE_CNT_COUNT (k : Nat) : Fld := ⟨0x80040030 + 0x10000 * k, 0, 16, .rc, 0x0, false, none⟩
def RING_LOST_CNT_LOST (k : Nat) : Fld := ⟨0x80040034 + 0x10000 * k, 0, 16, .rc, 0x0, false, none⟩
def RING_LOST_CNT_SQUALLS (k : Nat) : Fld := ⟨0x80040034 + 0x10000 * k, 16, 16, .rc, 0x0, false, none⟩
def RING_CODE_CNT_E (k : Nat) : Fld := ⟨0x80040038 + 0x10000 * k, 0, 16, .rc, 0x0, false, none⟩
def RING_CODE_CNT_W (k : Nat) : Fld := ⟨0x80040038 + 0x10000 * k, 16, 16, .rc, 0x0, false, none⟩
def RING_JOIN_CNT_CLAIMS (k : Nat) : Fld := ⟨0x8004003C + 0x10000 * k, 0, 8, .rc, 0x0, false, none⟩
def RING_JOIN_CNT_REFUSED (k : Nat) : Fld := ⟨0x8004003C + 0x10000 * k, 8, 8, .rc, 0x0, false, none⟩
def RING_JOIN_CNT_TIMEOUTS (k : Nat) : Fld := ⟨0x8004003C + 0x10000 * k, 16, 8, .rc, 0x0, false, none⟩
def RING_NODE_SEL_NODE (k : Nat) : Fld := ⟨0x80040040 + 0x10000 * k, 0, 6, .rw, 0x0, false, none⟩
def RING_NODE_STAT_CLAIMED (k : Nat) : Fld := ⟨0x80040044 + 0x10000 * k, 0, 1, .ro, 0x0, false, none⟩
def RING_NODE_STAT_PRESENT (k : Nat) : Fld := ⟨0x80040044 + 0x10000 * k, 1, 1, .ro, 0x0, false, none⟩
def RING_NODE_STAT_DRIFT (k : Nat) : Fld := ⟨0x80040044 + 0x10000 * k, 2, 1, .ro, 0x0, false, none⟩
def RING_NODE_STAT_OFF (k : Nat) : Fld := ⟨0x80040044 + 0x10000 * k, 3, 1, .ro, 0x0, false, none⟩
def RING_NODE_STAT_KIND (k : Nat) : Fld := ⟨0x80040044 + 0x10000 * k, 8, 8, .ro, 0x0, false, (some .rings)⟩
def RING_NODE_OFS_OFS_E (k : Nat) : Fld := ⟨0x80040048 + 0x10000 * k, 0, 16, .ro, 0x0, false, none⟩
def RING_NODE_OFS_OFS_W (k : Nat) : Fld := ⟨0x80040048 + 0x10000 * k, 16, 16, .ro, 0x0, false, none⟩
def RING_NODE_CNT_LOST (k : Nat) : Fld := ⟨0x8004004C + 0x10000 * k, 0, 16, .rc, 0x0, false, none⟩
def RING_NODE_CNT_EDGE (k : Nat) : Fld := ⟨0x8004004C + 0x10000 * k, 16, 8, .rc, 0x0, false, none⟩
def RING_NODE_CNT_DRIFTS (k : Nat) : Fld := ⟨0x8004004C + 0x10000 * k, 24, 8, .rc, 0x0, false, none⟩
def RING_NODE_UID_LO_UID_LO (k : Nat) : Fld := ⟨0x80040050 + 0x10000 * k, 0, 32, .ro, 0x0, false, (some .rings)⟩
def RING_NODE_UID_HI_UID_HI (k : Nat) : Fld := ⟨0x80040054 + 0x10000 * k, 0, 16, .ro, 0x0, false, (some .rings)⟩
def RING_NODE_DLY_E_D (k : Nat) : Fld := ⟨0x80040058 + 0x10000 * k, 0, 32, .ro, 0x0, false, none⟩
def RING_NODE_DLY_W_D (k : Nat) : Fld := ⟨0x8004005C + 0x10000 * k, 0, 32, .ro, 0x0, false, none⟩
def RING_BT_SEL_INDEX (k : Nat) : Fld := ⟨0x80040080 + 0x10000 * k, 0, 12, .rw, 0x0, false, none⟩
def RING_BT_SEL_SCHED (k : Nat) : Fld := ⟨0x80040080 + 0x10000 * k, 12, 2, .rw, 0x0, false, none⟩
def RING_BT_SEL_WORD (k : Nat) : Fld := ⟨0x80040080 + 0x10000 * k, 14, 2, .rw, 0x0, false, none⟩
def RING_BT_SEL_MAP (k : Nat) : Fld := ⟨0x80040080 + 0x10000 * k, 16, 1, .rw, 0x0, false, none⟩
def RING_BT_DATA_DATA (k : Nat) : Fld := ⟨0x80040084 + 0x10000 * k, 0, 32, .ro, 0x0, false, none⟩
def RING_MG_TX_DEST (k : Nat) : Fld := ⟨0x80040090 + 0x10000 * k, 0, 6, .rw, 0x0, false, none⟩
def RING_MG_TX_OP (k : Nat) : Fld := ⟨0x80040090 + 0x10000 * k, 8, 8, .rw, 0x0, false, none⟩
def RING_MG_TX_LEN (k : Nat) : Fld := ⟨0x80040090 + 0x10000 * k, 16, 6, .rw, 0x0, false, none⟩
def RING_MG_TX_GO (k : Nat) : Fld := ⟨0x80040090 + 0x10000 * k, 31, 1, .w1s, 0x0, false, none⟩
def RING_MG_STAT_TX_ERR (k : Nat) : Fld := ⟨0x80040094 + 0x10000 * k, 0, 1, .w1c, 0x0, false, none⟩
def RING_MG_STAT_RX_VALID (k : Nat) : Fld := ⟨0x80040094 + 0x10000 * k, 1, 1, .w1c, 0x0, false, none⟩
def RING_MG_STAT_RX_OVR (k : Nat) : Fld := ⟨0x80040094 + 0x10000 * k, 2, 1, .w1c, 0x0, false, none⟩
def RING_MG_STAT_RX_SRC (k : Nat) : Fld := ⟨0x80040094 + 0x10000 * k, 8, 6, .ro, 0x0, false, none⟩
def RING_MG_STAT_RX_OP (k : Nat) : Fld := ⟨0x80040094 + 0x10000 * k, 16, 8, .ro, 0x0, false, none⟩
def RING_MG_STAT_RX_LEN (k : Nat) : Fld := ⟨0x80040094 + 0x10000 * k, 24, 6, .ro, 0x0, false, none⟩
def RING_MG_TXD_DATA (k i : Nat) : Fld := ⟨0x800400A0 + 0x10000 * k + 0x4 * i, 0, 32, .rw, 0x0, false, none⟩
def RING_MG_RXD_DATA (k i : Nat) : Fld := ⟨0x800400E0 + 0x10000 * k + 0x4 * i, 0, 32, .ro, 0x0, false, none⟩

/-! Fields of the registers of spec/07_process_image.md. -/
def PIM_STAT_LOG_OVF : Fld := ⟨0x800B0000, 0, 1, .w1c, 0x0, false, none⟩
def PIM_STAT_OUT_SYNC : Fld := ⟨0x800B0000, 1, 1, .ro, 0x0, false, none⟩
def PIM_STAT_RESYNC : Fld := ⟨0x800B0000, 2, 1, .ro, 0x0, false, none⟩
def PIM_RNG_SEL_INDEX : Fld := ⟨0x800B0010, 0, 12, .rw, 0x0, false, none⟩
def PIM_RNG_SEL_WORD : Fld := ⟨0x800B0010, 12, 2, .rw, 0x0, false, none⟩
def PIM_RNG_DATA_DATA : Fld := ⟨0x800B0014, 0, 32, .ro, 0x0, false, none⟩
def PIM_SEG_SEL_MAP : Fld := ⟨0x800B0018, 0, 8, .rw, 0x0, false, none⟩
def PIM_SEG_SEL_RING : Fld := ⟨0x800B0018, 8, 2, .rw, 0x0, false, none⟩
def PIM_SEG_SEL_WORD : Fld := ⟨0x800B0018, 10, 1, .rw, 0x0, false, none⟩
def PIM_SEG_DATA_DATA : Fld := ⟨0x800B001C, 0, 32, .ro, 0x0, false, none⟩
def PIM_WR_CNT_REJ : Fld := ⟨0x800B0020, 0, 16, .rc, 0x0, false, none⟩
def PIM_WR_CNT_SHADOW : Fld := ⟨0x800B0020, 16, 16, .rc, 0x0, false, none⟩
def PIM_NONFIN_CNT_COUNT : Fld := ⟨0x800B0024, 0, 16, .rc, 0x0, false, none⟩
def PIM_LOG_LAST : Fld := ⟨0x800B0028, 0, 12, .ro, 0x0, false, none⟩
def PIM_LOG_OVF_CNT : Fld := ⟨0x800B0028, 16, 16, .rc, 0x0, false, none⟩
def PIM_RANGES_COUNT : Fld := ⟨0x800B002C, 0, 13, .ro, 0x0, false, (some .points)⟩
def PIM_REQ_KIB (k : Nat) : Fld := ⟨0x800B0040 + 0x4 * k, 0, 16, .ro, 0x0, false, none⟩
def PIM_REQ_WAIT_MAX (k : Nat) : Fld := ⟨0x800B0040 + 0x4 * k, 16, 16, .ro, 0x0, false, none⟩

/-! Fields of the registers of spec/08_capture.md. -/
def CAP_STAT_DONE : Fld := ⟨0x800C0000, 0, 8, .w1c, 0x0, false, none⟩
def CAP_STAT_TRIG : Fld := ⟨0x800C0000, 16, 8, .w1c, 0x0, false, none⟩
def CAP_IRQ_EN_DONE_IE : Fld := ⟨0x800C0004, 0, 8, .rw, 0x0, false, none⟩
def CAP_IRQ_EN_TRIG_IE : Fld := ⟨0x800C0004, 16, 8, .rw, 0x0, false, none⟩
def CAP_CASC_OUT_SET : Fld := ⟨0x800C0008, 0, 3, .rw, 0x0, false, none⟩
def CAP_CASC_OUT_EN : Fld := ⟨0x800C0008, 3, 1, .rw, 0x0, false, none⟩
def CAP_CASC_IN_SEEN : Fld := ⟨0x800C0008, 4, 1, .w1c, 0x0, false, none⟩
def CAP_CASC_IN_POS : Fld := ⟨0x800C0008, 8, 6, .ro, 0x0, false, none⟩
def CAP_CASC_T_LO_T_LO : Fld := ⟨0x800C000C, 0, 32, .ro, 0x0, false, none⟩
def CAP_CASC_T_HI_T_HI : Fld := ⟨0x800C0010, 0, 32, .ro, 0x0, false, none⟩
def CAP_TRIGOUT_SET0 : Fld := ⟨0x800C0014, 0, 3, .rw, 0x0, false, none⟩
def CAP_TRIGOUT_SET1 : Fld := ⟨0x800C0014, 4, 3, .rw, 0x0, false, none⟩
def CAP_TRIGOUT_SET2 : Fld := ⟨0x800C0014, 8, 3, .rw, 0x0, false, none⟩
def CAP_TRIGOUT_SET3 : Fld := ⟨0x800C0014, 12, 3, .rw, 0x0, false, none⟩
def CAP_TRIGOUT_EN0 : Fld := ⟨0x800C0014, 3, 1, .rw, 0x0, false, none⟩
def CAP_TRIGOUT_EN1 : Fld := ⟨0x800C0014, 7, 1, .rw, 0x0, false, none⟩
def CAP_TRIGOUT_EN2 : Fld := ⟨0x800C0014, 11, 1, .rw, 0x0, false, none⟩
def CAP_TRIGOUT_EN3 : Fld := ⟨0x800C0014, 15, 1, .rw, 0x0, false, none⟩
def CAP_SET_CTRL_ARM (k : Nat) : Fld := ⟨0x800C0100 + 0x80 * k, 0, 1, .w1s, 0x0, false, none⟩
def CAP_SET_CTRL_ABORT (k : Nat) : Fld := ⟨0x800C0100 + 0x80 * k, 1, 1, .w1s, 0x0, false, none⟩
def CAP_SET_CTRL_FORCE (k : Nat) : Fld := ⟨0x800C0100 + 0x80 * k, 2, 1, .w1s, 0x0, false, none⟩
def CAP_SET_CFG_MODE (k : Nat) : Fld := ⟨0x800C0104 + 0x80 * k, 0, 2, .rw, 0x0, false, none⟩
def CAP_SET_CFG_CLK (k : Nat) : Fld := ⟨0x800C0104 + 0x80 * k, 2, 1, .rw, 0x0, false, none⟩
def CAP_SET_CFG_TRIG_QUAL (k : Nat) : Fld := ⟨0x800C0104 + 0x80 * k, 3, 1, .rw, 0x0, false, none⟩
def CAP_SET_CFG_COMB (k : Nat) : Fld := ⟨0x800C0104 + 0x80 * k, 4, 2, .rw, 0x0, false, none⟩
def CAP_SET_CFG_MASK_ACT (k : Nat) : Fld := ⟨0x800C0104 + 0x80 * k, 6, 1, .rw, 0x0, false, none⟩
def CAP_SET_CFG_STR_DMA (k : Nat) : Fld := ⟨0x800C0104 + 0x80 * k, 7, 5, .rw, 0x0, false, none⟩
def CAP_SET_CHANS_CHANS (k : Nat) : Fld := ⟨0x800C0108 + 0x80 * k, 0, 32, .rw, 0x0, false, none⟩
def CAP_SET_PERIOD_PER (k : Nat) : Fld := ⟨0x800C010C + 0x80 * k, 0, 18, .rw, 0x0, false, none⟩
def CAP_SET_PRE_PRE (k : Nat) : Fld := ⟨0x800C0110 + 0x80 * k, 0, 20, .rw, 0x0, false, none⟩
def CAP_SET_POST_POST (k : Nat) : Fld := ⟨0x800C0114 + 0x80 * k, 0, 20, .rw, 0x0, false, none⟩
def CAP_SET_SEGLEN_SEG_LEN (k : Nat) : Fld := ⟨0x800C0118 + 0x80 * k, 0, 20, .rw, 0x0, false, none⟩
def CAP_SET_SEGS_SEGS (k : Nat) : Fld := ⟨0x800C011C + 0x80 * k, 0, 13, .rw, 0x1, false, none⟩
def CAP_SET_BASE_BASE (k : Nat) : Fld := ⟨0x800C0120 + 0x80 * k, 0, 22, .rw, 0x0, false, none⟩
def CAP_SET_SIZE_SIZE (k : Nat) : Fld := ⟨0x800C0124 + 0x80 * k, 0, 23, .rw, 0x0, false, none⟩
def CAP_SET_TRIGA_KIND (k : Nat) : Fld := ⟨0x800C0128 + 0x80 * k, 0, 4, .rw, 0x0, false, none⟩
def CAP_SET_TRIGA_CH (k : Nat) : Fld := ⟨0x800C0128 + 0x80 * k, 4, 5, .rw, 0x0, false, none⟩
def CAP_SET_TRIGA_PIN_FALL (k : Nat) : Fld := ⟨0x800C0128 + 0x80 * k, 9, 1, .rw, 0x0, false, none⟩
def CAP_SET_TRIGA_AXIS (k : Nat) : Fld := ⟨0x800C0128 + 0x80 * k, 10, 8, .rw, 0x0, false, none⟩
def CAP_SET_TRIGA_EVT (k : Nat) : Fld := ⟨0x800C0128 + 0x80 * k, 18, 3, .rw, 0x0, false, none⟩
def CAP_SET_TRIGB_KIND (k : Nat) : Fld := ⟨0x800C012C + 0x80 * k, 0, 4, .rw, 0x0, false, none⟩
def CAP_SET_TRIGB_CH (k : Nat) : Fld := ⟨0x800C012C + 0x80 * k, 4, 5, .rw, 0x0, false, none⟩
def CAP_SET_TRIGB_PIN_FALL (k : Nat) : Fld := ⟨0x800C012C + 0x80 * k, 9, 1, .rw, 0x0, false, none⟩
def CAP_SET_TRIGB_AXIS (k : Nat) : Fld := ⟨0x800C012C + 0x80 * k, 10, 8, .rw, 0x0, false, none⟩
def CAP_SET_TRIGB_EVT (k : Nat) : Fld := ⟨0x800C012C + 0x80 * k, 18, 3, .rw, 0x0, false, none⟩
def CAP_SET_A_P1_P (k : Nat) : Fld := ⟨0x800C0130 + 0x80 * k, 0, 32, .rw, 0x0, false, none⟩
def CAP_SET_A_P2_P (k : Nat) : Fld := ⟨0x800C0134 + 0x80 * k, 0, 32, .rw, 0x0, false, none⟩
def CAP_SET_B_P1_P (k : Nat) : Fld := ⟨0x800C0138 + 0x80 * k, 0, 32, .rw, 0x0, false, none⟩
def CAP_SET_B_P2_P (k : Nat) : Fld := ⟨0x800C013C + 0x80 * k, 0, 32, .rw, 0x0, false, none⟩
def CAP_SET_STAT_STATE (k : Nat) : Fld := ⟨0x800C0140 + 0x80 * k, 0, 3, .ro, 0x0, false, none⟩
def CAP_SET_STAT_ARM_ERR (k : Nat) : Fld := ⟨0x800C0140 + 0x80 * k, 3, 1, .w1c, 0x0, false, none⟩
def CAP_SET_STAT_ARM_CODE (k : Nat) : Fld := ⟨0x800C0140 + 0x80 * k, 4, 4, .ro, 0x0, false, none⟩
def CAP_SET_STAT_VIOL (k : Nat) : Fld := ⟨0x800C0140 + 0x80 * k, 8, 1, .w1c, 0x0, false, none⟩
def CAP_SET_STAT_OVF (k : Nat) : Fld := ⟨0x800C0140 + 0x80 * k, 9, 1, .w1c, 0x0, false, none⟩
def CAP_SET_STAT_ABORTED (k : Nat) : Fld := ⟨0x800C0140 + 0x80 * k, 10, 1, .w1c, 0x0, false, none⟩
def CAP_SET_STAT_NTA (k : Nat) : Fld := ⟨0x800C0140 + 0x80 * k, 11, 1, .w1c, 0x0, false, none⟩
def CAP_SET_SEGCNT_COUNT (k : Nat) : Fld := ⟨0x800C0144 + 0x80 * k, 0, 13, .ro, 0x0, false, none⟩
def CAP_SET_MISS_CNT_MISSED_TRIG (k : Nat) : Fld := ⟨0x800C0148 + 0x80 * k, 0, 16, .rc, 0x0, false, none⟩
def CAP_SET_MISS_CNT_EARLY_IGN (k : Nat) : Fld := ⟨0x800C0148 + 0x80 * k, 16, 16, .rc, 0x0, false, none⟩
def CAP_SET_MISS_T_LO_T_LO (k : Nat) : Fld := ⟨0x800C014C + 0x80 * k, 0, 32, .ro, 0x0, false, none⟩
def CAP_SET_MISS_T_HI_T_HI (k : Nat) : Fld := ⟨0x800C0150 + 0x80 * k, 0, 32, .ro, 0x0, false, none⟩
def CAP_CH_SRC_KIND (k : Nat) : Fld := ⟨0x800C0800 + 0x20 * k, 0, 4, .rw, 0x0, false, none⟩
def CAP_CH_SRC_ITEM (k : Nat) : Fld := ⟨0x800C0800 + 0x20 * k, 4, 18, .rw, 0x0, false, none⟩
def CAP_CH_SRC_SIG (k : Nat) : Fld := ⟨0x800C0800 + 0x20 * k, 22, 8, .rw, 0x0, false, none⟩
def CAP_CH_TRIM_TRIM (k : Nat) : Fld := ⟨0x800C0804 + 0x20 * k, 0, 24, .rw, 0x0, false, none⟩
def CAP_CH_AUTO_AUTO (k : Nat) : Fld := ⟨0x800C0808 + 0x20 * k, 0, 24, .ro, 0x0, false, none⟩
def CAP_CH_Q_Q (k : Nat) : Fld := ⟨0x800C080C + 0x20 * k, 0, 14, .ro, 0x0, false, none⟩
def CAP_CH_MASK_ADDR_ADDR (k : Nat) : Fld := ⟨0x800C0810 + 0x20 * k, 0, 32, .rw, 0x0, false, none⟩
def CAP_CH_MASK_CFG_LEN (k : Nat) : Fld := ⟨0x800C0814 + 0x20 * k, 0, 13, .rw, 0x0, false, none⟩
def CAP_CH_MASK_CFG_CYCLIC (k : Nat) : Fld := ⟨0x800C0814 + 0x20 * k, 13, 1, .rw, 0x0, false, none⟩

/-! Fields of the registers of spec/09_safety.md. -/
def SAF_STAT_STATE : Fld := ⟨0x800D0000, 0, 3, .ro, 0x0, false, none⟩
def SAF_STAT_SHADOW : Fld := ⟨0x800D0000, 3, 1, .ro, 0x0, false, none⟩
def SAF_STAT_FORCED_OFF : Fld := ⟨0x800D0000, 4, 1, .ro, 0x0, false, none⟩
def SAF_STAT_SAFE_DIV : Fld := ⟨0x800D0000, 5, 1, .w1c, 0x0, false, none⟩
def SAF_STAT_ISL_CODE : Fld := ⟨0x800D0000, 16, 8, .ro, 0x0, false, none⟩
def SAF_CMD_OP : Fld := ⟨0x800D0004, 0, 8, .rw, 0x0, false, none⟩
def SAF_CMD_ARG : Fld := ⟨0x800D0004, 8, 8, .rw, 0x0, false, none⟩
def SAF_CMD_GO : Fld := ⟨0x800D0004, 31, 1, .w1s, 0x0, false, none⟩
def SAF_RESP_RESULT : Fld := ⟨0x800D0008, 0, 8, .ro, 0x0, false, none⟩
def SAF_RESP_CYCLE : Fld := ⟨0x800D0008, 16, 16, .ro, 0x0, false, none⟩
def SAF_CYCLE_COUNT : Fld := ⟨0x800D000C, 0, 32, .ro, 0x0, false, none⟩
def SAF_SI_SI : Fld := ⟨0x800D0010, 0, 32, .ro, 0x0, false, none⟩
def SAF_INFLT_FLT : Fld := ⟨0x800D0014, 0, 32, .ro, 0x0, false, none⟩
def SAF_SO_ON : Fld := ⟨0x800D0018, 0, 16, .ro, 0x0, false, none⟩
def SAF_SO_FB : Fld := ⟨0x800D0018, 16, 16, .ro, 0x0, false, none⟩
def SAF_OUTFLT_SO : Fld := ⟨0x800D001C, 0, 16, .ro, 0x0, false, none⟩
def SAF_OUTFLT_KO : Fld := ⟨0x800D001C, 16, 4, .ro, 0x0, false, none⟩
def SAF_OUTFLT_TP : Fld := ⟨0x800D001C, 20, 8, .ro, 0x0, false, none⟩
def SAF_KO_ON : Fld := ⟨0x800D0020, 0, 4, .ro, 0x0, false, none⟩
def SAF_KO_KF : Fld := ⟨0x800D0020, 4, 4, .ro, 0x0, false, none⟩
def SAF_CONN0_WD : Fld := ⟨0x800D0024, 0, 32, .ro, 0x0, false, none⟩
def SAF_CONN1_WD : Fld := ⟨0x800D0028, 0, 32, .ro, 0x0, false, none⟩
def SAF_VIOL0_VIOL : Fld := ⟨0x800D002C, 0, 32, .ro, 0x0, false, none⟩
def SAF_VIOL1_VIOL : Fld := ⟨0x800D0030, 0, 32, .ro, 0x0, false, none⟩
def SAF_NS_NS : Fld := ⟨0x800D0034, 0, 8, .ro, 0x0, false, none⟩
def SAF_CFG_CRC_CRC : Fld := ⟨0x800D0038, 0, 32, .ro, 0x0, false, (some .safety)⟩
def SAF_FW_VER_VER : Fld := ⟨0x800D003C, 0, 32, .ro, 0x0, false, none⟩
def SAF_DIAG_TRANS : Fld := ⟨0x800D0040, 0, 16, .rc, 0x0, false, none⟩
def SAF_DIAG_REC_IGN : Fld := ⟨0x800D0040, 16, 16, .rc, 0x0, false, none⟩
def SAF_BLK_SEL_BLOCK : Fld := ⟨0x800D0044, 0, 9, .rw, 0x0, false, none⟩
def SAF_BLK_OUT_OUT : Fld := ⟨0x800D0048, 0, 1, .ro, 0x0, false, none⟩

/-! Fields of the registers of spec/10_pairing.md. -/
def MTR_CTRL_HANDOVER : Fld := ⟨0x800E0000, 0, 1, .w1s, 0x0, false, none⟩
def MTR_STAT_MEMBER : Fld := ⟨0x800E0004, 0, 1, .ro, 0x0, false, none⟩
def MTR_STAT_ROLE : Fld := ⟨0x800E0004, 1, 3, .ro, 0x0, false, none⟩
def MTR_STAT_LINK_UP : Fld := ⟨0x800E0004, 4, 1, .ro, 0x0, false, none⟩
def MTR_STAT_PAIR_ACT : Fld := ⟨0x800E0004, 5, 1, .ro, 0x0, false, none⟩
def MTR_STAT_PEER_ACT : Fld := ⟨0x800E0004, 6, 1, .ro, 0x0, false, none⟩
def MTR_STAT_SOLO : Fld := ⟨0x800E0004, 7, 1, .ro, 0x0, false, none⟩
def MTR_STAT_DIVERGENCE : Fld := ⟨0x800E0004, 8, 1, .w1c, 0x0, false, none⟩
def MTR_STAT_PEER_CONFLICT : Fld := ⟨0x800E0004, 9, 1, .w1c, 0x0, false, none⟩
def MTR_STAT_HO_ERR : Fld := ⟨0x800E0004, 10, 1, .w1c, 0x0, false, none⟩
def MTR_STAT_CLAIM_TIE : Fld := ⟨0x800E0004, 11, 1, .w1c, 0x0, false, none⟩
def MTR_STAT_LINK_LOST : Fld := ⟨0x800E0004, 12, 1, .w1c, 0x0, false, none⟩
def MTR_STAT_EPOCH_LOST : Fld := ⟨0x800E0004, 13, 1, .w1c, 0x0, false, none⟩
def MTR_STAT_REV_DIFF : Fld := ⟨0x800E0004, 14, 1, .ro, 0x0, false, none⟩
def MTR_STAT_IMG_DIFF : Fld := ⟨0x800E0004, 15, 1, .ro, 0x0, false, none⟩
def MTR_STAT_TEST_RUN : Fld := ⟨0x800E0004, 16, 1, .ro, 0x0, false, none⟩
def MTR_LEASE_LEASE : Fld := ⟨0x800E0008, 0, 7, .rw, 0x0, false, (some .system)⟩
def MTR_EPOCH_EPOCH : Fld := ⟨0x800E000C, 0, 16, .ro, 0x0, true, none⟩
def MTR_EPOCH_PEER_EPOCH : Fld := ⟨0x800E000C, 16, 16, .ro, 0x0, false, none⟩
def MTR_DIG_CMP_COMPARED : Fld := ⟨0x800E0010, 0, 16, .rc, 0x0, false, none⟩
def MTR_DIG_CMP_EXCLUDED : Fld := ⟨0x800E0010, 16, 16, .rc, 0x0, false, none⟩
def MTR_DIV_CNT_MISMATCH : Fld := ⟨0x800E0014, 0, 16, .rc, 0x0, false, none⟩
def MTR_DIV_CNT_DIVERGENCES : Fld := ⟨0x800E0014, 16, 16, .rc, 0x0, false, none⟩
def MTR_LINK_CNT_RETRIED : Fld := ⟨0x800E0018, 0, 16, .rc, 0x0, false, none⟩
def MTR_LINK_CNT_LASTING : Fld := ⟨0x800E0018, 16, 16, .rc, 0x0, false, none⟩
def MTR_COPY_BYTES : Fld := ⟨0x800E001C, 0, 16, .ro, 0x0, false, none⟩
def MTR_SO_CNT_CLAIMS : Fld := ⟨0x800E0020, 0, 16, .rc, 0x0, true, none⟩
def MTR_SO_CNT_RELEASES : Fld := ⟨0x800E0020, 16, 16, .rc, 0x0, true, none⟩
def WX_STAT_VALID : Fld := ⟨0x800E0100, 0, 1, .ro, 0x0, false, none⟩
def WX_STAT_READY : Fld := ⟨0x800E0100, 1, 1, .ro, 0x0, false, none⟩
def WX_STAT_OUT_SYNC : Fld := ⟨0x800E0100, 2, 1, .ro, 0x0, false, none⟩
def WX_STAT_JNL_SYNC : Fld := ⟨0x800E0100, 3, 1, .ro, 0x0, false, none⟩
def WX_STAT_SAFE_ISL : Fld := ⟨0x800E0100, 4, 1, .ro, 0x0, false, none⟩
def WX_STAT_UNHEALTHY : Fld := ⟨0x800E0100, 5, 1, .ro, 0x0, false, none⟩
def WX_STAT_TEST_RES : Fld := ⟨0x800E0100, 6, 2, .ro, 0x0, false, none⟩
def WX_STAT_AGE_MS : Fld := ⟨0x800E0100, 8, 8, .ro, 0xFF, false, none⟩
def WX_STAT_SEQ : Fld := ⟨0x800E0100, 16, 16, .ro, 0x0, false, none⟩
def WX_COV_LOGIC_PCT : Fld := ⟨0x800E0104, 0, 8, .ro, 0x0, false, none⟩
def WX_COV_MEM_PCT : Fld := ⟨0x800E0104, 8, 8, .ro, 0x0, false, none⟩
def WX_COV_ROUND_S : Fld := ⟨0x800E0104, 16, 16, .ro, 0x0, false, none⟩
def WX_DIV_MISMATCH : Fld := ⟨0x800E0108, 0, 16, .ro, 0x0, false, none⟩
def WX_DIV_SAFE_DIV : Fld := ⟨0x800E0108, 16, 16, .ro, 0x0, false, none⟩
def WX_ECC_CORRECTED : Fld := ⟨0x800E010C, 0, 16, .ro, 0x0, false, none⟩
def WX_ECC_TRANSIENT : Fld := ⟨0x800E010C, 16, 16, .ro, 0x0, false, none⟩
def WX_TEMP_TJ_MAX : Fld := ⟨0x800E0110, 0, 16, .ro, 0x0, false, none⟩
def WX_TEMP_TJ_AVG : Fld := ⟨0x800E0110, 16, 16, .ro, 0x0, false, none⟩
def JNL_STAT_USED : Fld := ⟨0x800E0200, 0, 9, .ro, 0x0, false, none⟩
def JNL_STAT_SYNCED : Fld := ⟨0x800E0200, 9, 1, .ro, 0x0, false, none⟩
def JNL_STAT_LOST : Fld := ⟨0x800E0200, 10, 1, .w1c, 0x0, false, none⟩
def JNL_NEXT_INDEX : Fld := ⟨0x800E0204, 0, 8, .ro, 0x0, false, none⟩
def JNL_NEXT_AVAIL : Fld := ⟨0x800E0204, 8, 1, .ro, 0x0, false, none⟩
def JNL_TAKE_TAKE : Fld := ⟨0x800E0208, 0, 1, .wo, 0x0, false, none⟩
def JNL_DONE_INDEX : Fld := ⟨0x800E020C, 0, 8, .rw, 0x0, false, none⟩
def JNL_DONE_RES_LEN : Fld := ⟨0x800E020C, 8, 9, .rw, 0x0, false, none⟩
def JNL_DONE_GO : Fld := ⟨0x800E020C, 31, 1, .w1s, 0x0, false, none⟩
def JNL_RES_ADDR_ADDR : Fld := ⟨0x800E0210, 0, 32, .rw, 0x0, false, none⟩
def JNL_ERR_RESULT : Fld := ⟨0x800E0214, 0, 8, .ro, 0x0, false, none⟩
def JNL_CL_SEL_SLOT : Fld := ⟨0x800E0218, 0, 4, .rw, 0x0, false, none⟩
def JNL_CL_DATA0_CLIENT : Fld := ⟨0x800E021C, 0, 16, .ro, 0x0, false, none⟩
def JNL_CL_DATA0_USED : Fld := ⟨0x800E021C, 16, 1, .ro, 0x0, false, none⟩
def JNL_CL_DATA1_NEXT : Fld := ⟨0x800E0220, 0, 32, .ro, 0x0, false, none⟩

/-! Fields of the registers of spec/11_host_time_cascade.md. -/
def HST_STAT_LINK : Fld := ⟨0x800F0000, 0, 1, .ro, 0x0, false, none⟩
def HST_STAT_SGMII_SYNC : Fld := ⟨0x800F0000, 1, 1, .ro, 0x0, false, none⟩
def HST_STAT_ACTIVE : Fld := ⟨0x800F0000, 2, 1, .ro, 0x0, false, none⟩
def HST_IP_IP : Fld := ⟨0x800F0004, 0, 32, .ro, 0x0, false, (some .system)⟩
def HST_MASK_MASK : Fld := ⟨0x800F0008, 0, 32, .ro, 0x0, false, (some .system)⟩
def HST_GW_GW : Fld := ⟨0x800F000C, 0, 32, .ro, 0x0, false, (some .system)⟩
def HST_MAC_LO_MAC_LO : Fld := ⟨0x800F0010, 0, 32, .ro, 0x0, false, (some .system)⟩
def HST_MAC_HI_MAC_HI : Fld := ⟨0x800F0014, 0, 16, .ro, 0x0, false, (some .system)⟩
def HST_MAC_HI_DSCP : Fld := ⟨0x800F0014, 16, 6, .ro, 0x0, false, (some .system)⟩
def HST_RX_CNT_GOOD : Fld := ⟨0x800F0018, 0, 16, .rc, 0x0, false, none⟩
def HST_RX_CNT_BAD : Fld := ⟨0x800F0018, 16, 16, .rc, 0x0, false, none⟩
def HST_DROP_CNT_FIFO : Fld := ⟨0x800F001C, 0, 16, .rc, 0x0, false, none⟩
def HST_DROP_CNT_NOADDR : Fld := ⟨0x800F001C, 16, 16, .rc, 0x0, false, none⟩
def HST_MDIO_DATA : Fld := ⟨0x800F0020, 0, 16, .rw, 0x0, false, none⟩
def HST_MDIO_REG : Fld := ⟨0x800F0020, 16, 5, .rw, 0x0, false, none⟩
def HST_MDIO_PHY : Fld := ⟨0x800F0020, 21, 5, .rw, 0x0, false, (some .system)⟩
def HST_MDIO_OP : Fld := ⟨0x800F0020, 26, 2, .rw, 0x0, false, none⟩
def HST_MDIO_GO : Fld := ⟨0x800F0020, 31, 1, .w1s, 0x0, false, none⟩
def HST_FWQ_RXBASE_BASE : Fld := ⟨0x800F0030, 0, 32, .rw, 0x0, false, none⟩
def HST_FWQ_RXPTR_HEAD : Fld := ⟨0x800F0034, 0, 4, .ro, 0x0, false, none⟩
def HST_FWQ_RXPTR_TAIL : Fld := ⟨0x800F0034, 8, 4, .rw, 0x0, false, none⟩
def HST_FWQ_RXPTR_RX_OVF : Fld := ⟨0x800F0034, 16, 1, .w1c, 0x0, false, none⟩
def HST_FWQ_TXBASE_BASE : Fld := ⟨0x800F0038, 0, 32, .rw, 0x0, false, none⟩
def HST_FWQ_TXPTR_HEAD : Fld := ⟨0x800F003C, 0, 4, .rw, 0x0, false, none⟩
def HST_FWQ_TXPTR_TAIL : Fld := ⟨0x800F003C, 8, 4, .ro, 0x0, false, none⟩
def TIM_NOW_LO_NOW_LO : Fld := ⟨0x80110000, 0, 32, .ro, 0x0, false, none⟩
def TIM_NOW_HI_NOW_HI : Fld := ⟨0x80110004, 0, 32, .ro, 0x0, false, none⟩
def TIM_ADJ_ADJ : Fld := ⟨0x80110008, 0, 32, .ro, 0x0, false, none⟩
def TIM_STAT_STATE : Fld := ⟨0x8011000C, 0, 3, .ro, 0x0, false, none⟩
def TIM_STAT_STEPPED : Fld := ⟨0x8011000C, 3, 1, .ro, 0x0, false, none⟩
def TIM_STAT_TIME_JUMP : Fld := ⟨0x8011000C, 4, 1, .w1c, 0x0, false, none⟩
def TIM_STAT_DEGRADED : Fld := ⟨0x8011000C, 5, 1, .ro, 0x0, false, none⟩
def TIM_STAT_MASTER_CHG : Fld := ⟨0x8011000C, 6, 1, .w1c, 0x0, false, none⟩
def TIM_OFS_OFS : Fld := ⟨0x80110010, 0, 32, .ro, 0x0, false, none⟩
def TIM_MPD_MPD : Fld := ⟨0x80110014, 0, 32, .ro, 0x0, false, none⟩
def TIM_CFG_DOMAIN : Fld := ⟨0x80110018, 0, 8, .rw, 0x0, false, (some .system)⟩
def TIM_CFG_JUMP_TH : Fld := ⟨0x80110018, 8, 10, .rw, 0x0, false, (some .system)⟩
def TIM_CFG_PTP_EN : Fld := ⟨0x80110018, 18, 1, .ro, 0x0, false, (some .system)⟩
def TIM_PHY_CORR_PHY_RX_NS : Fld := ⟨0x8011001C, 0, 16, .rw, 0x0, false, (some .system)⟩
def TIM_PHY_CORR_PHY_TX_NS : Fld := ⟨0x8011001C, 16, 16, .rw, 0x0, false, (some .system)⟩
def TIM_MASTER_LO_ID_LO : Fld := ⟨0x80110020, 0, 32, .ro, 0x0, false, none⟩
def TIM_MASTER_HI_ID_HI : Fld := ⟨0x80110024, 0, 32, .ro, 0x0, false, none⟩
def TIM_STEP_CNT_COUNT : Fld := ⟨0x80110028, 0, 16, .rc, 0x0, false, none⟩
def TIM_STEP_CNT_JUMPS : Fld := ⟨0x80110028, 16, 16, .rc, 0x0, false, none⟩
def CAS_CFG_ROOT : Fld := ⟨0x80100000, 0, 1, .ro, 0x0, false, none⟩
def CAS_CFG_POS : Fld := ⟨0x80100000, 1, 6, .ro, 0x0, false, (some .system)⟩
def CAS_CFG_TOPO : Fld := ⟨0x80100000, 7, 1, .ro, 0x0, false, (some .system)⟩
def CAS_CFG_EN : Fld := ⟨0x80100000, 8, 1, .ro, 0x0, false, (some .system)⟩
def CAS_STAT_STATE : Fld := ⟨0x80100004, 0, 3, .ro, 0x0, false, none⟩
def CAS_STAT_A_SYNC : Fld := ⟨0x80100004, 3, 1, .ro, 0x0, false, none⟩
def CAS_STAT_B_SYNC : Fld := ⟨0x80100004, 4, 1, .ro, 0x0, false, none⟩
def CAS_STAT_BYP : Fld := ⟨0x80100004, 5, 1, .ro, 0x0, false, none⟩
def CAS_STAT_ALIGNED : Fld := ⟨0x80100004, 6, 1, .ro, 0x0, false, none⟩
def CAS_STAT_MARK_LOST : Fld := ⟨0x80100004, 7, 1, .w1c, 0x0, false, none⟩
def CAS_STAT_BREAK : Fld := ⟨0x80100004, 8, 1, .w1c, 0x0, false, none⟩
def CAS_STAT_PLAN_ERR : Fld := ⟨0x80100004, 9, 1, .w1c, 0x0, false, none⟩
def CAS_STAT_PLANNED : Fld := ⟨0x80100004, 10, 1, .ro, 0x0, false, none⟩
def CAS_ALIGN_OFS : Fld := ⟨0x80100008, 0, 16, .ro, 0x0, false, none⟩
def CAS_LINK_A_DLY : Fld := ⟨0x8010000C, 0, 24, .ro, 0x0, false, none⟩
def CAS_LINK_B_DLY : Fld := ⟨0x80100010, 0, 24, .ro, 0x0, false, none⟩
def CAS_ROOT_DLY_D : Fld := ⟨0x80100014, 0, 32, .ro, 0x0, false, none⟩
def CAS_PRESENT0_PRESENT : Fld := ⟨0x80100018, 0, 32, .ro, 0x0, false, none⟩
def CAS_PRESENT1_PRESENT : Fld := ⟨0x8010001C, 0, 32, .ro, 0x0, false, none⟩
def CAS_STILL0_STILL : Fld := ⟨0x80100020, 0, 32, .ro, 0x0, false, none⟩
def CAS_STILL1_STILL : Fld := ⟨0x80100024, 0, 32, .ro, 0x0, false, none⟩
def CAS_CNT_CRC : Fld := ⟨0x80100028, 0, 16, .rc, 0x0, false, none⟩
def CAS_CNT_LOST : Fld := ⟨0x80100028, 16, 16, .rc, 0x0, false, none⟩
def CAS_MSG_CNT_FWD : Fld := ⟨0x8010002C, 0, 16, .rc, 0x0, false, none⟩
def CAS_MSG_CNT_NO_DEV : Fld := ⟨0x8010002C, 16, 16, .rc, 0x0, false, none⟩
def CAS_BOOT_ROLE : Fld := ⟨0x80100030, 0, 2, .ro, 0x0, false, none⟩
def CAS_BOOT_CHAIN_POS : Fld := ⟨0x80100030, 2, 4, .ro, 0x0, false, none⟩
def CAS_BOOT_COUNT : Fld := ⟨0x80100030, 6, 5, .ro, 0x0, false, none⟩
def CAS_BOOT_FAIL : Fld := ⟨0x80100030, 16, 16, .ro, 0x0, false, none⟩

/-! Fields of the registers of spec/12_cores_scheduler_dma.md. -/
def SCH_TCB_BASE_BASE : Fld := ⟨0x80120000, 17, 15, .rw, 0x800, false, none⟩
def SCH_CORE_RUN_RUN0 : Fld := ⟨0x80120004, 0, 1, .ro, 0x1, false, none⟩
def SCH_CORE_RUN_RUN : Fld := ⟨0x80120004, 1, 3, .w1s, 0x0, false, none⟩
def SCH_OP_THREAD (k : Nat) : Fld := ⟨0x80120010 + 0x8 * k, 0, 8, .wo, 0x0, false, none⟩
def SCH_OP_OP (k : Nat) : Fld := ⟨0x80120010 + 0x8 * k, 8, 2, .wo, 0x0, false, none⟩
def SCH_RES_RESULT (k : Nat) : Fld := ⟨0x80120014 + 0x8 * k, 0, 3, .ro, 0x0, false, none⟩
def SCH_RES_THREAD (k : Nat) : Fld := ⟨0x80120014 + 0x8 * k, 8, 8, .ro, 0x0, false, none⟩
def SCH_CUR_THREAD (k : Nat) : Fld := ⟨0x80120030 + 0x4 * k, 0, 8, .ro, 0x0, false, none⟩
def SCH_IRQ_EN_EN (k : Nat) : Fld := ⟨0x80120040 + 0x4 * k, 0, 15, .rw, 0x0, false, none⟩
def SCH_IRQ_PEND_ASSERTED : Fld := ⟨0x80120050, 0, 15, .ro, 0x0, false, none⟩
def SCH_IRQ_CLAIM_SOURCE (k : Nat) : Fld := ⟨0x80120054 + 0x4 * k, 0, 8, .ro, 0xFF, false, none⟩
def SCH_EVT_COURSE : Fld := ⟨0x80120064, 0, 1, .w1c, 0x0, false, none⟩
def SCH_MSIP_MSIP : Fld := ⟨0x80120068, 0, 4, .rw, 0x0, false, none⟩
def SCH_TCMP_LO_TCMP_LO (k : Nat) : Fld := ⟨0x80120080 + 0x8 * k, 0, 32, .rw, 0xFFFFFFFF, false, none⟩
def SCH_TCMP_HI_TCMP_HI (k : Nat) : Fld := ⟨0x80120084 + 0x8 * k, 0, 32, .rw, 0xFFFFFFFF, false, none⟩
def DMA_CTRL_RECOVER : Fld := ⟨0x80130000, 0, 1, .w1s, 0x0, false, none⟩
def DMA_STAT_HALTED : Fld := ⟨0x80130004, 0, 1, .ro, 0x0, false, none⟩
def DMA_STAT_FAULT : Fld := ⟨0x80130004, 1, 1, .w1c, 0x0, false, none⟩
def DMA_STAT_OUTST : Fld := ⟨0x80130004, 8, 7, .ro, 0x0, false, none⟩
def DMA_HALF_HALF : Fld := ⟨0x80130008, 0, 32, .w1c, 0x0, false, none⟩
def DMA_FULL_FULL : Fld := ⟨0x8013000C, 0, 32, .w1c, 0x0, false, none⟩
def DMA_ERR_ERR : Fld := ⟨0x80130010, 0, 32, .w1c, 0x0, false, none⟩
def DMA_TRANS_CNT_COUNT : Fld := ⟨0x80130014, 0, 16, .rc, 0x0, false, none⟩
def DMA_FAULT_ADDR_ADDR : Fld := ⟨0x80130018, 0, 32, .ro, 0x0, false, none⟩
def DMA_CH_CTRL_START (k : Nat) : Fld := ⟨0x80130100 + 0x20 * k, 0, 1, .w1s, 0x0, false, none⟩
def DMA_CH_CTRL_ABORT (k : Nat) : Fld := ⟨0x80130100 + 0x20 * k, 1, 1, .w1s, 0x0, false, none⟩
def DMA_CH_CFG_PRIO (k : Nat) : Fld := ⟨0x80130104 + 0x20 * k, 0, 2, .rw, 0x0, false, none⟩
def DMA_CH_CFG_REQ (k : Nat) : Fld := ⟨0x80130104 + 0x20 * k, 2, 5, .rw, 0x0, false, none⟩
def DMA_CH_CFG_HALF_IE (k : Nat) : Fld := ⟨0x80130104 + 0x20 * k, 7, 1, .rw, 0x0, false, none⟩
def DMA_CH_CFG_FULL_IE (k : Nat) : Fld := ⟨0x80130104 + 0x20 * k, 8, 1, .rw, 0x0, false, none⟩
def DMA_CH_CFG_ERR_IE (k : Nat) : Fld := ⟨0x80130104 + 0x20 * k, 9, 1, .rw, 0x0, false, none⟩
def DMA_CH_DESC_DESC (k : Nat) : Fld := ⟨0x80130108 + 0x20 * k, 0, 32, .rw, 0x0, false, none⟩
def DMA_CH_STAT_STATE (k : Nat) : Fld := ⟨0x8013010C + 0x20 * k, 0, 3, .ro, 0x0, false, none⟩
def DMA_CH_STAT_ERR_CODE (k : Nat) : Fld := ⟨0x8013010C + 0x20 * k, 3, 3, .ro, 0x0, false, none⟩
def DMA_CH_STAT_NTA (k : Nat) : Fld := ⟨0x8013010C + 0x20 * k, 6, 1, .w1c, 0x0, false, none⟩
def DMA_CH_STAT_REQ_OVF (k : Nat) : Fld := ⟨0x8013010C + 0x20 * k, 7, 1, .w1c, 0x0, false, none⟩
def DMA_CH_STAT_PEND (k : Nat) : Fld := ⟨0x8013010C + 0x20 * k, 8, 4, .ro, 0x0, false, none⟩
def DMA_CH_CUR_CUR (k : Nat) : Fld := ⟨0x80130110 + 0x20 * k, 0, 32, .ro, 0x0, false, none⟩
def DMA_CH_COUNT_COUNT (k : Nat) : Fld := ⟨0x80130114 + 0x20 * k, 0, 24, .ro, 0x0, false, none⟩
def DMA_CH_ERR_ADDR_ADDR (k : Nat) : Fld := ⟨0x80130118 + 0x20 * k, 0, 32, .ro, 0x0, false, none⟩

/-! Fields of the registers of spec/13_clocks_power_reset.md. -/
def CLK_STAT_HSX_OK : Fld := ⟨0x80010000, 0, 1, .ro, 0x0, false, none⟩
def CLK_STAT_LSX_OK : Fld := ⟨0x80010000, 1, 1, .ro, 0x0, false, none⟩
def CLK_STAT_IRC_OK : Fld := ⟨0x80010000, 2, 1, .ro, 0x1, false, none⟩
def CLK_STAT_LRC_OK : Fld := ⟨0x80010000, 3, 1, .ro, 0x1, false, none⟩
def CLK_STAT_FAST_SRC : Fld := ⟨0x80010000, 4, 1, .ro, 0x1, false, none⟩
def CLK_STAT_AO_SRC : Fld := ⟨0x80010000, 5, 1, .ro, 0x1, false, none⟩
def CLK_STAT_PLL_LOCK : Fld := ⟨0x80010000, 6, 1, .ro, 0x0, false, none⟩
def CLK_STAT_CLK_FAIL : Fld := ⟨0x80010000, 8, 1, .w1c, 0x0, true, none⟩
def CLK_STAT_HSX_TO : Fld := ⟨0x80010000, 9, 1, .w1c, 0x0, true, none⟩
def CLK_STAT_LSX_TO : Fld := ⟨0x80010000, 10, 1, .w1c, 0x0, true, none⟩
def CLK_STAT_FORCED : Fld := ⟨0x80010000, 11, 1, .w1c, 0x0, true, none⟩
def CLK_STAT_GATE_ERR : Fld := ⟨0x80010000, 12, 1, .w1c, 0x0, false, none⟩
def CLK_FAIL_SRC_FAILED : Fld := ⟨0x80010004, 0, 4, .ro, 0x0, true, none⟩
def CLK_RATIO_RATIO : Fld := ⟨0x80010008, 0, 32, .ro, 0x0, false, none⟩
def CLK_GATE_EN : Fld := ⟨0x80010010, 0, 18, .rw, 0x0, false, (some .clocks)⟩
def CLK_GATE_PEND_PEND : Fld := ⟨0x80010014, 0, 18, .ro, 0x0, false, none⟩
def GATED_ACC_CNT_COUNT : Fld := ⟨0x80010018, 0, 16, .rc, 0x0, false, none⟩
def CLK_GATED_ADDR_ADDR : Fld := ⟨0x8001001C, 0, 32, .ro, 0x0, false, none⟩
def PWR_STAT_STATE : Fld := ⟨0x80020000, 0, 3, .ro, 0x2, false, none⟩
def PWR_STAT_BOOT_ERR : Fld := ⟨0x80020000, 3, 1, .ro, 0x0, false, none⟩
def PWR_STAT_REQ_ERR : Fld := ⟨0x80020000, 4, 1, .w1c, 0x0, false, none⟩
def PWR_STAT_VSUP_LOW : Fld := ⟨0x80020000, 5, 1, .w1c, 0x0, false, none⟩
def PWR_STAT_OVERTEMP : Fld := ⟨0x80020000, 6, 1, .w1c, 0x0, false, none⟩
def PWR_CTRL_GO_RUN : Fld := ⟨0x80020004, 0, 1, .w1s, 0x0, false, none⟩
def PWR_CTRL_GO_STANDBY : Fld := ⟨0x80020004, 1, 1, .w1s, 0x0, false, none⟩
def PWR_CTRL_GO_WATCH : Fld := ⟨0x80020004, 2, 1, .w1s, 0x0, false, none⟩
def PWR_DOM_ON : Fld := ⟨0x80020008, 0, 12, .ro, 0x1, false, none⟩
def PWR_DOM_REQ_REQ : Fld := ⟨0x8002000C, 1, 11, .rw, 0x0, false, (some .system)⟩
def PWR_RST_KEY : Fld := ⟨0x80020010, 0, 8, .wo, 0x0, false, none⟩
def PWR_RST_CAUSE_POR : Fld := ⟨0x80020014, 0, 1, .w1c, 0x1, false, none⟩
def PWR_RST_CAUSE_PIN : Fld := ⟨0x80020014, 1, 1, .w1c, 0x0, true, none⟩
def PWR_RST_CAUSE_SW : Fld := ⟨0x80020014, 2, 1, .w1c, 0x0, true, none⟩
def PWR_RST_CAUSE_WDT : Fld := ⟨0x80020014, 3, 1, .w1c, 0x0, true, none⟩
def PWR_RST_CAUSE_SAFETY : Fld := ⟨0x80020014, 4, 1, .w1c, 0x0, true, none⟩
def PWR_RST_CAUSE_CLOCK : Fld := ⟨0x80020014, 5, 1, .w1c, 0x0, true, none⟩
def PWR_RST_CAUSE_RESET_HELD_LONG : Fld := ⟨0x80020014, 6, 1, .w1c, 0x0, true, none⟩
def PWR_RST_CAUSE_HOLD_T : Fld := ⟨0x80020014, 16, 16, .ro, 0x0, true, none⟩
def PWR_RST_CNT_WARM : Fld := ⟨0x80020018, 0, 16, .rc, 0x0, true, none⟩
def PWR_WDT_FEED : Fld := ⟨0x80020020, 0, 8, .wo, 0x0, false, none⟩
def PWR_WDT_BAD_FEED : Fld := ⟨0x80020020, 8, 8, .rc, 0x0, false, none⟩
def PWR_WDT_LEFT_MS : Fld := ⟨0x80020020, 16, 16, .ro, 0x0, false, none⟩
def PWR_WDT_CFG_TIMEOUT_MS : Fld := ⟨0x80020024, 0, 14, .ro, 0x0, false, (some .system)⟩
def PWR_WDT_CFG_EN : Fld := ⟨0x80020024, 14, 1, .ro, 0x0, false, (some .system)⟩
def PWR_WAKE_GPIO0_EN : Fld := ⟨0x80020028, 0, 1, .rw, 0x0, true, none⟩
def PWR_WAKE_GPIO0_FALL : Fld := ⟨0x80020028, 1, 1, .rw, 0x0, true, none⟩
def PWR_WAKE_ALARM_EN : Fld := ⟨0x80020028, 2, 1, .rw, 0x0, true, none⟩
def PWR_ALARM_SECONDS : Fld := ⟨0x8002002C, 0, 32, .rw, 0x0, true, none⟩
def PWR_TEMP_TJ : Fld := ⟨0x80020030, 0, 16, .ro, 0x0, false, none⟩
def PWR_TEMP_TJ_MAX : Fld := ⟨0x80020030, 16, 16, .ro, 0x8000, true, none⟩
def PWR_VSUP_MV : Fld := ⟨0x80020034, 0, 16, .ro, 0x0, false, none⟩
def TST_CTRL_QUICK : Fld := ⟨0x80150000, 0, 1, .w1s, 0x0, false, none⟩
def TST_CTRL_ROUND : Fld := ⟨0x80150000, 1, 1, .w1s, 0x0, false, none⟩
def TST_STAT_TEST_DEFERRED : Fld := ⟨0x80150004, 0, 1, .w1c, 0x0, false, none⟩
def TST_STAT_RUNNING : Fld := ⟨0x80150004, 1, 1, .ro, 0x0, false, none⟩
def TST_STAT_FAIL : Fld := ⟨0x80150004, 2, 1, .w1c, 0x0, false, none⟩
def TST_STAT_BOOT_PASS : Fld := ⟨0x80150004, 3, 1, .ro, 0x0, false, none⟩
def TST_STAT_FAIL_UNIT : Fld := ⟨0x80150004, 8, 8, .ro, 0x0, false, none⟩
def TST_CFG_ROUND_S : Fld := ⟨0x80150008, 0, 16, .rw, 0x0, false, (some .system)⟩
def TST_CFG_SCRUB_S : Fld := ⟨0x80150008, 16, 12, .rw, 0x0, false, (some .system)⟩
def TST_COV_LOGIC_PCT : Fld := ⟨0x8015000C, 0, 8, .ro, 0x0, false, none⟩
def TST_COV_MEM_PCT : Fld := ⟨0x8015000C, 8, 8, .ro, 0x0, false, none⟩
def TST_COV_ROUND_AGE_S : Fld := ⟨0x8015000C, 16, 16, .ro, 0x0, false, none⟩
def TST_ECC_CNT_CORRECTED : Fld := ⟨0x80150010, 0, 16, .rc, 0x0, false, none⟩
def TST_ECC_CNT_TRANSIENT : Fld := ⟨0x80150010, 16, 16, .rc, 0x0, false, none⟩
def TST_ECC_LAST_LASTING : Fld := ⟨0x80150014, 0, 16, .rc, 0x0, false, none⟩
def TST_ECC_LAST_MEM : Fld := ⟨0x80150014, 16, 4, .ro, 0x0, false, none⟩
def TST_ECC_ADDR_ADDR : Fld := ⟨0x80150018, 0, 32, .ro, 0x0, false, none⟩

/-! Fields of the registers of spec/14_configuration_image.md. -/
def NVM_STAT_SLOT : Fld := ⟨0x80140000, 0, 1, .ro, 0x0, false, none⟩
def NVM_STAT_FALLBACK : Fld := ⟨0x80140000, 1, 1, .ro, 0x0, false, none⟩
def NVM_STAT_SIGNED : Fld := ⟨0x80140000, 2, 1, .ro, 0x0, false, none⟩
def NVM_STAT_QUAD : Fld := ⟨0x80140000, 3, 1, .ro, 0x0, false, none⟩
def NVM_STAT_BUSY : Fld := ⟨0x80140000, 4, 1, .ro, 0x0, false, none⟩
def NVM_STAT_CMD_ERR : Fld := ⟨0x80140000, 5, 1, .w1c, 0x0, false, none⟩
def NVM_STAT_WP_ERR : Fld := ⟨0x80140000, 6, 1, .w1c, 0x0, false, none⟩
def NVM_STAT_PROG_ERR : Fld := ⟨0x80140000, 7, 1, .w1c, 0x0, false, none⟩
def NVM_STAT_FAIL_A : Fld := ⟨0x80140000, 8, 4, .ro, 0x0, false, none⟩
def NVM_STAT_FAIL_B : Fld := ⟨0x80140000, 12, 4, .ro, 0x0, false, none⟩
def NVM_STAT_FAIL_SEC : Fld := ⟨0x80140000, 16, 4, .ro, 0x0, false, none⟩
def NVM_GEN_GEN : Fld := ⟨0x80140004, 0, 32, .ro, 0x0, false, none⟩
def NVM_DENSITY_KIB : Fld := ⟨0x80140008, 0, 18, .ro, 0x0, false, none⟩
def NVM_TRANS_CNT_COUNT : Fld := ⟨0x8014000C, 0, 16, .rc, 0x0, false, none⟩
def NVM_DIGEST_DIGEST (k : Nat) : Fld := ⟨0x80140010 + 0x4 * k, 0, 32, .ro, 0x0, false, none⟩
def NVM_CMD_OP : Fld := ⟨0x80140040, 0, 4, .rw, 0x0, false, none⟩
def NVM_CMD_LEN : Fld := ⟨0x80140040, 4, 9, .rw, 0x0, false, none⟩
def NVM_CMD_GO : Fld := ⟨0x80140040, 31, 1, .w1s, 0x0, false, none⟩
def NVM_ADDR_ADDR : Fld := ⟨0x80140044, 0, 27, .rw, 0x0, false, none⟩
def NVM_BUF_DATA (k : Nat) : Fld := ⟨0x80140100 + 0x4 * k, 0, 32, .rw, 0x0, false, none⟩
def NVM_FUSE_HASH_HASH (k : Nat) : Fld := ⟨0x80140200 + 0x4 * k, 0, 32, .ro, 0x0, false, none⟩
def NVM_FUSE_LOCK : Fld := ⟨0x80140220, 0, 1, .ro, 0x0, false, none⟩
def NVM_FUSE_PROG_WORD : Fld := ⟨0x80140224, 0, 4, .rw, 0x0, false, none⟩
def NVM_FUSE_PROG_GO : Fld := ⟨0x80140224, 31, 1, .w1s, 0x0, false, none⟩

/-! Fields of the registers of spec/15_register_index.md. -/
def SYS_PINFUNC_MODE (k : Nat) : Fld := ⟨0x80000100 + 0x4 * k, 0, 2, .rw, 0x0, false, (some .system)⟩
def SYS_PINFUNC_FUNC (k : Nat) : Fld := ⟨0x80000100 + 0x4 * k, 2, 3, .rw, 0x0, false, (some .system)⟩
def SYS_PINFUNC_PORT (k : Nat) : Fld := ⟨0x80000100 + 0x4 * k, 5, 4, .rw, 0x0, false, (some .system)⟩
def SYS_PINFUNC_INV (k : Nat) : Fld := ⟨0x80000100 + 0x4 * k, 9, 1, .rw, 0x0, false, (some .system)⟩
def SYS_PINFUNC_PULL (k : Nat) : Fld := ⟨0x80000100 + 0x4 * k, 10, 2, .rw, 0x0, false, (some .system)⟩
def GPIO_IN_IN : Fld := ⟨0x80160000, 0, 32, .ro, 0x0, false, none⟩
def GPIO_OUT_OUT : Fld := ⟨0x80160004, 0, 32, .rw, 0x0, false, none⟩
def GPIO_SET_SET : Fld := ⟨0x80160008, 0, 32, .wo, 0x0, false, none⟩
def GPIO_CLR_CLR : Fld := ⟨0x8016000C, 0, 32, .wo, 0x0, false, none⟩
def GPIO_RISE_RISE : Fld := ⟨0x80160010, 0, 32, .w1c, 0x0, false, none⟩
def GPIO_FALL_FALL : Fld := ⟨0x80160014, 0, 32, .w1c, 0x0, false, none⟩

end Sys2Proof.Machine.R

namespace Sys2Proof.Machine
open R

/-- The registers of the SYS block, by address. -/
def rowsSys : List RegRow := [
  ⟨0x80000000, 1, 0x0, 1, 0x0, [SYS_ID_DEVICE]⟩,
  ⟨0x80000004, 1, 0x0, 1, 0x0, [SYS_REV_MAJOR, SYS_REV_MINOR]⟩,
  ⟨0x80000100, 32, 0x4, 1, 0x0, [SYS_PINFUNC_MODE 0, SYS_PINFUNC_FUNC 0, SYS_PINFUNC_PORT 0, SYS_PINFUNC_INV 0, SYS_PINFUNC_PULL 0]⟩]

/-- The registers of the CLK block, by address. -/
def rowsClk : List RegRow := [
  ⟨0x80010000, 1, 0x0, 1, 0x0, [CLK_STAT_HSX_OK, CLK_STAT_LSX_OK, CLK_STAT_IRC_OK, CLK_STAT_LRC_OK, CLK_STAT_FAST_SRC, CLK_STAT_AO_SRC, CLK_STAT_PLL_LOCK, CLK_STAT_CLK_FAIL, CLK_STAT_HSX_TO, CLK_STAT_LSX_TO, CLK_STAT_FORCED, CLK_STAT_GATE_ERR]⟩,
  ⟨0x80010004, 1, 0x0, 1, 0x0, [CLK_FAIL_SRC_FAILED]⟩,
  ⟨0x80010008, 1, 0x0, 1, 0x0, [CLK_RATIO_RATIO]⟩,
  ⟨0x80010010, 1, 0x0, 1, 0x0, [CLK_GATE_EN]⟩,
  ⟨0x80010014, 1, 0x0, 1, 0x0, [CLK_GATE_PEND_PEND]⟩,
  ⟨0x80010018, 1, 0x0, 1, 0x0, [GATED_ACC_CNT_COUNT]⟩,
  ⟨0x8001001C, 1, 0x0, 1, 0x0, [CLK_GATED_ADDR_ADDR]⟩]

/-- The registers of the PWR block, by address. -/
def rowsPwr : List RegRow := [
  ⟨0x80020000, 1, 0x0, 1, 0x0, [PWR_STAT_STATE, PWR_STAT_BOOT_ERR, PWR_STAT_REQ_ERR, PWR_STAT_VSUP_LOW, PWR_STAT_OVERTEMP]⟩,
  ⟨0x80020004, 1, 0x0, 1, 0x0, [PWR_CTRL_GO_RUN, PWR_CTRL_GO_STANDBY, PWR_CTRL_GO_WATCH]⟩,
  ⟨0x80020008, 1, 0x0, 1, 0x0, [PWR_DOM_ON]⟩,
  ⟨0x8002000C, 1, 0x0, 1, 0x0, [PWR_DOM_REQ_REQ]⟩,
  ⟨0x80020010, 1, 0x0, 1, 0x0, [PWR_RST_KEY]⟩,
  ⟨0x80020014, 1, 0x0, 1, 0x0, [PWR_RST_CAUSE_POR, PWR_RST_CAUSE_PIN, PWR_RST_CAUSE_SW, PWR_RST_CAUSE_WDT, PWR_RST_CAUSE_SAFETY, PWR_RST_CAUSE_CLOCK, PWR_RST_CAUSE_RESET_HELD_LONG, PWR_RST_CAUSE_HOLD_T]⟩,
  ⟨0x80020018, 1, 0x0, 1, 0x0, [PWR_RST_CNT_WARM]⟩,
  ⟨0x80020020, 1, 0x0, 1, 0x0, [PWR_WDT_FEED, PWR_WDT_BAD_FEED, PWR_WDT_LEFT_MS]⟩,
  ⟨0x80020024, 1, 0x0, 1, 0x0, [PWR_WDT_CFG_TIMEOUT_MS, PWR_WDT_CFG_EN]⟩,
  ⟨0x80020028, 1, 0x0, 1, 0x0, [PWR_WAKE_GPIO0_EN, PWR_WAKE_GPIO0_FALL, PWR_WAKE_ALARM_EN]⟩,
  ⟨0x8002002C, 1, 0x0, 1, 0x0, [PWR_ALARM_SECONDS]⟩,
  ⟨0x80020030, 1, 0x0, 1, 0x0, [PWR_TEMP_TJ, PWR_TEMP_TJ_MAX]⟩,
  ⟨0x80020034, 1, 0x0, 1, 0x0, [PWR_VSUP_MV]⟩]

/-- The registers of the BOND block, by address. -/
def rowsBond : List RegRow := [
  ⟨0x80030000, 1, 0x0, 1, 0x0, [BOND_CRS_CTRL_SCHED_NEXT, BOND_CRS_CTRL_SW_GO]⟩,
  ⟨0x80030004, 1, 0x0, 1, 0x0, [BOND_CRS_STAT_SCHED_CUR, BOND_CRS_STAT_SW_LEFT, BOND_CRS_STAT_SW_ERR, BOND_CRS_STAT_PF_LATE, BOND_CRS_STAT_LOOP_LATE, BOND_CRS_STAT_SCHED_MISSING]⟩,
  ⟨0x80030008, 1, 0x0, 1, 0x0, [BOND_CRS_CNT_LO_CNT_LO]⟩,
  ⟨0x8003000C, 1, 0x0, 1, 0x0, [BOND_CRS_CNT_HI_CNT_HI]⟩,
  ⟨0x80030010, 1, 0x0, 1, 0x0, [BOND_CRS_PERIOD_PERIOD_NS]⟩,
  ⟨0x80030014, 1, 0x0, 1, 0x0, [BOND_CRS_TS_TS_NS]⟩,
  ⟨0x80030018, 1, 0x0, 1, 0x0, [BOND_CRS_TA_TA_NS]⟩,
  ⟨0x8003001C, 1, 0x0, 1, 0x0, [BOND_LOOP_LATE_CNT_COUNT]⟩,
  ⟨0x80030020, 1, 0x0, 1, 0x0, [BOND_PF_LATE_CNT_COUNT]⟩,
  ⟨0x80030040, 1, 0x0, 1, 0x0, [BOND_START_RANK, BOND_START_CAND, BOND_START_FAILS, BOND_START_HELD64, BOND_START_WAIT256, BOND_START_STATE, BOND_START_QUIET]⟩,
  ⟨0x80030044, 1, 0x0, 1, 0x0, [BOND_ENROL_LEFT]⟩]

/-- The registers of the RING block, by address. -/
def rowsRing : List RegRow := [
  ⟨0x80040000, 4, 0x10000, 1, 0x0, [RING_CFG_EN 0, RING_CFG_TOPO 0, RING_CFG_RATE 0]⟩,
  ⟨0x80040004, 4, 0x10000, 1, 0x0, [RING_STAT_STATE 0, RING_STAT_E_SYNC 0, RING_STAT_W_SYNC 0, RING_STAT_BYP 0, RING_STAT_BREAK 0, RING_STAT_EPOCH_AHEAD 0, RING_STAT_DRIFT 0, RING_STAT_SQUALL 0, RING_STAT_COLLIDE 0, RING_STAT_JOIN_OPEN 0, RING_STAT_OFF_SENT 0]⟩,
  ⟨0x80040008, 4, 0x10000, 1, 0x0, [RING_IRQ_EN_IE 0]⟩,
  ⟨0x8004000C, 4, 0x10000, 1, 0x0, [RING_HEAD_SRC 0, RING_HEAD_RANK 0, RING_HEAD_EPOCH_MAX 0]⟩,
  ⟨0x80040010, 4, 0x10000, 1, 0x0, [RING_LINK_E_DLY 0]⟩,
  ⟨0x80040014, 4, 0x10000, 1, 0x0, [RING_LINK_W_DLY 0]⟩,
  ⟨0x80040018, 4, 0x10000, 1, 0x0, [RING_HEAD_DLY_E_D 0]⟩,
  ⟨0x8004001C, 4, 0x10000, 1, 0x0, [RING_HEAD_DLY_W_D 0]⟩,
  ⟨0x80040020, 4, 0x10000, 1, 0x0, [RING_LOOP_E_LOOP 0]⟩,
  ⟨0x80040024, 4, 0x10000, 1, 0x0, [RING_LOOP_W_LOOP 0]⟩,
  ⟨0x80040028, 4, 0x10000, 1, 0x0, [RING_CRC_CNT_HCRC 0, RING_CRC_CNT_CRC 0]⟩,
  ⟨0x8004002C, 4, 0x10000, 1, 0x0, [RING_DISC_CNT_HDR 0, RING_DISC_CNT_EPOCH 0]⟩,
  ⟨0x80040030, 4, 0x10000, 1, 0x0, [RING_EDGE_CNT_COUNT 0]⟩,
  ⟨0x80040034, 4, 0x10000, 1, 0x0, [RING_LOST_CNT_LOST 0, RING_LOST_CNT_SQUALLS 0]⟩,
  ⟨0x80040038, 4, 0x10000, 1, 0x0, [RING_CODE_CNT_E 0, RING_CODE_CNT_W 0]⟩,
  ⟨0x8004003C, 4, 0x10000, 1, 0x0, [RING_JOIN_CNT_CLAIMS 0, RING_JOIN_CNT_REFUSED 0, RING_JOIN_CNT_TIMEOUTS 0]⟩,
  ⟨0x80040040, 4, 0x10000, 1, 0x0, [RING_NODE_SEL_NODE 0]⟩,
  ⟨0x80040044, 4, 0x10000, 1, 0x0, [RING_NODE_STAT_CLAIMED 0, RING_NODE_STAT_PRESENT 0, RING_NODE_STAT_DRIFT 0, RING_NODE_STAT_OFF 0, RING_NODE_STAT_KIND 0]⟩,
  ⟨0x80040048, 4, 0x10000, 1, 0x0, [RING_NODE_OFS_OFS_E 0, RING_NODE_OFS_OFS_W 0]⟩,
  ⟨0x8004004C, 4, 0x10000, 1, 0x0, [RING_NODE_CNT_LOST 0, RING_NODE_CNT_EDGE 0, RING_NODE_CNT_DRIFTS 0]⟩,
  ⟨0x80040050, 4, 0x10000, 1, 0x0, [RING_NODE_UID_LO_UID_LO 0]⟩,
  ⟨0x80040054, 4, 0x10000, 1, 0x0, [RING_NODE_UID_HI_UID_HI 0]⟩,
  ⟨0x80040058, 4, 0x10000, 1, 0x0, [RING_NODE_DLY_E_D 0]⟩,
  ⟨0x8004005C, 4, 0x10000, 1, 0x0, [RING_NODE_DLY_W_D 0]⟩,
  ⟨0x80040080, 4, 0x10000, 1, 0x0, [RING_BT_SEL_INDEX 0, RING_BT_SEL_SCHED 0, RING_BT_SEL_WORD 0, RING_BT_SEL_MAP 0]⟩,
  ⟨0x80040084, 4, 0x10000, 1, 0x0, [RING_BT_DATA_DATA 0]⟩,
  ⟨0x80040090, 4, 0x10000, 1, 0x0, [RING_MG_TX_DEST 0, RING_MG_TX_OP 0, RING_MG_TX_LEN 0, RING_MG_TX_GO 0]⟩,
  ⟨0x80040094, 4, 0x10000, 1, 0x0, [RING_MG_STAT_TX_ERR 0, RING_MG_STAT_RX_VALID 0, RING_MG_STAT_RX_OVR 0, RING_MG_STAT_RX_SRC 0, RING_MG_STAT_RX_OP 0, RING_MG_STAT_RX_LEN 0]⟩,
  ⟨0x800400A0, 4, 0x10000, 15, 0x4, [RING_MG_TXD_DATA 0 0]⟩,
  ⟨0x800400E0, 4, 0x10000, 15, 0x4, [RING_MG_RXD_DATA 0 0]⟩]

/-- The registers of the PF block, by address. -/
def rowsPf : List RegRow := [
  ⟨0x80080000, 1, 0x0, 1, 0x0, [PF_STAT_RUNNING, PF_STAT_PORT_ERR]⟩,
  ⟨0x80080004, 1, 0x0, 1, 0x0, [PF_IRQ_EN_DONE_IE, PF_IRQ_EN_FAULT_IE, PF_IRQ_EN_CMD_IE]⟩,
  ⟨0x80080010, 4, 0x10, 1, 0x0, [PF_CMD_OP_OPCODE 0, PF_CMD_OP_TARGET 0, PF_CMD_OP_IS_GROUP 0, PF_CMD_OP_GO 0]⟩,
  ⟨0x80080014, 4, 0x10, 1, 0x0, [PF_CMD_ARG0_ARG0 0]⟩,
  ⟨0x80080018, 4, 0x10, 1, 0x0, [PF_CMD_ARG1_ARG1 0]⟩,
  ⟨0x8008001C, 4, 0x10, 1, 0x0, [PF_CMD_STAT_RESULT 0, PF_CMD_STAT_COURSE 0]⟩,
  ⟨0x80080080, 8, 0x4, 1, 0x0, [PF_DONE_DONE 0]⟩,
  ⟨0x800800A0, 8, 0x4, 1, 0x0, [PF_FAULT_FAULT 0]⟩,
  ⟨0x800800C0, 1, 0x0, 1, 0x0, [PF_GRP_DONE_GRP_DONE]⟩]

/-- The registers of the LE block, by address. -/
def rowsLe : List RegRow := [
  ⟨0x80091000, 48, 0x4, 1, 0x0, [LE_AXMAP_ENGINE_0 0, LE_AXMAP_ENGINE_1 0, LE_AXMAP_ENGINE_2 0, LE_AXMAP_ENGINE_3 0, LE_AXMAP_ASSIGNED_0 0, LE_AXMAP_ASSIGNED_1 0, LE_AXMAP_ASSIGNED_2 0, LE_AXMAP_ASSIGNED_3 0]⟩,
  ⟨0x800910C0, 1, 0x0, 1, 0x0, [LE_UPD_CTRL_AXIS, LE_UPD_CTRL_COURSE, LE_UPD_CTRL_GO]⟩,
  ⟨0x800910C4, 1, 0x0, 1, 0x0, [LE_UPD_STAT_RESULT, LE_UPD_STAT_UPD_ERR, LE_UPD_STAT_COURSE]⟩,
  ⟨0x800910D0, 6, 0x4, 1, 0x0, [LE_LOOPFLT_LOOPFLT 0]⟩,
  ⟨0x800910E8, 1, 0x0, 1, 0x0, [LE_NONFIN_CNT_COUNT]⟩,
  ⟨0x800910EC, 1, 0x0, 1, 0x0, [LE_HELD_CNT_COUNT]⟩,
  ⟨0x80090000, 12, 0x40, 1, 0x0, [LE_ENG_CTRL_START 0, LE_ENG_CTRL_HALT_REQ 0]⟩,
  ⟨0x80090004, 12, 0x40, 1, 0x0, [LE_ENG_STAT_STATE 0, LE_ENG_STAT_AWAKE 0, LE_ENG_STAT_DIG_PART 0, LE_ENG_STAT_ERR_CODE 0, LE_ENG_STAT_QDEPTH 0]⟩,
  ⟨0x80090008, 12, 0x40, 1, 0x0, [LE_ENG_ENTRY_ENTRY 0]⟩,
  ⟨0x8009000C, 12, 0x40, 1, 0x0, [LE_ENG_PC_PC 0]⟩,
  ⟨0x80090010, 12, 0x40, 1, 0x0, [LE_ENG_FLAGS_FLAGS 0]⟩,
  ⟨0x80090014, 12, 0x40, 1, 0x0, [LE_ENG_DIG_LO_DIG_LO 0]⟩,
  ⟨0x80090018, 12, 0x40, 1, 0x0, [LE_ENG_DIG_HI_DIG_HI 0]⟩,
  ⟨0x8009001C, 12, 0x40, 1, 0x0, [LE_ENG_DIG_CRS_DIG_CRS 0]⟩,
  ⟨0x80090020, 12, 0x40, 1, 0x0, [LE_ENG_EVCNT_EVREPL 0, LE_ENG_EVCNT_EVDROP 0]⟩,
  ⟨0x80090024, 12, 0x40, 1, 0x0, [LE_ENG_ERR_ADDR_ADDR 0]⟩,
  ⟨0x80090028, 12, 0x40, 1, 0x0, [LE_ENG_BUSY_CYCLES 0]⟩,
  ⟨0x80090300, 1, 0x0, 1, 0x0, [LE_ENG_ERR_ERR]⟩,
  ⟨0x80090304, 1, 0x0, 1, 0x0, [LE_WIN_ERR_CNT_COUNT]⟩]

/-- The registers of the STP block, by address. -/
def rowsStp : List RegRow := [
  ⟨0x800A0000, 48, 0x40, 1, 0x0, [STP_CTRL_CAL_GO 0]⟩,
  ⟨0x800A0004, 48, 0x40, 1, 0x0, [STP_CFG_MODE 0, STP_CFG_MRES 0, STP_CFG_TABLE 0, STP_CFG_DECAY 0, STP_CFG_ENC_EN 0, STP_CFG_ENC_DIR 0, STP_CFG_STALL_FLT 0, STP_CFG_DIR_POL 0, STP_CFG_EN_POL 0, STP_CFG_XFLT_POL 0]⟩,
  ⟨0x800A0008, 48, 0x40, 1, 0x0, [STP_CUR_FS_CODE 0, STP_CUR_RUN_SCALE 0, STP_CUR_HOLD_SCALE 0]⟩,
  ⟨0x800A000C, 48, 0x40, 1, 0x0, [STP_CHOP0_BLANK 0, STP_CHOP0_TOFF_MIN 0, STP_CHOP0_HYST 0, STP_CHOP0_FD_TIME 0]⟩,
  ⟨0x800A0010, 48, 0x40, 1, 0x0, [STP_CHOP1_CMP_DLY 0, STP_CHOP1_ADAPT 0, STP_CHOP1_DELTA_MAX 0, STP_CHOP1_OC_CODE 0]⟩,
  ⟨0x800A0014, 48, 0x40, 1, 0x0, [STP_CHOP2_TON_MAX 0, STP_CHOP2_OPEN_MIN 0, STP_CHOP2_HOLD_DELAY 0]⟩,
  ⟨0x800A0018, 48, 0x40, 1, 0x0, [STP_STEPDIR_STEP_W 0, STP_STEPDIR_DIR_SU 0]⟩,
  ⟨0x800A001C, 48, 0x40, 1, 0x0, [STP_ENC_NUM_ENC_NUM 0]⟩,
  ⟨0x800A0020, 48, 0x40, 1, 0x0, [STP_ENC_DEN_ENC_DEN 0]⟩,
  ⟨0x800A0024, 48, 0x40, 1, 0x0, [STP_STALL_STALL_THR 0, STP_STALL_STALL_STEPS 0]⟩,
  ⟨0x800A0028, 48, 0x40, 1, 0x0, [STP_STALL_VMIN_STALL_VMIN 0]⟩,
  ⟨0x800A002C, 48, 0x40, 1, 0x0, [STP_STALL_ERR_STALL_ERR 0]⟩,
  ⟨0x800A0030, 48, 0x40, 1, 0x0, [STP_STAT_STATE 0, STP_STAT_STALL 0, STP_STAT_UNCAL 0, STP_STAT_TRANS 0, STP_STAT_FLT_CODE 0, STP_STAT_SLOPE_AVG 0]⟩,
  ⟨0x800A0034, 48, 0x40, 1, 0x0, [STP_DELTA_DELTA_A 0, STP_DELTA_DELTA_B 0]⟩,
  ⟨0x800A0038, 48, 0x40, 1, 0x0, [STP_MON_VALLEY_A 0, STP_MON_VALLEY_B 0]⟩,
  ⟨0x800A003C, 48, 0x40, 1, 0x0, [STP_CAL_CMP_OFS_A 0, STP_CAL_CMP_OFS_B 0, STP_CAL_ADC_OFS_A 0, STP_CAL_ADC_OFS_B 0, STP_CAL_CAL_RES 0]⟩,
  ⟨0x800A0C00, 1, 0x0, 1, 0x0, [STP_SAFE_OFF0_SAFE_OFF]⟩,
  ⟨0x800A0C04, 1, 0x0, 1, 0x0, [STP_SAFE_OFF1_SAFE_OFF]⟩,
  ⟨0x800A0C08, 1, 0x0, 1, 0x0, [STP_FLT0_FLT]⟩,
  ⟨0x800A0C0C, 1, 0x0, 1, 0x0, [STP_FLT1_FLT]⟩,
  ⟨0x800A0C10, 1, 0x0, 1, 0x0, [STP_TRANS_CNT_COUNT]⟩,
  ⟨0x800A0C14, 1, 0x0, 1, 0x0, [STP_DRIVE_PERMIT, STP_DRIVE_PEER_ACT, STP_DRIVE_FENCED]⟩,
  ⟨0x800A1000, 3, 0x1000, 1024, 0x4, [STP_MTAB_ENTRY 0 0]⟩,
  ⟨0x800A4000, 1024, 0x4, 1, 0x0, [STP_MTAB0_ENTRY 0]⟩]

/-- The registers of the PIM block, by address. -/
def rowsPim : List RegRow := [
  ⟨0x800B0000, 1, 0x0, 1, 0x0, [PIM_STAT_LOG_OVF, PIM_STAT_OUT_SYNC, PIM_STAT_RESYNC]⟩,
  ⟨0x800B0010, 1, 0x0, 1, 0x0, [PIM_RNG_SEL_INDEX, PIM_RNG_SEL_WORD]⟩,
  ⟨0x800B0014, 1, 0x0, 1, 0x0, [PIM_RNG_DATA_DATA]⟩,
  ⟨0x800B0018, 1, 0x0, 1, 0x0, [PIM_SEG_SEL_MAP, PIM_SEG_SEL_RING, PIM_SEG_SEL_WORD]⟩,
  ⟨0x800B001C, 1, 0x0, 1, 0x0, [PIM_SEG_DATA_DATA]⟩,
  ⟨0x800B0020, 1, 0x0, 1, 0x0, [PIM_WR_CNT_REJ, PIM_WR_CNT_SHADOW]⟩,
  ⟨0x800B0024, 1, 0x0, 1, 0x0, [PIM_NONFIN_CNT_COUNT]⟩,
  ⟨0x800B0028, 1, 0x0, 1, 0x0, [PIM_LOG_LAST, PIM_LOG_OVF_CNT]⟩,
  ⟨0x800B002C, 1, 0x0, 1, 0x0, [PIM_RANGES_COUNT]⟩,
  ⟨0x800B0040, 8, 0x4, 1, 0x0, [PIM_REQ_KIB 0, PIM_REQ_WAIT_MAX 0]⟩]

/-- The registers of the CAP block, by address. -/
def rowsCap : List RegRow := [
  ⟨0x800C0000, 1, 0x0, 1, 0x0, [CAP_STAT_DONE, CAP_STAT_TRIG]⟩,
  ⟨0x800C0004, 1, 0x0, 1, 0x0, [CAP_IRQ_EN_DONE_IE, CAP_IRQ_EN_TRIG_IE]⟩,
  ⟨0x800C0008, 1, 0x0, 1, 0x0, [CAP_CASC_OUT_SET, CAP_CASC_OUT_EN, CAP_CASC_IN_SEEN, CAP_CASC_IN_POS]⟩,
  ⟨0x800C000C, 1, 0x0, 1, 0x0, [CAP_CASC_T_LO_T_LO]⟩,
  ⟨0x800C0010, 1, 0x0, 1, 0x0, [CAP_CASC_T_HI_T_HI]⟩,
  ⟨0x800C0014, 1, 0x0, 1, 0x0, [CAP_TRIGOUT_SET0, CAP_TRIGOUT_SET1, CAP_TRIGOUT_SET2, CAP_TRIGOUT_SET3, CAP_TRIGOUT_EN0, CAP_TRIGOUT_EN1, CAP_TRIGOUT_EN2, CAP_TRIGOUT_EN3]⟩,
  ⟨0x800C0100, 8, 0x80, 1, 0x0, [CAP_SET_CTRL_ARM 0, CAP_SET_CTRL_ABORT 0, CAP_SET_CTRL_FORCE 0]⟩,
  ⟨0x800C0104, 8, 0x80, 1, 0x0, [CAP_SET_CFG_MODE 0, CAP_SET_CFG_CLK 0, CAP_SET_CFG_TRIG_QUAL 0, CAP_SET_CFG_COMB 0, CAP_SET_CFG_MASK_ACT 0, CAP_SET_CFG_STR_DMA 0]⟩,
  ⟨0x800C0108, 8, 0x80, 1, 0x0, [CAP_SET_CHANS_CHANS 0]⟩,
  ⟨0x800C010C, 8, 0x80, 1, 0x0, [CAP_SET_PERIOD_PER 0]⟩,
  ⟨0x800C0110, 8, 0x80, 1, 0x0, [CAP_SET_PRE_PRE 0]⟩,
  ⟨0x800C0114, 8, 0x80, 1, 0x0, [CAP_SET_POST_POST 0]⟩,
  ⟨0x800C0118, 8, 0x80, 1, 0x0, [CAP_SET_SEGLEN_SEG_LEN 0]⟩,
  ⟨0x800C011C, 8, 0x80, 1, 0x0, [CAP_SET_SEGS_SEGS 0]⟩,
  ⟨0x800C0120, 8, 0x80, 1, 0x0, [CAP_SET_BASE_BASE 0]⟩,
  ⟨0x800C0124, 8, 0x80, 1, 0x0, [CAP_SET_SIZE_SIZE 0]⟩,
  ⟨0x800C0128, 8, 0x80, 1, 0x0, [CAP_SET_TRIGA_KIND 0, CAP_SET_TRIGA_CH 0, CAP_SET_TRIGA_PIN_FALL 0, CAP_SET_TRIGA_AXIS 0, CAP_SET_TRIGA_EVT 0]⟩,
  ⟨0x800C012C, 8, 0x80, 1, 0x0, [CAP_SET_TRIGB_KIND 0, CAP_SET_TRIGB_CH 0, CAP_SET_TRIGB_PIN_FALL 0, CAP_SET_TRIGB_AXIS 0, CAP_SET_TRIGB_EVT 0]⟩,
  ⟨0x800C0130, 8, 0x80, 1, 0x0, [CAP_SET_A_P1_P 0]⟩,
  ⟨0x800C0134, 8, 0x80, 1, 0x0, [CAP_SET_A_P2_P 0]⟩,
  ⟨0x800C0138, 8, 0x80, 1, 0x0, [CAP_SET_B_P1_P 0]⟩,
  ⟨0x800C013C, 8, 0x80, 1, 0x0, [CAP_SET_B_P2_P 0]⟩,
  ⟨0x800C0140, 8, 0x80, 1, 0x0, [CAP_SET_STAT_STATE 0, CAP_SET_STAT_ARM_ERR 0, CAP_SET_STAT_ARM_CODE 0, CAP_SET_STAT_VIOL 0, CAP_SET_STAT_OVF 0, CAP_SET_STAT_ABORTED 0, CAP_SET_STAT_NTA 0]⟩,
  ⟨0x800C0144, 8, 0x80, 1, 0x0, [CAP_SET_SEGCNT_COUNT 0]⟩,
  ⟨0x800C0148, 8, 0x80, 1, 0x0, [CAP_SET_MISS_CNT_MISSED_TRIG 0, CAP_SET_MISS_CNT_EARLY_IGN 0]⟩,
  ⟨0x800C014C, 8, 0x80, 1, 0x0, [CAP_SET_MISS_T_LO_T_LO 0]⟩,
  ⟨0x800C0150, 8, 0x80, 1, 0x0, [CAP_SET_MISS_T_HI_T_HI 0]⟩,
  ⟨0x800C0800, 32, 0x20, 1, 0x0, [CAP_CH_SRC_KIND 0, CAP_CH_SRC_ITEM 0, CAP_CH_SRC_SIG 0]⟩,
  ⟨0x800C0804, 32, 0x20, 1, 0x0, [CAP_CH_TRIM_TRIM 0]⟩,
  ⟨0x800C0808, 32, 0x20, 1, 0x0, [CAP_CH_AUTO_AUTO 0]⟩,
  ⟨0x800C080C, 32, 0x20, 1, 0x0, [CAP_CH_Q_Q 0]⟩,
  ⟨0x800C0810, 32, 0x20, 1, 0x0, [CAP_CH_MASK_ADDR_ADDR 0]⟩,
  ⟨0x800C0814, 32, 0x20, 1, 0x0, [CAP_CH_MASK_CFG_LEN 0, CAP_CH_MASK_CFG_CYCLIC 0]⟩]

/-- The registers of the SAF block, by address. -/
def rowsSaf : List RegRow := [
  ⟨0x800D0000, 1, 0x0, 1, 0x0, [SAF_STAT_STATE, SAF_STAT_SHADOW, SAF_STAT_FORCED_OFF, SAF_STAT_SAFE_DIV, SAF_STAT_ISL_CODE]⟩,
  ⟨0x800D0004, 1, 0x0, 1, 0x0, [SAF_CMD_OP, SAF_CMD_ARG, SAF_CMD_GO]⟩,
  ⟨0x800D0008, 1, 0x0, 1, 0x0, [SAF_RESP_RESULT, SAF_RESP_CYCLE]⟩,
  ⟨0x800D000C, 1, 0x0, 1, 0x0, [SAF_CYCLE_COUNT]⟩,
  ⟨0x800D0010, 1, 0x0, 1, 0x0, [SAF_SI_SI]⟩,
  ⟨0x800D0014, 1, 0x0, 1, 0x0, [SAF_INFLT_FLT]⟩,
  ⟨0x800D0018, 1, 0x0, 1, 0x0, [SAF_SO_ON, SAF_SO_FB]⟩,
  ⟨0x800D001C, 1, 0x0, 1, 0x0, [SAF_OUTFLT_SO, SAF_OUTFLT_KO, SAF_OUTFLT_TP]⟩,
  ⟨0x800D0020, 1, 0x0, 1, 0x0, [SAF_KO_ON, SAF_KO_KF]⟩,
  ⟨0x800D0024, 1, 0x0, 1, 0x0, [SAF_CONN0_WD]⟩,
  ⟨0x800D0028, 1, 0x0, 1, 0x0, [SAF_CONN1_WD]⟩,
  ⟨0x800D002C, 1, 0x0, 1, 0x0, [SAF_VIOL0_VIOL]⟩,
  ⟨0x800D0030, 1, 0x0, 1, 0x0, [SAF_VIOL1_VIOL]⟩,
  ⟨0x800D0034, 1, 0x0, 1, 0x0, [SAF_NS_NS]⟩,
  ⟨0x800D0038, 1, 0x0, 1, 0x0, [SAF_CFG_CRC_CRC]⟩,
  ⟨0x800D003C, 1, 0x0, 1, 0x0, [SAF_FW_VER_VER]⟩,
  ⟨0x800D0040, 1, 0x0, 1, 0x0, [SAF_DIAG_TRANS, SAF_DIAG_REC_IGN]⟩,
  ⟨0x800D0044, 1, 0x0, 1, 0x0, [SAF_BLK_SEL_BLOCK]⟩,
  ⟨0x800D0048, 1, 0x0, 1, 0x0, [SAF_BLK_OUT_OUT]⟩]

/-- The registers of the MTR block, by address. -/
def rowsMtr : List RegRow := [
  ⟨0x800E0000, 1, 0x0, 1, 0x0, [MTR_CTRL_HANDOVER]⟩,
  ⟨0x800E0004, 1, 0x0, 1, 0x0, [MTR_STAT_MEMBER, MTR_STAT_ROLE, MTR_STAT_LINK_UP, MTR_STAT_PAIR_ACT, MTR_STAT_PEER_ACT, MTR_STAT_SOLO, MTR_STAT_DIVERGENCE, MTR_STAT_PEER_CONFLICT, MTR_STAT_HO_ERR, MTR_STAT_CLAIM_TIE, MTR_STAT_LINK_LOST, MTR_STAT_EPOCH_LOST, MTR_STAT_REV_DIFF, MTR_STAT_IMG_DIFF, MTR_STAT_TEST_RUN]⟩,
  ⟨0x800E0008, 1, 0x0, 1, 0x0, [MTR_LEASE_LEASE]⟩,
  ⟨0x800E000C, 1, 0x0, 1, 0x0, [MTR_EPOCH_EPOCH, MTR_EPOCH_PEER_EPOCH]⟩,
  ⟨0x800E0010, 1, 0x0, 1, 0x0, [MTR_DIG_CMP_COMPARED, MTR_DIG_CMP_EXCLUDED]⟩,
  ⟨0x800E0014, 1, 0x0, 1, 0x0, [MTR_DIV_CNT_MISMATCH, MTR_DIV_CNT_DIVERGENCES]⟩,
  ⟨0x800E0018, 1, 0x0, 1, 0x0, [MTR_LINK_CNT_RETRIED, MTR_LINK_CNT_LASTING]⟩,
  ⟨0x800E001C, 1, 0x0, 1, 0x0, [MTR_COPY_BYTES]⟩,
  ⟨0x800E0020, 1, 0x0, 1, 0x0, [MTR_SO_CNT_CLAIMS, MTR_SO_CNT_RELEASES]⟩,
  ⟨0x800E0100, 1, 0x0, 1, 0x0, [WX_STAT_VALID, WX_STAT_READY, WX_STAT_OUT_SYNC, WX_STAT_JNL_SYNC, WX_STAT_SAFE_ISL, WX_STAT_UNHEALTHY, WX_STAT_TEST_RES, WX_STAT_AGE_MS, WX_STAT_SEQ]⟩,
  ⟨0x800E0104, 1, 0x0, 1, 0x0, [WX_COV_LOGIC_PCT, WX_COV_MEM_PCT, WX_COV_ROUND_S]⟩,
  ⟨0x800E0108, 1, 0x0, 1, 0x0, [WX_DIV_MISMATCH, WX_DIV_SAFE_DIV]⟩,
  ⟨0x800E010C, 1, 0x0, 1, 0x0, [WX_ECC_CORRECTED, WX_ECC_TRANSIENT]⟩,
  ⟨0x800E0110, 1, 0x0, 1, 0x0, [WX_TEMP_TJ_MAX, WX_TEMP_TJ_AVG]⟩,
  ⟨0x800E0200, 1, 0x0, 1, 0x0, [JNL_STAT_USED, JNL_STAT_SYNCED, JNL_STAT_LOST]⟩,
  ⟨0x800E0204, 1, 0x0, 1, 0x0, [JNL_NEXT_INDEX, JNL_NEXT_AVAIL]⟩,
  ⟨0x800E0208, 1, 0x0, 1, 0x0, [JNL_TAKE_TAKE]⟩,
  ⟨0x800E020C, 1, 0x0, 1, 0x0, [JNL_DONE_INDEX, JNL_DONE_RES_LEN, JNL_DONE_GO]⟩,
  ⟨0x800E0210, 1, 0x0, 1, 0x0, [JNL_RES_ADDR_ADDR]⟩,
  ⟨0x800E0214, 1, 0x0, 1, 0x0, [JNL_ERR_RESULT]⟩,
  ⟨0x800E0218, 1, 0x0, 1, 0x0, [JNL_CL_SEL_SLOT]⟩,
  ⟨0x800E021C, 1, 0x0, 1, 0x0, [JNL_CL_DATA0_CLIENT, JNL_CL_DATA0_USED]⟩,
  ⟨0x800E0220, 1, 0x0, 1, 0x0, [JNL_CL_DATA1_NEXT]⟩]

/-- The registers of the HST block, by address. -/
def rowsHst : List RegRow := [
  ⟨0x800F0000, 1, 0x0, 1, 0x0, [HST_STAT_LINK, HST_STAT_SGMII_SYNC, HST_STAT_ACTIVE]⟩,
  ⟨0x800F0004, 1, 0x0, 1, 0x0, [HST_IP_IP]⟩,
  ⟨0x800F0008, 1, 0x0, 1, 0x0, [HST_MASK_MASK]⟩,
  ⟨0x800F000C, 1, 0x0, 1, 0x0, [HST_GW_GW]⟩,
  ⟨0x800F0010, 1, 0x0, 1, 0x0, [HST_MAC_LO_MAC_LO]⟩,
  ⟨0x800F0014, 1, 0x0, 1, 0x0, [HST_MAC_HI_MAC_HI, HST_MAC_HI_DSCP]⟩,
  ⟨0x800F0018, 1, 0x0, 1, 0x0, [HST_RX_CNT_GOOD, HST_RX_CNT_BAD]⟩,
  ⟨0x800F001C, 1, 0x0, 1, 0x0, [HST_DROP_CNT_FIFO, HST_DROP_CNT_NOADDR]⟩,
  ⟨0x800F0020, 1, 0x0, 1, 0x0, [HST_MDIO_DATA, HST_MDIO_REG, HST_MDIO_PHY, HST_MDIO_OP, HST_MDIO_GO]⟩,
  ⟨0x800F0030, 1, 0x0, 1, 0x0, [HST_FWQ_RXBASE_BASE]⟩,
  ⟨0x800F0034, 1, 0x0, 1, 0x0, [HST_FWQ_RXPTR_HEAD, HST_FWQ_RXPTR_TAIL, HST_FWQ_RXPTR_RX_OVF]⟩,
  ⟨0x800F0038, 1, 0x0, 1, 0x0, [HST_FWQ_TXBASE_BASE]⟩,
  ⟨0x800F003C, 1, 0x0, 1, 0x0, [HST_FWQ_TXPTR_HEAD, HST_FWQ_TXPTR_TAIL]⟩]

/-- The registers of the CAS block, by address. -/
def rowsCas : List RegRow := [
  ⟨0x80100000, 1, 0x0, 1, 0x0, [CAS_CFG_ROOT, CAS_CFG_POS, CAS_CFG_TOPO, CAS_CFG_EN]⟩,
  ⟨0x80100004, 1, 0x0, 1, 0x0, [CAS_STAT_STATE, CAS_STAT_A_SYNC, CAS_STAT_B_SYNC, CAS_STAT_BYP, CAS_STAT_ALIGNED, CAS_STAT_MARK_LOST, CAS_STAT_BREAK, CAS_STAT_PLAN_ERR, CAS_STAT_PLANNED]⟩,
  ⟨0x80100008, 1, 0x0, 1, 0x0, [CAS_ALIGN_OFS]⟩,
  ⟨0x8010000C, 1, 0x0, 1, 0x0, [CAS_LINK_A_DLY]⟩,
  ⟨0x80100010, 1, 0x0, 1, 0x0, [CAS_LINK_B_DLY]⟩,
  ⟨0x80100014, 1, 0x0, 1, 0x0, [CAS_ROOT_DLY_D]⟩,
  ⟨0x80100018, 1, 0x0, 1, 0x0, [CAS_PRESENT0_PRESENT]⟩,
  ⟨0x8010001C, 1, 0x0, 1, 0x0, [CAS_PRESENT1_PRESENT]⟩,
  ⟨0x80100020, 1, 0x0, 1, 0x0, [CAS_STILL0_STILL]⟩,
  ⟨0x80100024, 1, 0x0, 1, 0x0, [CAS_STILL1_STILL]⟩,
  ⟨0x80100028, 1, 0x0, 1, 0x0, [CAS_CNT_CRC, CAS_CNT_LOST]⟩,
  ⟨0x8010002C, 1, 0x0, 1, 0x0, [CAS_MSG_CNT_FWD, CAS_MSG_CNT_NO_DEV]⟩,
  ⟨0x80100030, 1, 0x0, 1, 0x0, [CAS_BOOT_ROLE, CAS_BOOT_CHAIN_POS, CAS_BOOT_COUNT, CAS_BOOT_FAIL]⟩]

/-- The registers of the TIM block, by address. -/
def rowsTim : List RegRow := [
  ⟨0x80110000, 1, 0x0, 1, 0x0, [TIM_NOW_LO_NOW_LO]⟩,
  ⟨0x80110004, 1, 0x0, 1, 0x0, [TIM_NOW_HI_NOW_HI]⟩,
  ⟨0x80110008, 1, 0x0, 1, 0x0, [TIM_ADJ_ADJ]⟩,
  ⟨0x8011000C, 1, 0x0, 1, 0x0, [TIM_STAT_STATE, TIM_STAT_STEPPED, TIM_STAT_TIME_JUMP, TIM_STAT_DEGRADED, TIM_STAT_MASTER_CHG]⟩,
  ⟨0x80110010, 1, 0x0, 1, 0x0, [TIM_OFS_OFS]⟩,
  ⟨0x80110014, 1, 0x0, 1, 0x0, [TIM_MPD_MPD]⟩,
  ⟨0x80110018, 1, 0x0, 1, 0x0, [TIM_CFG_DOMAIN, TIM_CFG_JUMP_TH, TIM_CFG_PTP_EN]⟩,
  ⟨0x8011001C, 1, 0x0, 1, 0x0, [TIM_PHY_CORR_PHY_RX_NS, TIM_PHY_CORR_PHY_TX_NS]⟩,
  ⟨0x80110020, 1, 0x0, 1, 0x0, [TIM_MASTER_LO_ID_LO]⟩,
  ⟨0x80110024, 1, 0x0, 1, 0x0, [TIM_MASTER_HI_ID_HI]⟩,
  ⟨0x80110028, 1, 0x0, 1, 0x0, [TIM_STEP_CNT_COUNT, TIM_STEP_CNT_JUMPS]⟩]

/-- The registers of the SCH block, by address. -/
def rowsSch : List RegRow := [
  ⟨0x80120000, 1, 0x0, 1, 0x0, [SCH_TCB_BASE_BASE]⟩,
  ⟨0x80120004, 1, 0x0, 1, 0x0, [SCH_CORE_RUN_RUN0, SCH_CORE_RUN_RUN]⟩,
  ⟨0x80120010, 4, 0x8, 1, 0x0, [SCH_OP_THREAD 0, SCH_OP_OP 0]⟩,
  ⟨0x80120014, 4, 0x8, 1, 0x0, [SCH_RES_RESULT 0, SCH_RES_THREAD 0]⟩,
  ⟨0x80120030, 4, 0x4, 1, 0x0, [SCH_CUR_THREAD 0]⟩,
  ⟨0x80120040, 4, 0x4, 1, 0x0, [SCH_IRQ_EN_EN 0]⟩,
  ⟨0x80120050, 1, 0x0, 1, 0x0, [SCH_IRQ_PEND_ASSERTED]⟩,
  ⟨0x80120054, 4, 0x4, 1, 0x0, [SCH_IRQ_CLAIM_SOURCE 0]⟩,
  ⟨0x80120064, 1, 0x0, 1, 0x0, [SCH_EVT_COURSE]⟩,
  ⟨0x80120068, 1, 0x0, 1, 0x0, [SCH_MSIP_MSIP]⟩,
  ⟨0x80120080, 4, 0x8, 1, 0x0, [SCH_TCMP_LO_TCMP_LO 0]⟩,
  ⟨0x80120084, 4, 0x8, 1, 0x0, [SCH_TCMP_HI_TCMP_HI 0]⟩]

/-- The registers of the DMA block, by address. -/
def rowsDma : List RegRow := [
  ⟨0x80130000, 1, 0x0, 1, 0x0, [DMA_CTRL_RECOVER]⟩,
  ⟨0x80130004, 1, 0x0, 1, 0x0, [DMA_STAT_HALTED, DMA_STAT_FAULT, DMA_STAT_OUTST]⟩,
  ⟨0x80130008, 1, 0x0, 1, 0x0, [DMA_HALF_HALF]⟩,
  ⟨0x8013000C, 1, 0x0, 1, 0x0, [DMA_FULL_FULL]⟩,
  ⟨0x80130010, 1, 0x0, 1, 0x0, [DMA_ERR_ERR]⟩,
  ⟨0x80130014, 1, 0x0, 1, 0x0, [DMA_TRANS_CNT_COUNT]⟩,
  ⟨0x80130018, 1, 0x0, 1, 0x0, [DMA_FAULT_ADDR_ADDR]⟩,
  ⟨0x80130100, 32, 0x20, 1, 0x0, [DMA_CH_CTRL_START 0, DMA_CH_CTRL_ABORT 0]⟩,
  ⟨0x80130104, 32, 0x20, 1, 0x0, [DMA_CH_CFG_PRIO 0, DMA_CH_CFG_REQ 0, DMA_CH_CFG_HALF_IE 0, DMA_CH_CFG_FULL_IE 0, DMA_CH_CFG_ERR_IE 0]⟩,
  ⟨0x80130108, 32, 0x20, 1, 0x0, [DMA_CH_DESC_DESC 0]⟩,
  ⟨0x8013010C, 32, 0x20, 1, 0x0, [DMA_CH_STAT_STATE 0, DMA_CH_STAT_ERR_CODE 0, DMA_CH_STAT_NTA 0, DMA_CH_STAT_REQ_OVF 0, DMA_CH_STAT_PEND 0]⟩,
  ⟨0x80130110, 32, 0x20, 1, 0x0, [DMA_CH_CUR_CUR 0]⟩,
  ⟨0x80130114, 32, 0x20, 1, 0x0, [DMA_CH_COUNT_COUNT 0]⟩,
  ⟨0x80130118, 32, 0x20, 1, 0x0, [DMA_CH_ERR_ADDR_ADDR 0]⟩]

/-- The registers of the NVM block, by address. -/
def rowsNvm : List RegRow := [
  ⟨0x80140000, 1, 0x0, 1, 0x0, [NVM_STAT_SLOT, NVM_STAT_FALLBACK, NVM_STAT_SIGNED, NVM_STAT_QUAD, NVM_STAT_BUSY, NVM_STAT_CMD_ERR, NVM_STAT_WP_ERR, NVM_STAT_PROG_ERR, NVM_STAT_FAIL_A, NVM_STAT_FAIL_B, NVM_STAT_FAIL_SEC]⟩,
  ⟨0x80140004, 1, 0x0, 1, 0x0, [NVM_GEN_GEN]⟩,
  ⟨0x80140008, 1, 0x0, 1, 0x0, [NVM_DENSITY_KIB]⟩,
  ⟨0x8014000C, 1, 0x0, 1, 0x0, [NVM_TRANS_CNT_COUNT]⟩,
  ⟨0x80140010, 8, 0x4, 1, 0x0, [NVM_DIGEST_DIGEST 0]⟩,
  ⟨0x80140040, 1, 0x0, 1, 0x0, [NVM_CMD_OP, NVM_CMD_LEN, NVM_CMD_GO]⟩,
  ⟨0x80140044, 1, 0x0, 1, 0x0, [NVM_ADDR_ADDR]⟩,
  ⟨0x80140100, 64, 0x4, 1, 0x0, [NVM_BUF_DATA 0]⟩,
  ⟨0x80140200, 8, 0x4, 1, 0x0, [NVM_FUSE_HASH_HASH 0]⟩,
  ⟨0x80140220, 1, 0x0, 1, 0x0, [NVM_FUSE_LOCK]⟩,
  ⟨0x80140224, 1, 0x0, 1, 0x0, [NVM_FUSE_PROG_WORD, NVM_FUSE_PROG_GO]⟩]

/-- The registers of the TST block, by address. -/
def rowsTst : List RegRow := [
  ⟨0x80150000, 1, 0x0, 1, 0x0, [TST_CTRL_QUICK, TST_CTRL_ROUND]⟩,
  ⟨0x80150004, 1, 0x0, 1, 0x0, [TST_STAT_TEST_DEFERRED, TST_STAT_RUNNING, TST_STAT_FAIL, TST_STAT_BOOT_PASS, TST_STAT_FAIL_UNIT]⟩,
  ⟨0x80150008, 1, 0x0, 1, 0x0, [TST_CFG_ROUND_S, TST_CFG_SCRUB_S]⟩,
  ⟨0x8015000C, 1, 0x0, 1, 0x0, [TST_COV_LOGIC_PCT, TST_COV_MEM_PCT, TST_COV_ROUND_AGE_S]⟩,
  ⟨0x80150010, 1, 0x0, 1, 0x0, [TST_ECC_CNT_CORRECTED, TST_ECC_CNT_TRANSIENT]⟩,
  ⟨0x80150014, 1, 0x0, 1, 0x0, [TST_ECC_LAST_LASTING, TST_ECC_LAST_MEM]⟩,
  ⟨0x80150018, 1, 0x0, 1, 0x0, [TST_ECC_ADDR_ADDR]⟩]

/-- The registers of the GPIO block, by address. -/
def rowsGpio : List RegRow := [
  ⟨0x80160000, 1, 0x0, 1, 0x0, [GPIO_IN_IN]⟩,
  ⟨0x80160004, 1, 0x0, 1, 0x0, [GPIO_OUT_OUT]⟩,
  ⟨0x80160008, 1, 0x0, 1, 0x0, [GPIO_SET_SET]⟩,
  ⟨0x8016000C, 1, 0x0, 1, 0x0, [GPIO_CLR_CLR]⟩,
  ⟨0x80160010, 1, 0x0, 1, 0x0, [GPIO_RISE_RISE]⟩,
  ⟨0x80160014, 1, 0x0, 1, 0x0, [GPIO_FALL_FALL]⟩]

/-- The register rows of the 64 KiB block number `b` counted from 0x8000_0000 (R22, R428). -/
def blockRows (b : Nat) : List RegRow :=
  match b with
  | 0 => rowsSys
  | 1 => rowsClk
  | 2 => rowsPwr
  | 3 => rowsBond
  | 4 => rowsRing
  | 5 => rowsRing
  | 6 => rowsRing
  | 7 => rowsRing
  | 8 => rowsPf
  | 9 => rowsLe
  | 10 => rowsStp
  | 11 => rowsPim
  | 12 => rowsCap
  | 13 => rowsSaf
  | 14 => rowsMtr
  | 15 => rowsHst
  | 16 => rowsCas
  | 17 => rowsTim
  | 18 => rowsSch
  | 19 => rowsDma
  | 20 => rowsNvm
  | 21 => rowsTst
  | 22 => rowsGpio
  | _ => []

end Sys2Proof.Machine
end

