-- ==== Sys2Proof/Types/Cap.lean ====
section
/-! DEFINITION. The state of the capture engine (R240 to R262). -/
namespace Sys2Proof.Machine

/-- A trigger condition as read at arming (R251). -/
structure CTrig where
  kind : Nat
  ch : Nat
  fall : Bool
  axis : Nat
  evt : Nat
  p1 : Nat
  p2 : Nat
  deriving DecidableEq, Repr

/-- The history of an edge or window condition (R251, R252): the sample has been low enough for a rising edge, high enough for a falling one, and whether the last row was inside the window. -/
structure CHist where
  low : Bool
  high : Bool
  inside : Option Bool
  deriving DecidableEq, Repr

/-- A channel of a set as read at arming: its number, source, delays, q (R246), mask, format (0 S64, 1 FP32, 2 U32), raw samples newest first, the last row's value as FP32, and the value of a process point at the course's sample instant until it is taken as a raw sample. -/
structure CCh where
  c : Nat
  kind : Nat
  item : Nat
  sig : Nat
  trim : Int
  auto : Int
  q : Int
  addr : Nat
  len : Nat
  cyc : Bool
  fmt : Nat
  xs : List Nat
  y : Option Nat
  now : Option Nat
  deriving DecidableEq, Repr

/-- An event that a condition of kind 8, 10 or 11 may take: its kind, the axis or pin, the axis event or the pin's direction (1 rising), and its instant. -/
structure CEvt where
  kind : Nat
  src : Nat
  sel : Nat
  t : Nat
  deriving DecidableEq, Repr

/-- A capture set: its state (R254) and configuration as read at arming, its grid (period `tick`, instant `t0` and course `c0` of row 0), the next row `n`, the raw samples taken `ns` and the last course sampled, the segment under way (`stored` rows in it, the trigger row, instant and post rows, rows held before it, the mark), the conditions' histories, events not yet judged, rows since arming, blocks closed and drained, the course in which a segment last completed, the first missed trigger's instant, whether a sampled FORCE waits for the next row, and the instant at which REARM ends (R256). -/
structure CapSet where
  st : Nat
  mode : Nat
  clk : Bool
  qual : Bool
  comb : Nat
  maskAct : Bool
  strDma : Nat
  chans : List CCh
  pre : Nat
  post : Nat
  segLen : Nat
  segs : Nat
  base : Nat
  size : Nat
  ta : CTrig
  tb : CTrig
  rowb : Nat
  tick : Nat
  t0 : Nat
  c0 : Nat
  every : Nat
  n : Nat
  ns : Nat
  pushed : Option Nat
  seg : Nat
  stored : Nat
  trigAt : Option Nat
  tInst : Nat
  preReal : Nat
  postN : Nat
  early : Bool
  casc : Bool
  viol : Bool
  mark : Option (Nat × Nat)
  ha : CHist
  hb : CHist
  aMet : Option Nat
  fresh : Bool
  evts : List CEvt
  total : Nat
  closed : Nat
  drained : Nat
  doneCrs : Option Nat
  missT : Option Nat
  force : Bool
  rearm : Nat
  deriving DecidableEq, Repr

/-- The capture engine: its sets, the position, velocity and acceleration in force of captured axes (R243), the last edges of the trigger pins (pin, time, level), newest first, and in `pend` those that may still be a pulse shorter than 20 ns (R253), the conversions of the captured ADC inputs (input, time, FP32 volts), the last cascade event's instant, the sets whose block-closed request waits at the DMA engine, the ends of the TRIG_OUT pulses, and `grids`, newest first, the courses (counter, start, period) from which the course grid has gone on evenly (R249). -/
structure Cap where
  sets : Store (Option CapSet)
  inForce : Store (Option (Int × Nat × Nat))
  edges : List (Nat × Nat × Bool)
  pend : List (Nat × Nat × Bool)
  pins : List Bool
  convs : List (Nat × Nat × Nat)
  cascT : Nat
  reqs : List Nat
  pulses : Store Nat
  grids : List (Nat × Nat × Nat)
  deriving DecidableEq, Repr

end Sys2Proof.Machine
end

