-- ==== Sys2Proof/Types/Course.lean ====
section
/-! DEFINITION. The course: schedules and BOND's own course state (R23, R24, R32 to R34). -/
namespace Sys2Proof.Machine

/-- The device-wide part of a schedule present in the image (R24, R32): period, t_s, t_a, end of the feedback window and start of the sync gap, in ns of course time. -/
structure Sched where
  period : Nat
  ts : Nat
  ta : Nat
  fbEnd : Nat
  gap : Nat
  deriving DecidableEq, Repr

/-- BOND's own course state (R23, R33, R34): device time of the course start, the 64-bit counter, the device time of the last actuation instant, the target of a pending switch, a refused request whose SW_GO clears at the next course start, the last course whose set-points were late (R30), the schedules present, the axes for which a DRIVE_RESET is due (R190), the profile tick of the present course while it is still to come, with whether its set-points will be late, whether those of the tick that has run are (R30, R50), and the axes whose feedback of the present course has landed or is known to be missing (R28). -/
structure Crs where
  start : Nat
  cnt : Nat
  actAt : Nat
  swTo : Option Nat
  goDrop : Bool
  pfLate : Option Nat
  scheds : List (Option Sched)
  resets : List Nat
  tick : Option Bool
  late : Bool
  fbSeen : List Nat
  deriving DecidableEq, Repr

end Sys2Proof.Machine
end

