-- ==== Sys2Proof/Types/Out.lean ====
section
/-! DEFINITION. What a command sends on the device's wires, pins and internal lines. -/
namespace Sys2Proof.Machine

/-- One emission. `nvm` is an operation on the flash, with the bytes to program (R423); `bootSend` is an IMAGE frame of the chain master with `len` bytes of its NVM from slot offset `ofs` (R359). -/
inductive Out where
  | brick (ring : Nat) (bytes : List Nat)
  | forward (ring : Nat) (west : Bool) (bytes : List Nat) (marked : Bool)
  | digest (eng crs value : Nat)
  | step (chan : Nat) (up : Bool)
  | lt (ring : Nat) (west : Bool) (type seq value : Nat)
  | ltCas (b : Bool) (type seq value : Nat)
  | resync (recs : List OutRec)
  | trigOut (pin : Nat) (high : Bool)
  | mortar (seq : Nat) (f : MFrame)
  | mortarAgain (seq : Nat)
  | mortarAck (seq : Nat)
  | ip (h : IpHdr) (p : Pkt)
  | arpRequest (ip : Nat)
  | arpReply (ip mac : Nat)
  | arpGratuitous
  | casc (onB : Bool) (h : CHdr) (payload : List Nat)
  | mdio (write : Bool) (phy reg data : Nat)
  | bootEnum (count : Nat)
  | bootImage (p block : Nat) (data : List Nat) (ack : Bool)
  | bootSend (p block ofs len : Nat)
  | nvm (op addr : Nat) (data : List Nat)
  | tdo (value : Nat)
  | safetyPins (so ko tp : Nat)
  deriving DecidableEq, Repr

end Sys2Proof.Machine
end

