-- ==== Sys2Proof/Machine/Init.lean ====
section
/-! DEFINITION. The parts of the state that have one instance, as they stand after reset. What the spec gives no reset value is 0, empty or inactive (DESIGN CHOICE, log entry 1). -/
namespace Sys2Proof.Machine

/-- A port after reset. -/
def Port.init : Port := ⟨false, false, 0, false, false, none, none, false⟩

/-- The start-up state after reset. -/
def Bond.init : Bond := ⟨false, false, 0, true, false, 0, false, none, none, false⟩

/-- The process image after reset. -/
def Pim.init : Pim := ⟨[], [], [], [], [], 0, false, [], [], []⟩

/-- The capture engine after reset. -/
def Cap.init : Cap := ⟨[], [], [], [], [false, false, false, false], [], 0, [], [], []⟩

/-- A stage that is off. -/
def Stg.init : Stg := ⟨false, false, false, false, 0, 0, false, 0, 0⟩

/-- An input at island start. -/
def SInp.init : SInp := ⟨false, false, false, 0, 0, 0, false⟩

/-- The latched inputs at island start. -/
def IslIn.init : IslIn := ⟨0, 0, 0, 0, 0, 0, false, [], []⟩

/-- An empty journal. -/
def Jnl.init : Jnl := ⟨[], [], 0, 0⟩

/-- The pair after reset: a paired member holds nothing, with its link down. -/
def Mtr.init : Mtr :=
  { paired := false, role := .alone, fence := 0, peerAct := false, pairAct := false, probing := false, peer := none, rx := 0, tx := 0, granted := none, renewed := none, margin := none, retry := 0, relDue := false, unfit := false, lastRenew := none, conflict := 0, copyMiss := 0, copyAt := none, copySch := none, excl := [], lossPrev := [], adopt := false, end_ := none, mirror := [], evs := [], shared := [], half := false, jnlOk := false, bulkOn := false, said := false, copyLen := 0, digs := [], misRun := 0, divRun := false, selfOk := true, testRes := 0, sfc := 0, img := 0, wxSeq := 0, wxAt := 0, jnl := Jnl.init }

/-- The host port after reset. -/
def Hst.init : Hst := ⟨[], [], [], 0, 0, false, none, false, 0⟩

/-- Device time after reset. -/
def Tim.init : Tim := ⟨0, none, [], none, none, none, [], [], none, 0, 0, 0, false, none, 0⟩

/-- The cascade after reset. -/
def Cas.init : Cas := { a := Port.init, b := Port.init, run := 0, miss := 0, seen := none, stepSeq := 0, ofs := 0, due := false, plan := [], last := [], mq := [], tillA := 0, tillB := 0, fresh := false, acted := [], mark := none, ltSeq := 0, heard := 0 }

/-- The TAP after reset: IDCODE selected. -/
def Jtag.init : Jtag := ⟨1, .idcode, 0, .none⟩

/-- PD0 after power-on, with PD2 to power up (R396). -/
def Pwr.init : Pwr := ⟨false, false, false, 0, [2], 0, false, false, none⟩

/-- The boot ROM before it has read anything. -/
def Boot.init : Boot := ⟨none, [], none, none, 0, [], false, 0, ⟨0, false, false, false⟩, none⟩

/-- TST after reset. -/
def Tst.init : Tst := ⟨.idle, [], [], 0, false, 0, 0⟩

/-- The scheduler after reset of PD2: every thread DORMANT, the idle thread on each core, no compare reached (R373, R374, R386). -/
def Sch.init : Sch := ⟨[], 0, [252, 253, 254, 255], [], [], [], [], List.replicate 4 (2 ^ 64 - 1)⟩

/-- The island with no section loaded. -/
def Isl.off : Isl :=
  { cfg := none, inps := List.replicate 32 SInp.init, win := none, tpBad := List.replicate 8 0, stg := List.replicate 20 Stg.init, fb := 0, sense := 0, kf := 0,
    rx := [], tx := [], ev := ⟨[], []⟩, inp := IslIn.init, vec := none, compared := false, ack := false, force := (0, 0, 0), shadowMis := 0, blank := 0, holdBlank := false, renewInps := [], resume := 0 }

end Sys2Proof.Machine
end

