-- ==== Sys2Proof/Machine/State.lean ====
section
/-! DEFINITION. The state of the device, as plain data, and the state after reset. -/
namespace Sys2Proof.Machine

/-- Why the machine stops: never. Every command has an effect the spec states; a bus error is an answer to a requester (R12), and an error state is a state. -/
inductive Fault where
  deriving DecidableEq, Repr

/-- Why a command has no meaning. -/
inductive Refusal where
  /-- Raised by an arm of exec that has no meaning yet; safe, the run ends there. -/
  | notModelled (mnemonic : String)
  deriving DecidableEq, Repr

/-- The machine. -/
structure State where
  flds : Store Nat
  mem : List Host.Cell
  now : Nat
  bus : Bus
  outs : List Out
  free : Nat
  dev : Dev
  crs : Crs
  axes : Store Ax
  grps : Store Grp
  pfSampled : Store PfCmd
  pfAns : Nat
  loops : Store Loop
  upd : Option Upd
  engs : Store Eng
  chans : Store Chan
  bond : Bond
  rings : Store Ring
  pim : Pim
  cap : Cap
  isl : Isl
  mtr : Mtr
  hst : Hst
  tim : Tim
  cas : Cas
  chain : Chain
  jtag : Jtag
  rstLow : Bool
  pwr : Pwr
  tst : Tst
  boot : Boot
  cores : Store Core
  sch : Sch
  dma : Store DCh
  dmaTurn : List Nat
  gpio : Nat
  holdBy : List HoldBy
  pending : List Instr
  deriving DecidableEq, Repr

/-- The device as a power-on reset releases it (R399, R403): the boot ROM begins, PD2 is powering up, every register field reads its reset value, no domain beyond PD0 holds anything, and no command waits. -/
def State.reset : State :=
  { flds := [], mem := [], now := 0, bus := .none, outs := [], free := 0, dev := .boot, crs := ⟨0, 0, 0, none, false, none, [none, none, none, none], [], none, false, []⟩,
    axes := [], grps := [], pfSampled := [], pfAns := 0, loops := [], upd := none, engs := [], chans := [], bond := Bond.init, rings := [], pim := Pim.init,
    cap := Cap.init, isl := Isl.off, mtr := Mtr.init, hst := Hst.init, tim := Tim.init, cas := Cas.init, chain := ⟨[], none, false⟩, jtag := Jtag.init, rstLow := false,
    pwr := Pwr.init, tst := Tst.init, boot := Boot.init, cores := [], sch := Sch.init, dma := [], dmaTurn := [31, 31, 31, 31], gpio := 0, holdBy := [], pending := [] }

end Sys2Proof.Machine
end

