-- ==== Sys2Proof/Machine/Store.lean ====
section
/-! DEFINITION. The operations of a sparse store: reading a key, writing a key so that the canonical form is kept, and the form itself. -/
namespace Sys2Proof.Machine

/-- What key `k` reads as; `d` is what an unlisted key reads as. -/
def Store.get {β : Type} (d : β) : Store β → Nat → β
  | [], _ => d
  | (a, x) :: r, k => if a = k then x else Store.get d r k

/-- The list without key `k`. -/
def Store.drop {β : Type} : Store β → Nat → Store β
  | [], _ => []
  | (a, x) :: r, k => if a = k then Store.drop r k else (a, x) :: Store.drop r k

/-- `l` with `(k, x)` before the first greater key. -/
def Store.insert {β : Type} (k : Nat) (x : β) : Store β → Store β
  | [] => [(k, x)]
  | (a, y) :: r => if k < a then (k, x) :: (a, y) :: r else (a, y) :: Store.insert k x r

/-- Write `x` at key `k`: the key is dropped, and listed again unless `x` is what an unlisted key reads as. -/
def Store.put {β : Type} [DecidableEq β] (d : β) (l : Store β) (k : Nat) (x : β) : Store β :=
  if x = d then Store.drop l k else Store.insert k x (Store.drop l k)

/-- Change the value at key `k`. -/
def Store.upd {β : Type} [DecidableEq β] (d : β) (l : Store β) (k : Nat) (f : β → β) : Store β :=
  Store.put d l k (f (Store.get d l k))

/-- Every key of `l` is above `n`, and the keys rise. -/
def Store.above {β : Type} : Nat → Store β → Bool
  | _, [] => true
  | n, (a, _) :: r => decide (n < a) && Store.above a r

/-- The canonical form: keys strictly rising, no entry equal to what its key reads as when it is unlisted, which `d` gives. -/
def Store.wf {β : Type} [DecidableEq β] (d : Nat → β) : Store β → Bool
  | [] => true
  | (a, x) :: r => Store.above a r && decide (x ≠ d a) && Store.wf d r

end Sys2Proof.Machine
end

