-- ==== Sys2Proof/Machine/Ops.lean ====
section
/-! DEFINITION. The named operations on the state: register fields, bytes of memory, saturating counters, free values. -/
namespace Sys2Proof.Machine

/-- The key of a register field in the field store. -/
def Fld.key (f : Fld) : Nat := f.addr * 32 + f.lo

/-- The value of a register field (R13). -/
def State.get (s : State) (f : Fld) : Nat := Store.get f.rst s.flds f.key

/-- Write a register field; the value is cut to its width. -/
def State.set (s : State) (f : Fld) (v : Nat) : State :=
  { s with flds := Store.put f.rst s.flds f.key (v % 2 ^ f.w) }

/-- A one-bit field as a Bool. -/
def State.flag (s : State) (f : Fld) : Bool := s.get f % 2 == 1

/-- Write a one-bit field. -/
def State.setFlag (s : State) (f : Fld) (b : Bool) : State := s.set f (b2n b)

/-- OR a mask into a field, as hardware sets W1C bits (R14). -/
def State.orFld (s : State) (f : Fld) (m : Nat) : State := s.set f (s.get f ||| m)

/-- Count one event into a counter field that saturates at its largest value. -/
def State.count (s : State) (f : Fld) : State :=
  if s.get f + 1 < 2 ^ f.w then s.set f (s.get f + 1) else s.set f (2 ^ f.w - 1)

/-- What a byte of memory that nothing has written reads: 0 (R15, R114, R396), but 0xFF for GROUP in an axis's state record and MEMBER in a group's configuration, whose tables give that reset value (R48, R68). -/
def memRst (a : Nat) : BitVec 8 :=
  if (0x30000000 ≤ a ∧ a < 0x300F0000 ∧ a % 0x1000 = 0x103) ∨ (0x300F0000 ≤ a ∧ a < 0x300F8000 ∧ a % 0x400 < 8) then 0xFF else 0

/-- The byte that a list of cells holds at an address. -/
def Memory.get (m : List Host.Cell) (a : Nat) : BitVec 8 := Store.get (memRst a) m a

/-- Write one byte. -/
def Memory.put (m : List Host.Cell) (a : Nat) (x : BitVec 8) : List Host.Cell := Store.put (memRst a) m a x

/-- Write a list of bytes, in order. -/
def Memory.putAll : List Host.Cell → List (Nat × BitVec 8) → List Host.Cell
  | m, [] => m
  | m, (a, x) :: r => Memory.putAll (Memory.put m a x) r

/-- The canonical form of memory: addresses strictly rising, and no byte listed that reads as an unlisted one does. -/
def Memory.wf (m : List Host.Cell) : Bool := Store.wf memRst m

/-- The byte of memory at an address. -/
def State.byte (s : State) (a : Nat) : BitVec 8 := Memory.get s.mem a

/-- `n` bytes of memory from address `a`, little-endian (R10). -/
def State.load (s : State) (a : Nat) : Nat → Nat
  | 0 => 0
  | n + 1 => (s.byte a).toNat + 256 * s.load (a + 1) n

/-- The address and byte pairs of an `n`-byte little-endian value. -/
def cells (a v : Nat) : Nat → List (Nat × BitVec 8)
  | 0 => []
  | n + 1 => (a, BitVec.ofNat 8 v) :: cells (a + 1) (v / 256) n

/-- The words of a memory that the scrubber or a self-test has marked poisoned lie in the map, but for profile local memory and the network buffers (R405). -/
def inMap (m : Nat) : Bool := m != 6 && m != 8

/-- The `n` bytes at map address `a` touch a poisoned word (R405). -/
def State.poisoned (s : State) (a n : Nat) : Bool := s.tst.poison.any (fun p => inMap p.1 && decide (a < p.2 + 4 ∧ p.2 < a + n))

/-- The poisoned words that a list of written bytes leaves poisoned: a word is sound again once it is written (R405). -/
def Tst.heal (t : Tst) (w : List (Nat × BitVec 8)) : Tst :=
  { t with poison := t.poison.filter (fun p => !(inMap p.1 && w.any (fun c => c.1 / 4 == p.2 / 4))) }

/-- Write a list of bytes. -/
def State.poke (s : State) (w : List (Nat × BitVec 8)) : State :=
  { s with mem := Memory.putAll s.mem w, tst := s.tst.heal w }

/-- Write an `n`-byte little-endian value at address `a`. -/
def State.store (s : State) (a v n : Nat) : State := s.poke (cells a v n)

/-- A free value below `n`, and the state with one more drawn. -/
def State.draw (s : State) (n : Nat) : Nat × State :=
  (Config.freeNat s.free % n, { s with free := s.free + 1 })

/-- A follower disciplines its device time by rate only, within 200 ppm: the spec bounds ADJ and gives no law for it, so the adjustment is free (R196, R338, R350; log entry 72). A root takes its discipline from PTP alone, or holds ADJ at 0 (R339). -/
def State.discipline (s : State) : State :=
  if s.flag R.CAS_CFG_ROOT then s
  else
    let f := s.draw 6871949
    f.2.set R.TIM_ADJ_ADJ (ux 32 ((f.1 : Int) - 3435974))

/-- A domain is powered (R18, R396). -/
def State.domUp (s : State) (d : Nat) : Bool := bit (s.get R.PWR_DOM_ON) d

/-- Courses run. -/
def State.inCourses (s : State) : Bool := s.dev == .run || s.dev == .safeHold

/-- A request is refused. -/
def State.reqErr (s : State) : State := s.setFlag R.PWR_STAT_REQ_ERR true

/-- The rows of the address map (R20). -/
inductive Region where
  | rom | sram | pim | axis | cam | cap | le | jnl | regs
  deriving DecidableEq, Repr

/-- The row an address lies in. -/
def region (a : Nat) : Option Region :=
  if a < 0x10000 then some .rom
  else if 0x10000000 ≤ a ∧ a < 0x10200000 then some .sram
  else if 0x20000000 ≤ a ∧ a < 0x20200000 then some .pim
  else if 0x30000000 ≤ a ∧ a < 0x30100000 then some .axis
  else if 0x38000000 ≤ a ∧ a < 0x38200000 then some .cam
  else if 0x40000000 ≤ a ∧ a < 0x40400000 then some .cap
  else if 0x50000000 ≤ a ∧ a < 0x50300000 then some .le
  else if 0x60000000 ≤ a ∧ a < 0x60040000 then some .jnl
  else if 0x80000000 ≤ a ∧ a < 0x80170000 then some .regs
  else none

/-- The code by which TST names the memory of a row (R410). -/
def Region.ecc : Region → Option Nat
  | .sram => some 0 | .pim => some 1 | .axis => some 2 | .cam => some 3 | .cap => some 4 | .le => some 5 | .jnl => some 7
  | .rom | .regs => none

/-! What belongs to a domain (R18, R428). -/

/-- The domain of a register at address `a`. -/
def blockDom (a : Nat) : Nat :=
  match (a - 0x80000000) / 0x10000 with
  | 0 => 0 | 1 => 0 | 2 => 0
  | 3 => 7 | 4 => 7 | 5 => 7
  | 6 => 8 | 7 => 8
  | 8 => 5
  | 9 => if 0x80090180 ≤ a ∧ a < 0x80090300 then 4 else 3
  | 10 => 6
  | 11 => 9
  | 12 => 10
  | 13 => 1
  | 14 => 11 | 15 => 11 | 16 => 11
  | _ => 2

/-- The domain of a memory at address `a` of the map (R18, R20). -/
def memDom (a : Nat) : Nat :=
  match a / 0x8000000 with
  | 4 => 9
  | 6 => 5 | 7 => 5
  | 8 => 10
  | 10 => if (a - 0x50000000) / 0x40000 < 6 then 3 else 4
  | _ => 2

/-- The bit of CLK_GATE that closes the block at `a` (R428); none for a block without a gate (R394). -/
def gateOf (a : Nat) : Option Nat :=
  match (a - 0x80000000) / 0x10000 with
  | 0 => none | 1 => none | 2 => none
  | 3 => some 0 | 4 => some 1 | 5 => some 2 | 6 => some 3 | 7 => some 4
  | 8 => some 5 | 9 => some 6 | 10 => some 7 | 11 => some 8 | 12 => some 9 | 13 => some 10
  | 14 => some 11 | 15 => some 12 | 16 => some 13
  | 17 => none | 18 => none
  | 19 => some 14 | 20 => some 15 | 21 => some 16 | 22 => some 17
  | _ => none

/-- The block at register address `a` answers: its domain is powered, its gate is open, and no close of it is pending (R19, R393, R394). -/
def State.reach (s : State) (a : Nat) : Bool :=
  s.domUp (blockDom a) && (match gateOf a with | none => true | some i => bit (s.get R.CLK_GATE_EN) i && !bit (s.get R.CLK_GATE_PEND_PEND) i)

/-- The block at register address `a` works: its domain is powered and its clock runs (R19, R393). -/
def State.clocked (s : State) (a : Nat) : Bool := s.domUp (blockDom a) && (match gateOf a with | none => true | some i => bit (s.get R.CLK_GATE_EN) i)

/-- An event that the block at `a` handles: nothing where the block is unpowered or its clock stands (R393). A course block's gate stays open in RUN and SAFE_HOLD (R394; log entry 101). -/
def State.live (s : State) (a : Nat) (o : Host.Outcome State Fault Refusal) : Host.Outcome State Fault Refusal :=
  if s.clocked a then o else .next { s with bus := .none, outs := [] }

/-- GPIO_IN bit `n`: the level of the pin after INV, not latched (R426, R431). -/
def State.gpioIn (s : State) (n : Nat) : Bool := bit s.gpio n != s.flag (R.SYS_PINFUNC_INV n)

/-- GPIO_IN. -/
def State.gpioWord (s : State) : Nat := (List.range 32).foldl (fun v n => v + b2n (s.gpioIn n) * 2 ^ n) 0

/-- An access to a gated or unpowered block is counted, with its address (R19, R393). -/
def State.gatedAcc (s : State) (a : Nat) : State := (s.count R.GATED_ACC_CNT_COUNT).set R.CLK_GATED_ADDR_ADDR a

/-- A write to the register at `a`: its effect, or none where the block is gated or unpowered (R19, R393). -/
def State.atReg (s : State) (a : Nat) (o : Host.Outcome State Fault Refusal) : Host.Outcome State Fault Refusal :=
  if s.reach a then o else .next { s with flds := (s.gatedAcc a).flds, bus := .done, outs := [] }

/-- An access to the memory at map address `a`: its answer, or, where its domain is unpowered, zero for a read and nothing for a write (R19); a read of a poisoned word is a bus error (R405). -/
def State.atMem (s : State) (a : Nat) (read : Bool) (o : Host.Outcome State Fault Refusal) : Host.Outcome State Fault Refusal :=
  if !s.domUp (memDom a) then .next { s with flds := (s.gatedAcc a).flds, bus := if read then .data 0 else .done, outs := [] }
  else if read && s.poisoned a 4 then .next { s with bus := .error, outs := [] }
  else o

/-- TST_COV.ROUND_AGE_S: seconds since the last round ended, saturating. -/
def State.roundAge (s : State) : Nat := min 65535 ((s.now - s.tst.endAt) / 1000000000)

/-- Send on a wire, pin or line. -/
def State.emit (s : State) (o : Out) : State := { s with outs := s.outs ++ [o] }

/-- A mortar frame leaves, with the next sequence number (R301). -/
def State.mortar (s : State) (f : MFrame) : State :=
  if s.flag R.MTR_STAT_LINK_UP then ({ s with mtr := { s.mtr with tx := (s.mtr.tx + 1) % 65536 } }).emit (.mortar s.mtr.tx f) else s

/-- What the TAP's instruction register selects and does to the pins: EXTEST, HIGHZ and CLAMP act only while RESET_n is held low, and as BYPASS otherwise (R360). -/
def Jtag.pin (j : Jtag) (low : Bool) : Jtag :=
  match j.ir with
  | 0 => if low then { j with sel := .boundary, scan := .extest } else { j with sel := .bypass, scan := .none }
  | 1 => { j with sel := .idcode, scan := .none }
  | 2 => { j with sel := .boundary, scan := .none }
  | 3 => { j with sel := .bypass, scan := if low then .highz else .none }
  | 4 => { j with sel := .bypass, scan := if low then .clamp else .none }
  | _ => { j with sel := .bypass, scan := .none }

/-- RESET_n goes low or high. -/
def State.resetPin (s : State) (low : Bool) : State := { s with rstLow := low, jtag := s.jtag.pin low }

/-- The state before an event, with nothing sent. -/
def State.quiet (s : State) : State := { s with outs := [] }

/-- The element of a list at an index, 0 past its end. -/
def at_ (l : List Nat) (i : Nat) : Nat := l.getD i 0

end Sys2Proof.Machine
end

