-- ==== Sys2Proof/Machine/CasTx.lean ====
section
/-! DEFINITION. How a frame leaves a stop of the cascade: its header, both ports, and when an unplanned frame may start (R348, R349). -/
namespace Sys2Proof.Machine

/-- What a frame of `n` payload bytes costs on a lane, in ns: LEN + 46 byte times of 2 ns (R348). -/
def casCost (n : Nat) : Nat := 2 * (n + 46)

/-- An own frame on a port; a copy that leaves port A travels in the west sense. -/
def State.casOut (s : State) (onB : Bool) (type dest : Nat) (p : List Nat) : Out :=
  .casc onB ⟨type, s.get R.CAS_CFG_POS, s.flag R.MTR_STAT_MEMBER, s.crs.cnt % 65536, dest, !onB⟩ p

/-- The device time until which a port is busy. -/
def Cas.till (c : Cas) (onB : Bool) : Nat := if onB then c.tillB else c.tillA

/-- A port carries a frame until `t`. -/
def Cas.carry (c : Cas) (onB : Bool) (t : Nat) : Cas := if onB then { c with tillB := max c.tillB t } else { c with tillA := max c.tillA t }

/-- A planned frame starts at `t` on both ports (R348, R349). -/
def State.casPlanned (s : State) (t type dest : Nat) (p : List Nat) : State :=
  { s with cas := (s.cas.carry false (t + casCost p.length)).carry true (t + casCost p.length), outs := s.outs ++ [s.casOut false type dest p, s.casOut true type dest p] }

/-- The end of the present course in device time. -/
def State.crsEnd (s : State) : Nat := s.crs.start + s.get R.BOND_CRS_PERIOD_PERIOD_NS

/-- The planned frames still due at a port in this course and at the next course start (R349, R352): the SETP frames of the plan, the own at its start, those of others as they pass (in line topology the lower positions' at port B, the higher ones' at port A), and the MARK. -/
def State.casDues (s : State) (onB : Bool) : List Nat :=
  let pos := s.get R.CAS_CFG_POS
  let mark := s.crsEnd + (if s.get R.CAS_STAT_STATE = 4 then 0 else s.get R.CAS_ROOT_DLY_D / 16)
  mark :: (s.cas.plan.zipIdx.filterMap (fun (w, p) =>
    let t := s.crs.start + 2 * bits w 0 14
    if bits w 14 6 = 0 then none
    else if p = pos then some t
    else if s.flag R.CAS_CFG_TOPO || onB == decide (p < pos) then some (t + Config.casHop p)
    else none)).filter (fun t => decide (s.now ≤ t))

/-- An unplanned frame of `n` payload bytes may start at a port now: the port is idle, the frame ends before the next planned frame due there, and the last 0.5 µs of the course have not begun (R348, R349). -/
def State.casMay (s : State) (onB : Bool) (n : Nat) : Bool :=
  s.flag R.CAS_STAT_BYP && decide (s.cas.till onB ≤ s.now) && decide (s.now + 500 < s.crsEnd) && (s.casDues onB).all (fun t => decide (s.now + casCost n ≤ t))

/-- The frame that a port sends next: a waiting TRIG before any waiting MSG (R349). -/
def Cas.next (c : Cas) (onB : Bool) : Option CWait :=
  let q := c.mq.filter (fun w => w.onB == onB)
  match q.find? (fun w => w.type == 4) with
  | some w => some w
  | none => q.head?

/-- The frame that waits first at a port leaves, if it may. -/
def State.casPort (s : State) (onB : Bool) : State :=
  match s.cas.next onB with
  | none => s
  | some w =>
    if s.casMay onB w.payload.length then
      { s with cas := { s.cas.carry onB (s.now + casCost w.payload.length) with mq := s.cas.mq.erase w }, outs := s.outs ++ [s.casOut onB w.type w.dest w.payload] }
    else s

/-- Waiting frames leave both ports as far as they may. -/
def State.casPump (s : State) : State := if s.cas.mq.isEmpty then s else (s.casPort false).casPort true

/-- An unplanned frame is to leave on both ports (R348, R349). -/
def State.casAsk (s : State) (type dest : Nat) (p : List Nat) : State :=
  State.casPump { s with cas := { s.cas with mq := s.cas.mq ++ [⟨false, type, dest, p⟩, ⟨true, type, dest, p⟩] } }

end Sys2Proof.Machine
end

