-- ==== Sys2Proof/Machine/Crc.lean ====
section
/-! DEFINITION. Check sums over byte lists: CRC-16/CCITT (R182), the IEEE 802.3 CRC-32 (R182) and the Castagnoli CRC-32C. Bytes are numbers below 256. -/
namespace Sys2Proof.Machine

/-- `k` steps of a reflected CRC with the given reflected polynomial. -/
def crcR (poly : Nat) : Nat → Nat → Nat
  | 0, c => c
  | k + 1, c => crcR poly k (if c % 2 = 1 then (c / 2) ^^^ poly else c / 2)

/-- A reflected 32-bit CRC over bytes, initial value and final XOR 0xFFFFFFFF. -/
def crcRef (poly : Nat) (bs : List Nat) : Nat :=
  (bs.foldl (fun c b => crcR poly 8 (c ^^^ (b % 256))) 0xFFFFFFFF) ^^^ 0xFFFFFFFF

/-- The IEEE 802.3 frame check sequence. -/
def crc32 (bs : List Nat) : Nat := crcRef 0xEDB88320 bs

/-- CRC-32C. -/
def crc32c (bs : List Nat) : Nat := crcRef 0x82F63B78 bs

/-- `k` steps of an unreflected CRC of width `w`. -/
def crcU (w poly : Nat) : Nat → Nat → Nat
  | 0, c => c
  | k + 1, c => crcU w poly k (if 2 ^ (w - 1) ≤ c then (2 * c % 2 ^ w) ^^^ poly else 2 * c)

/-- CRC-16/CCITT over bytes: polynomial 0x1021, initial value 0xFFFF. -/
def crc16 (bs : List Nat) : Nat := bs.foldl (fun c b => crcU 16 0x1021 8 (c ^^^ (b % 256 * 256))) 0xFFFF

/-- A little-endian number from bytes. -/
def leNat : List Nat → Nat
  | [] => 0
  | b :: r => b % 256 + 256 * leNat r

/-- `n` bytes of a number, little-endian. -/
def leBytes (v : Nat) : Nat → List Nat
  | 0 => []
  | n + 1 => v % 256 :: leBytes (v / 256) n

/-- Bytes `o` to `o + n - 1` of a list. -/
def slice (l : List Nat) (o n : Nat) : List Nat := (l.drop o).take n

/-- The number in bytes `o` to `o + n - 1`. -/
def leAt (l : List Nat) (o n : Nat) : Nat := leNat (slice l o n)

/-- A list of exactly `n` bytes: cut, or filled with zeros. -/
def fitTo (l : List Nat) (n : Nat) : List Nat := l.take n ++ List.replicate (n - l.length) 0

/-- `l` with the bytes `b` at offset `o`. -/
def putAt (l : List Nat) (o : Nat) (b : List Nat) : List Nat :=
  fitTo l o ++ b ++ l.drop (o + b.length)

end Sys2Proof.Machine
end

