-- ==== Sys2Proof/Machine/Points.lean ====
section
/-! DEFINITION. The rings and their nodes as data (R171 to R193), and the records of the process image as they read (R219 to R227). -/
namespace Sys2Proof.Machine

/-! Rings, ports and nodes. -/

/-- A ring after reset. -/
def Ring.init : Ring :=
  { nodes := [], scheds := [], map := [], east := Port.init, west := Port.init, acc := [], bad := [], crcSeen := [], mq := [], claims := [], heard := [], seq := 0, ltSeq := 0, quiet := false, refRun := 0, loopE := 0, loopW := 0, retE := false, retW := false, headRun := 0, snap := [], leave := false }

/-- A node as its descriptor gives it. -/
def Node.init (addr uid kind : Nat) : Node :=
  { addr := addr, uid := uid, kind := kind, claimed := false, claimUid := uid, present := false, seenNow := false, drift := false, off := false, ofsE := 0, ofsW := 0, lost := 0, edge := 0, drifts := 0, dlyE := 0, dlyW := 0, resid := 0, linkE := false, linkW := false, claimAt := 0, ackAt := none, due := 0, seen := false, edgeRun := 0, lossRun := 0, rank := 0, fbWest := false }

/-- Ring `k`. -/
def State.ring (s : State) (k : Nat) : Ring := Store.get Ring.init s.rings k

/-- Replace ring `k`. -/
def State.setRing (s : State) (k : Nat) (r : Ring) : State := { s with rings := Store.put Ring.init s.rings k r }

/-- The ring is enabled by the image. -/
def State.ringEn (s : State) (k : Nat) : Bool := s.flag (R.RING_CFG_EN k)

/-- The enabled rings. -/
def State.ringsEn (s : State) : List Nat := [0, 1, 2, 3].filter s.ringEn

/-- The port of a side. -/
def Ring.port (r : Ring) (west : Bool) : Port := if west then r.west else r.east

/-- Replace the port of a side. -/
def Ring.setPort (r : Ring) (west : Bool) (p : Port) : Ring := if west then { r with west := p } else { r with east := p }

/-- The node of an address. -/
def Ring.node (r : Ring) (a : Nat) : Option Node := r.nodes.find? (fun n => n.addr == a)

/-- Change the node of an address. -/
def Ring.updNode (r : Ring) (a : Nat) (f : Node → Node) : Ring :=
  { r with nodes := r.nodes.map (fun n => if n.addr = a then f n else n) }

/-- The device heads its rings (R216). -/
def State.heads (s : State) : Bool := s.get R.BOND_START_STATE == 3

/-- The device follows a head. -/
def State.follows (s : State) : Bool := s.get R.BOND_START_STATE == 4

/-- The device is inserted in ring `k`: its bypass pin is high (R178). -/
def State.inserted (s : State) (k : Nat) : Bool := s.flag (R.RING_STAT_BYP k)

/-- The device's own address (R182). -/
def State.selfAddr (s : State) : Nat := b2n (s.get R.BOND_START_RANK == 1)

/-- Put every enabled ring in a state of RINGk_STAT. -/
def State.setRingStates (s : State) (v : Nat) : State := s.ringsEn.foldl (fun u k => u.set (R.RING_STAT_STATE k) v) s

/-- A record map element: ITEM, OFFSET, KIND and NODE (R192). -/
structure MapEl where
  item : Nat
  ofs : Nat
  kind : Nat
  node : Nat
  deriving DecidableEq, Repr

/-- A record map word as its fields. -/
def mapEl (w : Nat) : MapEl := ⟨bits w 0 8, bits w 8 12, bits w 20 2, bits w 22 6⟩

/-! Ranges. -/

/-- The range a point lies in (R219, R220). -/
def State.rng (s : State) (p : Nat) : Option Rng := s.pim.ranges.find? (fun r => decide (r.first ≤ p ∧ p < r.first + r.count))

/-! Segments (R227, R228). -/

/-- The bytes of a TYPE in a segment; 0 for a BIT. -/
def typeBytes (t : Nat) : Nat := if t = 0 then 0 else if t ≤ 2 then 2 else 4

/-- The TYPE of a point; unmapped points are taken as U32. -/
def State.ptType (s : State) (p : Nat) : Nat := match s.rng p with | some r => r.type | none => 3

/-- Up to a byte boundary, in bits. -/
def byteUp (b : Nat) : Nat := (b + 7) / 8 * 8

/-- The places of `n` points from point `p`: the point, its TYPE and its first bit, with the segment's length in bits. -/
def State.places (s : State) : Nat → Nat → Nat → List (Nat × Nat × Nat) × Nat
  | 0, _, b => ([], byteUp b)
  | n + 1, p, b =>
    let t := s.ptType p
    let at0 := if t = 0 then b else byteUp b
    let r := State.places s n (p + 1) (if t = 0 then b + 1 else at0 + 8 * typeBytes t)
    ((p, t, at0) :: r.1, r.2)

/-- The segment map of a ring. -/
def State.pseg (s : State) (k m : Nat) : Option PSeg := Store.get none s.pim.segs (k * 256 + m)

/-- The length of a segment in bytes (R228). -/
def State.segLen (s : State) (k m : Nat) : Nat :=
  match s.pseg k m with
  | some g => (s.places g.count g.first 0).2 / 8
  | none => 0

/-! Points as they read. -/

/-- The normalised value word (R222). -/
def normPt (type v : Nat) : Nat :=
  match type with
  | 0 => v % 2
  | 1 => v % 65536
  | 2 => ux 32 (sx 16 v)
  | _ => v % 2 ^ 32

/-- The stored quality of a value: GOOD, or BAD with NON_FINITE (R222, R224). -/
def qualOf (type v : Nat) : Nat := if type = 5 ∧ f32Fin v = false then 14 else 0

/-- The record of a mapped point, its reset value if nothing has refreshed it (R221): value, quality, stamp. -/
def State.ptRec (s : State) (r : Rng) (p : Nat) : Nat × Nat × Option Nat :=
  match Store.get none s.pim.recs p with
  | some x => (x.value, x.qual, some x.stamp)
  | none => if r.dir = 0 then (0, 10, none) else (normPt r.type r.init, 17, none)

/-- AGE: courses since the last refresh, saturating (R223). -/
def State.ptAge (s : State) (st : Option Nat) : Nat :=
  match st with
  | some c => min 16777215 (s.crs.cnt - c)
  | none => 16777215

/-- The class period P in courses (R225). -/
def classP (cls per : Nat) : Nat :=
  if cls = 0 then 1
  else
    let ns := if cls = 1 then 1000000 else if cls = 2 then 10000000 else if cls = 3 then 100000000 else 1000000000
    if per = 0 then 1 else ns / per

/-- The ring and node that carry an input point (R226, R227). -/
def State.ptSource (s : State) (p : Nat) : Option (Nat × Nat) :=
  s.pim.segs.findSome? (fun (key, o) => match o with
    | some g =>
      if g.dir = 0 ∧ g.first ≤ p ∧ p < g.first + g.count then
        (((s.ring (key / 256)).map.map mapEl).find? (fun m => m.kind == 3 && m.item == key % 256)).map (fun m => (key / 256, m.node))
      else none
    | none => none)

/-- The source node of an input point is claimed and on its ring (R224). -/
def State.sourceUp (s : State) (p : Nat) : Bool :=
  match s.ptSource p with
  | some (k, a) => (match (s.ring k).node a with | some n => n.claimed && !n.off | none => false)
  | none => false

/-- QUALITY as a read gives it (R220, R224). -/
def State.ptQual (s : State) (p : Nat) : Nat :=
  match s.rng p with
  | none => 23
  | some r =>
    let (_, q, st) := s.ptRec r p
    if r.dir ≠ 0 then q
    else if !s.sourceUp p then 10
    else if q % 4 = 0 ∧ 2 * classP r.cls (s.get R.BOND_CRS_PERIOD_PERIOD_NS) < s.ptAge st then 5
    else q

/-- The value word of a record. -/
def State.ptValue (s : State) (p : Nat) : Nat :=
  match s.rng p with
  | none => 0
  | some r => (s.ptRec r p).1

/-- The second word of a record, formed now (R221, R223). -/
def State.ptSecond (s : State) (p : Nat) : Nat :=
  let age := match s.rng p with
    | none => 16777215
    | some r => s.ptAge (s.ptRec r p).2.2
  s.ptQual p + age * 256

/-- A process point as a master position: its value in counts, for an S32 or U32 point that is GOOD (R70). -/
def State.ptMaster (s : State) (p : Nat) : Option Int :=
  match s.rng p with
  | none => none
  | some r =>
    if s.ptQual p % 4 ≠ 0 then none
    else match r.type with
      | 4 => some (sx 32 (s.ptValue p))
      | 3 => some (s.ptValue p : Int)
      | _ => none

/-- The masters that a course reads: the value of every process point that is a good master now; one that nothing has refreshed is none (R70, R231). -/
def State.goodPts (s : State) : List (Nat × Int) := s.pim.recs.filterMap (fun (p, _) => (s.ptMaster p).map (fun v => (p, v)))

/-- A process point as a master position, as the PFM read it at the start of the course (R70, R231). -/
def State.ptStart (s : State) (p : Nat) : Option Int := (s.pim.start.find? (fun x => x.1 == p)).map Prod.snd

/-! What the image serves (R239). DEDUCED (log entry 95): every access takes the 8 bytes of one bank access, R238. -/

/-- Nothing served yet. -/
def Served.init : Served := ⟨0, 0, 0⟩

/-- The bytes of millisecond `m` and of the one before it. -/
def Served.at_ (v : Served) (m : Nat) : Served := if m = v.ms then v else if m = v.ms + 1 then ⟨m, 0, v.bytes⟩ else ⟨m, 0, 0⟩

/-- `n` accesses of requester `q` are served: 0 to 3 the rings, 4 the cores, 5 DMA, 6 CAP, 7 PFM. -/
def State.serve (s : State) (q n : Nat) : State :=
  let v := (Store.get Served.init s.pim.served q).at_ (s.now / 1000000)
  { s with pim := { s.pim with served := Store.put Served.init s.pim.served q { v with bytes := v.bytes + 8 * n } } }

/-- KiB and the longest wait of requester `q` in the last complete millisecond: the wait of an access is a free value (log entry 95), none waits without an access. -/
def State.servedWord (s : State) (q : Nat) : Nat × Nat :=
  let v := (Store.get Served.init s.pim.served q).at_ (s.now / 1000000)
  (min 65535 (v.last / 1024), if v.last = 0 then 0 else Config.freeNat s.free % 65536)

end Sys2Proof.Machine
end

