-- ==== Sys2Proof/Machine/MicroTable.lean ====
section
/-! DEFINITION. The fixed microstep table 0 of R158: round(1024 cos(2πi/1024)) over a quarter of the electrical cycle, the rest by symmetry. -/
namespace Sys2Proof.Machine

/-- The quarter wave, entries 0 to 256. -/
def cosQuarter : List Nat :=
  [1024, 1024, 1024, 1024, 1024, 1024, 1023, 1023, 1023, 1022, 1022, 1022, 1021, 1021, 1020, 1020, 1019, 1018, 1018, 1017, 1016, 1016, 1015, 1014, 1013, 1012, 1011, 1010, 1009, 1008, 1007, 1006] ++
  [1004, 1003, 1002, 1000, 999, 998, 996, 995, 993, 992, 990, 989, 987, 985, 983, 982, 980, 978, 976, 974, 972, 970, 968, 966, 964, 962, 960, 958, 955, 953, 951, 948] ++
  [946, 944, 941, 939, 936, 934, 931, 928, 926, 923, 920, 917, 915, 912, 909, 906, 903, 900, 897, 894, 891, 888, 885, 882, 878, 875, 872, 868, 865, 862, 858, 855] ++
  [851, 848, 844, 841, 837, 834, 830, 826, 822, 819, 815, 811, 807, 803, 799, 796, 792, 788, 784, 779, 775, 771, 767, 763, 759, 755, 750, 746, 742, 737, 733, 729] ++
  [724, 720, 715, 711, 706, 702, 697, 692, 688, 683, 678, 674, 669, 664, 659, 654, 650, 645, 640, 635, 630, 625, 620, 615, 610, 605, 600, 595, 590, 584, 579, 574] ++
  [569, 564, 558, 553, 548, 543, 537, 532, 526, 521, 516, 510, 505, 499, 494, 488, 483, 477, 472, 466, 460, 455, 449, 443, 438, 432, 426, 421, 415, 409, 403, 398] ++
  [392, 386, 380, 374, 369, 363, 357, 351, 345, 339, 333, 327, 321, 315, 309, 303, 297, 291, 285, 279, 273, 267, 261, 255, 249, 243, 237, 230, 224, 218, 212, 206] ++
  [200, 194, 187, 181, 175, 169, 163, 156, 150, 144, 138, 132, 125, 119, 113, 107, 100, 94, 88, 82, 75, 69, 63, 57, 50, 44, 38, 31, 25, 19, 13, 6] ++
  [0]

/-- round(1024 cos(2πi/1024)) (R158). -/
def cosTab (i : Nat) : Int :=
  let k := i % 1024
  if k ≤ 256 then (cosQuarter.getD k 0 : Nat)
  else if k ≤ 512 then -((cosQuarter.getD (512 - k) 0 : Nat) : Int)
  else if k ≤ 768 then -((cosQuarter.getD (k - 512) 0 : Nat) : Int)
  else (cosQuarter.getD (1024 - k) 0 : Nat)

/-- round(1024 sin(2πi/1024)) (R158). -/
def sinTab (i : Nat) : Int := cosTab (i + 768)

end Sys2Proof.Machine
end

