-- ==== Sys2Proof/Machine/LeFloat.lean ====
section
/-! DEFINITION. The loop engine's FP32 (R127) and its long accumulators (R128 to R132). Each operation answers its result and the sticky flags of R138 that it raises. -/
namespace Sys2Proof.Machine

/-- The quiet NaN of R127. -/
def qNaN : Nat := 0x7FC00000

/-! The sticky flags of R138, as masks. -/

/-- GOV. -/
def fGov : Nat := 1
/-- PROD_RANGE. -/
def fProd : Nat := 2
/-- NAN_SEEN. -/
def fNan : Nat := 4
/-- CB_WRAPFIX. -/
def fWrap : Nat := 8
/-- FINV. -/
def fInv : Nat := 16
/-- FOVF. -/
def fOvf : Nat := 32
/-- FDIVZ. -/
def fDivz : Nat := 64

/-- An operand as the engine reads it: a subnormal is a zero of the same sign (R127). -/
def leIn (x : Nat) : Nat := if f32Exp x = 0 then bits x 31 1 * 2 ^ 31 else x % 2 ^ 32

/-- A signalling NaN. -/
def sigNaN (x : Nat) : Bool := f32NaN x && !bit x 22

/-- FINV for a signalling NaN among two operands (IEEE 754, R127). -/
def sigRaise (x y : Nat) : Nat := if sigNaN x || sigNaN y then fInv else 0

/-- A rounded result as the engine delivers it: below 2^-126 a zero of the same sign, and FOVF where a finite operation rounds to infinity (R127). `neg0` is the sign of an exact zero. -/
def leOut (q : Rat) (neg0 : Bool) : Nat × Nat :=
  if q = 0 then (if neg0 then 2 ^ 31 else 0, 0)
  else
    let r := f32OfRat q
    if f32Exp r = 0 then (bits r 31 1 * 2 ^ 31, 0) else (r, if f32Inf r then fOvf else 0)

/-- FADD (R127). -/
def leAdd (x0 y0 : Nat) : Nat × Nat :=
  let x := leIn x0
  let y := leIn y0
  if f32NaN x || f32NaN y then (qNaN, sigRaise x y)
  else if f32Inf x then (if f32Inf y && (f32Neg x != f32Neg y) then (qNaN, fInv) else (x, 0))
  else if f32Inf y then (y, 0)
  else leOut (f32Rat x + f32Rat y) (f32Neg x && f32Neg y)

/-- The sign bit inverted. -/
def f32Flip (x : Nat) : Nat := setBit x 31 (!f32Neg x)

/-- FSUB (R127). -/
def leSub (x y : Nat) : Nat × Nat := if f32NaN y then leAdd x y else leAdd x (f32Flip y)

/-- A zero or infinity with the sign of a product or quotient. -/
def signed (base : Nat) (neg : Bool) : Nat := base + (if neg then 2 ^ 31 else 0)

/-- FMUL (R127). -/
def leMul (x0 y0 : Nat) : Nat × Nat :=
  let x := leIn x0
  let y := leIn y0
  let neg := f32Neg x != f32Neg y
  if f32NaN x || f32NaN y then (qNaN, sigRaise x y)
  else if f32Inf x || f32Inf y then
    (if f32Zero x || f32Zero y then (qNaN, fInv) else (signed 0x7F800000 neg, 0))
  else leOut (f32Rat x * f32Rat y) neg

/-- FDIV (R127, R143). -/
def leDiv (x0 y0 : Nat) : Nat × Nat :=
  let x := leIn x0
  let y := leIn y0
  let neg := f32Neg x != f32Neg y
  if f32NaN x || f32NaN y then (qNaN, sigRaise x y)
  else if f32Inf x then (if f32Inf y then (qNaN, fInv) else (signed 0x7F800000 neg, 0))
  else if f32Inf y then (signed 0 neg, 0)
  else if f32Zero y then
    (if f32Zero x then (qNaN, fInv) else (signed 0x7F800000 neg, fDivz))
  else leOut (f32Rat x / f32Rat y) neg

/-- The order of two non-NaN patterns: infinities at the ends. -/
def f32Lt (x y : Nat) : Bool :=
  if f32Inf x then f32Neg x && !(f32Inf y && f32Neg y)
  else if f32Inf y then !f32Neg y
  else decide (f32Int x < f32Int y)

/-- FMIN: the other operand for one NaN, −0 below +0 (R127). -/
def leMin (x0 y0 : Nat) : Nat × Nat :=
  let x := leIn x0
  let y := leIn y0
  if f32NaN x then (if f32NaN y then (qNaN, sigRaise x y) else (y, sigRaise x y))
  else if f32NaN y then (x, sigRaise x y)
  else if f32Zero x && f32Zero y then (if f32Neg x then x else y, 0)
  else (if f32Lt y x then y else x, 0)

/-- FMAX: the other operand for one NaN, −0 below +0 (R127). -/
def leMax (x0 y0 : Nat) : Nat × Nat :=
  let x := leIn x0
  let y := leIn y0
  if f32NaN x then (if f32NaN y then (qNaN, sigRaise x y) else (y, sigRaise x y))
  else if f32NaN y then (x, sigRaise x y)
  else if f32Zero x && f32Zero y then (if f32Neg x then y else x, 0)
  else (if f32Lt x y then y else x, 0)

/-- FABS; a NaN result is the quiet NaN of R127. -/
def leAbs (x0 : Nat) : Nat := if f32NaN (leIn x0) then qNaN else setBit (leIn x0) 31 false

/-- FNEG; a NaN result is the quiet NaN of R127. -/
def leNeg (x0 : Nat) : Nat := if f32NaN (leIn x0) then qNaN else f32Flip (leIn x0)

/-- FCLT: less than, false on NaN (R127). -/
def leClt (x0 y0 : Nat) : Nat × Nat :=
  let x := leIn x0
  let y := leIn y0
  if f32NaN x || f32NaN y then
    (0, if Config.fcltQuietInvalid then fInv else sigRaise x y)
  else (b2n (f32Lt x y), 0)

/-- FCLAMP: FMIN(FMAX(A, B), C), and a NaN for a NaN A (R127, R143). -/
def leClamp (a b c : Nat) : Nat × Nat :=
  if f32NaN a then (qNaN, sigRaise a 0)
  else
    let m := leMax a b
    let r := leMin m.1 c
    (r.1, m.2 ||| r.2)

/-- The nearest integer of an FP32 value in `w` signed bits, saturating; a NaN gives 0; both set FINV (R127). -/
def leToInt (w : Nat) (x0 : Nat) : Int × Nat :=
  let x := leIn x0
  let top : Int := (2 ^ (w - 1) : Nat)
  if f32NaN x then (0, fInv)
  else if f32Inf x then (if f32Neg x then -top else top - 1, fInv)
  else
    let i := rne (f32Rat x)
    if i < -top then (-top, fInv) else if top - 1 < i then (top - 1, fInv) else (i, 0)

/-- FINITE. -/
def leFinite (x : Nat) : Nat := b2n (f32Fin x)

/-! The long accumulators. -/

/-- An accumulator of 0 in state NORMAL (LCLR). -/
def Lacc.zero : Lacc := ⟨0, .normal⟩

/-- The largest integer an accumulator holds, plus 1. -/
def laccTop : Int := (2 ^ 175 : Nat)

/-- Saturated to the extreme of a sign (R130). -/
def Lacc.sat (neg : Bool) : Lacc := if neg then ⟨-laccTop, .satNeg⟩ else ⟨laccTop - 1, .satPos⟩

/-- Add an integer to an accumulator in state NORMAL (R130). -/
def Lacc.addInt (l : Lacc) (k : Int) : Lacc × Nat :=
  if l.n + k < -laccTop then (Lacc.sat true, fGov)
  else if laccTop - 1 < l.n + k then (Lacc.sat false, fGov)
  else ({ l with n := l.n + k }, 0)

/-- Add the product of two operands, or subtract it (R129, R130). -/
def Lacc.mac (l : Lacc) (sub : Bool) (x0 y0 : Nat) : Lacc × Nat :=
  let x := leIn x0
  let y := leIn y0
  let neg := f32Neg x != f32Neg y
  if l.st ≠ .normal then (l, 0)
  else if f32NaN x || f32NaN y then ({ l with st := .nan }, fProd)
  else if f32Inf x || f32Inf y then
    (if f32Zero x || f32Zero y then ({ l with st := .nan }, fProd) else (Lacc.sat neg, fProd))
  else
    let p := f32Rat x * f32Rat y
    if ((2 ^ 72 : Nat) : Rat) ≤ absR p then (Lacc.sat neg, fProd)
    else
      let k := rne (p * ((2 ^ 96 : Nat) : Rat))
      l.addInt (if sub then -k else k)

/-- The FP32 pattern of 1.0. -/
def f32One : Nat := 0x3F800000

/-- LADD: the operand times 1.0 (R129). -/
def Lacc.add (l : Lacc) (x : Nat) : Lacc × Nat := l.mac false x f32One

/-- Readout to FP32 (R131). -/
def Lacc.toF32 (l : Lacc) : Nat :=
  match l.st with
  | .normal => f32OfRat ((l.n : Rat) / ((2 ^ 96 : Nat) : Rat))
  | .satPos => 0x7F800000
  | .satNeg => 0xFF800000
  | .nan => qNaN

/-- Readout to a signed 64-bit integer (R131). -/
def Lacc.toI64 (l : Lacc) : Int × Nat :=
  let top : Int := (2 ^ 63 : Nat)
  match l.st with
  | .nan => (0, fInv)
  | .satPos => (top - 1, fInv)
  | .satNeg => (-top, fInv)
  | .normal =>
    let i := rne ((l.n : Rat) / ((2 ^ 96 : Nat) : Rat))
    if i < -top then (-top, fInv) else if top - 1 < i then (top - 1, fInv) else (i, 0)

/-- The code of a state in byte 22 of a stored image (R132). -/
def LaccSt.code : LaccSt → Nat
  | .normal => 0
  | .satPos => 1
  | .satNeg => 2
  | .nan => 3

/-- The 24-byte image of an accumulator, as a number (R132). -/
def Lacc.image (l : Lacc) : Nat := ux 176 l.n + l.st.code * 2 ^ 176

/-- The accumulator of a 24-byte image (R132). -/
def Lacc.ofImage (x : Nat) : Lacc :=
  ⟨sx 176 x, match bits x 176 8 with
    | 0 => .normal
    | 1 => .satPos
    | 2 => .satNeg
    | _ => .nan⟩

end Sys2Proof.Machine
end

