-- ==== Sys2Proof/Machine/Engine.lean ====
section
/-! DEFINITION. The loop engine as a machine (R113 to R126, R134 to R136, R139, R140): its state after reset, how an instruction is issued, its memory paths, its events and its digest. -/
namespace Sys2Proof.Machine

/-- A bank of digest lanes for course `c`: lane s starts at c XOR (s × 2^56) (R139). -/
def Bank.start (c : Nat) : Bank :=
  ⟨c, (List.range 16).map (fun s => c ^^^ (s * 2 ^ 56)), [], false⟩

/-- An engine after its domain's reset (R114). -/
def Eng.init : Eng :=
  { st := .halted, v := List.replicate 32 0, a := List.replicate 8 0, m := List.replicate 8 0,
    b := List.replicate 8 0, l := List.replicate 8 0, bind := List.replicate 8 none,
    lacc := List.replicate 4 Lacc.zero, sf := 0, pc := 0, cur := none, queue := [], asleep := false,
    haltReq := false, errCode := 0, cyc := 0, awake := 0, busy := 0, even := Bank.start 0,
    odd := Bank.start 0, dig := 0, digCrs := 0, axes := [], pub := [], ready := [], swap := none, kept := [] }

/-- Engine `n`. -/
def State.eng (s : State) (n : Nat) : Eng := Store.get Eng.init s.engs n

/-- Replace engine `n`. -/
def State.setEng (s : State) (n : Nat) (e : Eng) : State :=
  { s with engs := Store.put Eng.init s.engs n e }

/-- The base of an engine's program memory in the map (R21). -/
def leProg (n : Nat) : Nat := 0x50000000 + n * 0x40000

/-- The address of an engine's data-space address 0 in the map (R21, R116). -/
def leData (n : Nat) : Nat := 0x50000000 + n * 0x40000 + 0x20000

/-- Data register `i`. -/
def Eng.vr (e : Eng) (i : Nat) : Nat := at_ e.v i

/-- Write data register `i`. -/
def Eng.setV (e : Eng) (i x : Nat) : Eng := { e with v := e.v.set i (x % 2 ^ 32) }

/-- The pair Vi:Vi+1 as 64 bits, low word in the even register (R113). -/
def Eng.pair (e : Eng) (i : Nat) : Nat := e.vr i + e.vr (i + 1) * 2 ^ 32

/-- Write a pair. -/
def Eng.setPair (e : Eng) (i x : Nat) : Eng := (e.setV i x).setV (i + 1) (x / 2 ^ 32)

/-- What an instruction answers: the engine with the flags it raised, the bytes it stores and the cycles it occupies, at the next instruction or at a jump target; or an error code with a data address (R126). -/
inductive LeOut where
  | ok (e : Eng) (raised : Nat) (w : List (Nat × BitVec 8)) (cycles : Nat)
  | jump (e : Eng) (pc : Nat) (cycles : Nat)
  | err (code : Nat) (addr : Option Nat)

/-- The engine enters ERROR (R126); its queued events are dropped (R26, R122). -/
def State.leError (s : State) (n code : Nat) (addr : Option Nat) : State :=
  let e := s.eng n
  let s1 := s.setEng n { e with st := .error, errCode := code, queue := [], asleep := false }
  let s2 := s1.orFld R.LE_ENG_ERR_ERR (2 ^ n)
  match addr with
  | none => s2
  | some a => s2.set (R.LE_ENG_ERR_ADDR_ADDR n) a

/-- A fetch from this address is allowed: program memory or ROM, a multiple of 4 (R115). -/
def leFetchOk (pc : Nat) : Bool := pc % 4 == 0 && decide (pc < 0xC000)

/-- The data registers that an instruction reads, those that it writes, and the engine cycles from its issue until its result stands: the latency column of R143. -/
def leTime : Instr → List Nat × List Nat × Nat
  | .leAdd _ d a b | .leSub _ d a b | .leAnd _ d a b | .leOr _ d a b | .leXor _ d a b | .leSll _ d a b | .leSrl _ d a b | .leSra _ d a b | .leSlt _ d a b => ([a, b], [d], 1)
  | .leAddi _ d a _ | .leOri _ d a _ | .leFabs _ d a | .leFneg _ d a | .leFinite _ d a => ([a], [d], 1)
  | .leLui _ d _ | .leMvfa _ _ _ d | .leJal _ d _ | .leEvwait _ d | .leRdflg _ d | .leRdcyc _ d | .leRdcrs _ d => ([], [d], 1)
  | .leDfold _ a | .leClrf _ a | .leJr _ a => ([a], [], 1)
  | .leAdd64 _ d a b | .leSub64 _ d a b => ([a, a + 1, b, b + 1], [d, d + 1], 2)
  | .leSlt64 _ d a b => ([a, a + 1, b, b + 1], [d], 2)
  | .leFmin _ d a b | .leFmax _ d a b | .leFclt _ d a b => ([a, b], [d], 2)
  | .leFadd _ d a b | .leFsub _ d a b | .leFmul _ d a b => ([a, b], [d], 3)
  | .leFdiv _ d a b => ([a, b], [d], 14)
  | .leFclamp _ d a b c => ([a, b, c], [d], 3)
  | .leCvtif _ d a => ([a], [d], 3)
  | .leCvtlf _ d a => ([a, a + 1], [d], 3)
  | .leCvtfl _ d a => ([a], [d, d + 1], 3)
  | .leLmac _ _ p q | .leLmsu _ _ p q => ([p, q], [], 1)
  | .leLmac2 _ _ p q x y => ([p, q, x, y], [], 1)
  | .leLadd _ _ p => ([p], [], 1)
  | .leLdot _ _ _ _ c => ([c], [], 1)
  | .leVmax _ d _ c | .leVmin _ d _ c => ([c], [d, d + 1], 1)
  | .leLrd _ _ p => ([], [p], 4)
  | .leLrdq _ _ p => ([], [p, p + 1], 4)
  | .leLdw _ d _ _ _ => ([], [d], 2)
  | .leLdd _ d _ _ _ => ([], [d, d + 1], 2)
  | .leStw _ d _ _ _ => ([d], [], 1)
  | .leStd _ d _ _ _ => ([d, d + 1], [], 1)
  | .leMvta _ _ _ v => ([v], [], 1)
  | .leBr _ c r _ => ([r], if c = 5 then [r.val] else [], 1)
  | _ => ([], [], 1)

/-- The engine cycles that an instruction waits for the results it needs (R143). -/
def Eng.wait (e : Eng) (i : Instr) : Nat := (leTime i).1.foldl (fun m r => max m (Store.get 0 e.ready r)) 0

/-- The engine when an instruction that occupies `c` cycles has issued, the wait for its operands included: its cycle counts, and what is left until each result stands, the issue itself taking one cycle (R143, R145, R148). -/
def Eng.spend (e : Eng) (i : Instr) (c : Nat) : Eng :=
  let k := e.wait i + c
  let left := (e.ready.map (fun (r, x) => (r, x - k))).filter (fun p => p.2 != 0)
  { e with cyc := (e.cyc + k) % 2 ^ 32, awake := e.awake + k, ready := (leTime i).2.1.foldl (fun b r => Store.put 0 b r ((leTime i).2.2 - max c 1)) left }

/-- Issue one instruction on engine `n`: only a RUNNING engine that is not asleep in EVWAIT executes; a bad fetch address is code 2; the flags raised are also ORed into LE_ENGn_FLAGS (R138). -/
def leIssue (n : Nat) (i : Instr) (f : Eng → LeOut) (s : State) : State :=
  let e := s.eng n
  if e.st ≠ .running ∨ e.asleep = true then s
  else if leFetchOk e.pc = false then s.leError n 2 none
  else if s.poisoned (leProg n + e.pc) 4 && decide (e.pc < 0x8000) then s.leError n 6 none
  else
    match f e with
    | .err code addr => s.leError n code addr
    | .jump e' pc c => s.setEng n { e'.spend i c with pc := pc % 2 ^ 16 }
    | .ok e' raised w c =>
      let s1 := s.setEng n { e'.spend i c with pc := (e'.pc + 4) % 2 ^ 16, sf := e'.sf ||| raised }
      (s1.poke w).orFld (R.LE_ENG_FLAGS_FLAGS n) raised

/-- An instruction that only writes data register `d`. -/
def leWr (d : Nat) (r : Nat × Nat) (c : Nat) (e : Eng) : LeOut := .ok (e.setV d r.1) r.2 [] c

/-- An instruction that only writes the pair at `d`; an odd register is an illegal instruction (R146). -/
def leWrPair (d : Nat) (r : Nat × Nat) (c : Nat) (e : Eng) : LeOut := .ok (e.setPair d r.1) r.2 [] c

/-- A register that must name a pair is odd (R146). -/
def odd (i : Nat) : Bool := i % 2 == 1

/-- The illegal instruction error (R146). -/
def leIll : LeOut := .err 1 none

/-- One use of An (R134, R135): the effective address for a byte offset, the register reduced, the register after post-modification by `post`, and whether CB_WRAPFIX is raised; none for a bound descriptor of length 0. -/
def Eng.use (e : Eng) (n : Nat) (ofs post : Int) : Option (Nat × Nat × Nat) :=
  let a := at_ e.a n
  match e.bind.getD n none with
  | none => some (ux 32 (a + ofs), ux 32 (a + post), 0)
  | some k =>
    let b := at_ e.b k
    let len := at_ e.l k
    if len = 0 then none
    else
      let d := sx 32 (ux 32 ((a : Int) - b))
      let r := d % (len : Int)
      some (ux 32 (b + (r + ofs) % (len : Int)), ux 32 (b + (r + post) % (len : Int)),
        if r = d then 0 else fWrap)

/-- The signed offset register Mn paired with An. -/
def Eng.mOf (e : Eng) (n : Nat) : Int := sx 32 (at_ e.m n)

/-- An reduced as a use without post-modification leaves it, or post-modified (R135). -/
def Eng.setA (e : Eng) (n x : Nat) : Eng := { e with a := e.a.set n x }

/-- The slot an address in the slot areas or the mirror window belongs to. -/
def leSlot (a : Nat) : Nat := bits a 8 4

/-- A slot is assigned (R117). -/
def Eng.assigned (e : Eng) (sl : Nat) : Bool := decide (sl < e.axes.length)

/-- Check an access of the engine to `size` bytes at data address `a` (R116, R117, R120, R136). -/
def Eng.check (e : Eng) (store : Bool) (align size a : Nat) : Option (Nat × Option Nat) :=
  if a % align ≠ 0 then some (4, some a)
  else if 0x21000 < a + size then some (3, some a)
  else if 0x20000 ≤ a then
    (if store && e.assigned (leSlot a) then none else some (5, some a))
  else if a < 0x1000 && !e.assigned (leSlot a) && decide (a % 0x100 < 0x98) then some (3, some a)
  else none

/-- The address in the map that an engine's store reaches: its data memory, or the axis block behind the mirror window (R116, R120). -/
def Eng.mapAddr (n : Nat) (e : Eng) (a : Nat) : Nat :=
  if 0x20000 ≤ a then 0x30000000 + at_ e.axes (leSlot a) * 0x1000 + 0xF00 + a % 0x100
  else leData n + a

/-- Load `size` bytes through An (R134 to R136). -/
def leLoad (s : State) (n size : Nat) (an : Nat) (pm : Bool) (ofs : Int) (e : Eng)
    (k : Eng → Nat → LeOut) : LeOut :=
  match e.use an ofs (if pm then e.mOf an else 0) with
  | none => .err 3 (some (at_ e.a an))
  | some (ea, a', fx) =>
    match e.check false size size ea with
    | some (c, ad) => .err c ad
    | none =>
      if s.poisoned (leData n + ea) size then .err 6 none
      else match k (e.setA an a') (s.load (leData n + ea) size) with
      | .ok e' r w c => .ok e' (r ||| fx) w c
      | o => o

/-- Store `size` bytes through An (R120, R134 to R136). -/
def leStore (n size : Nat) (an : Nat) (pm : Bool) (ofs : Int) (v : Nat) (e : Eng) : LeOut :=
  match e.use an ofs (if pm then e.mOf an else 0) with
  | none => .err 3 (some (at_ e.a an))
  | some (ea, a', fx) =>
    match e.check true size size ea with
    | some (c, ad) => .err c ad
    | none => .ok (e.setA an a') fx (cells (Eng.mapAddr n e ea) v size) 1

/-- The addresses of the three doublewords of an accumulator image, An after the use, and the flag; or the error (R136). -/
def Eng.image (e : Eng) (store : Bool) (an : Nat) (pm : Bool) (ofs : Int) :
    Except (Nat × Option Nat) (List Nat × Nat × Nat) :=
  match e.use an ofs (if pm then e.mOf an else 0), e.use an (ofs + 8) 0, e.use an (ofs + 16) 0 with
  | some (e0, a', fx), some (e1, _, _), some (e2, _, _) =>
    match e.check store 8 8 e0, e.check store 8 8 e1, e.check store 8 8 e2 with
    | none, none, none => .ok ([e0, e1, e2], a', fx)
    | some x, _, _ => .error x
    | _, some x, _ => .error x
    | _, _, some x => .error x
  | _, _, _ => .error (3, some (at_ e.a an))

/-- The elements a vector instruction reads: `k` uses of An with post-modification (R137); the words, An afterwards, and the flags; or the error. -/
def leVec (s : State) (n an : Nat) : Nat → Eng → Nat → Except (Nat × Option Nat) (List Nat × Eng × Nat)
  | 0, e, fx => .ok ([], e, fx)
  | k + 1, e, fx =>
    match e.use an 0 (e.mOf an) with
    | none => .error (3, some (at_ e.a an))
    | some (ea, a', f1) =>
      match e.check false 4 4 ea with
      | some x => .error x
      | none =>
        if s.poisoned (leData n + ea) 4 then .error (6, none)
        else match leVec s n an k (e.setA an a') (fx ||| f1) with
        | .error x => .error x
        | .ok (ws, e', f2) => .ok (s.load (leData n + ea) 4 :: ws, e', f2)

/-- The event word of R123. -/
def Ev.word (v : Ev) : Nat :=
  v.slot % 16 + b2n v.missing * 16 + v.crs % 2 * 32 + v.axis % 256 * 256 + v.crs % 2 ^ 16 * 65536

/-- The bank of a course (R139). -/
def Eng.bankOf (e : Eng) (c : Nat) : Bank := if c % 2 = 0 then e.even else e.odd

/-- Replace the bank of a course. -/
def Eng.setBank (e : Eng) (c : Nat) (b : Bank) : Eng :=
  if c % 2 = 0 then { e with even := b } else { e with odd := b }

/-- Rotate 64 bits left by 13. -/
def rot13 (x : Nat) : Nat := (x * 2 ^ 13 + x / 2 ^ 51) % 2 ^ 64

/-- Fold one word into a lane (R139). -/
def foldLane (lane w : Nat) : Nat :=
  ((rot13 (lane % 2 ^ 64) ^^^ (w % 2 ^ 32)) * 0x9E3779B97F4A7C15) % 2 ^ 64

/-- Fold one word into the current event's lane. -/
def Eng.fold (e : Eng) (v : Ev) (w : Nat) : Eng :=
  let b := e.bankOf v.crs
  e.setBank v.crs { b with lanes := b.lanes.set v.slot (foldLane (at_ b.lanes v.slot) w) }

/-- The engine digest of a bank: the sum of its lanes modulo 2^64 (R139). -/
def Bank.sum (b : Bank) : Nat := b.lanes.foldl (fun a x => (a + x) % 2 ^ 64) 0

/-- Close a bank: its digest becomes the engine's last closed digest (R140). -/
def Eng.close (e : Eng) (c : Nat) : Eng :=
  let b := e.bankOf c
  { e.setBank c { b with closed := true } with dig := b.sum, digCrs := b.crs }

/-- The four words of a slot's command staging record (R117). -/
def State.staging (s : State) (n sl : Nat) : List Nat :=
  (List.range 4).map (fun i => s.load (leData n + sl * 0x100 + 0x80 + 4 * i) 4)

/-- CMDC: publish the staging record by value, and close the digest when every assigned slot has done so for the course (R125, R140). A bank that stands for another course by now counts nothing. -/
def Eng.publish (e : Eng) (v : Ev) (words : List Nat) : Eng :=
  let b := e.bankOf v.crs
  let done := if b.done.contains v.slot || b.crs != v.crs then b.done else v.slot :: b.done
  let e1 := { e.setBank v.crs { b with done := done } with pub := Store.put ⟨0, []⟩ e.pub v.slot ⟨v.crs, words⟩ }
  if !b.closed && b.crs == v.crs && decide (done.length = e.axes.length) then e1.close v.crs else e1

/-- A reset of the bank of course `c` at its start; an unclosed digest is closed with DIG_PART (R139, R140). A bank that has folded nothing since the device's reset has no digest to close. For an engine with no assigned slot the spec does not say when the digest closes: it closes here, with DIG_PART, in every course (DESIGN CHOICE, log entry 93). -/
def State.resetBank (s : State) (n c : Nat) : State :=
  let e := s.eng n
  let b := e.bankOf c
  let s1 := if !b.closed && decide (b.crs + 2 = c) then
      (s.setEng n (e.close c)).setFlag (R.LE_ENG_STAT_DIG_PART n) true
    else s
  s1.setEng n ((s1.eng n).setBank c (Bank.start c))

/-- An event is served before another one: both were posted in the same engine cycle, and its axis number is the lower (R26). -/
def Ev.before (v q : Ev) : Bool := v.at_ == q.at_ && decide (v.axis < q.axis)

/-- The queue with an event that is posted now: it comes after every event posted in an earlier engine cycle, and among those of its own cycle in the order of the axis numbers (R26). -/
def insEv (v : Ev) : List Ev → List Ev
  | [] => [v]
  | q :: r => if v.before q then v :: q :: r else q :: insEv v r

/-- Post an event to an engine: dropped and counted in HALTED or ERROR, in place of an earlier event of the slot, else in its place in the queue's order of arrival; a sleeping engine wakes (R26, R122 to R124). -/
def State.postEv (s : State) (n : Nat) (v : Ev) : State :=
  let e := s.eng n
  if e.st ≠ .running then s.count (R.LE_ENG_EVCNT_EVDROP n)
  else if e.queue.any (fun q => q.slot == v.slot) then
    (s.setEng n { e with queue := e.queue.map (fun q => if q.slot = v.slot then v else q) }).count (R.LE_ENG_EVCNT_EVREPL n)
  else s.setEng n { e with queue := insEv v e.queue, asleep := false }

/-- The class T axes among an engine's axes, in slot order (R117). -/
def State.classT (s : State) (ax : Nat) : Bool := bit (s.load (0x30000000 + ax * 0x1000 + 0x400) 4) 0

/-- The axis runs a custom program (R83). -/
def State.custom (s : State) (ax : Nat) : Bool := bit (s.load (0x30000000 + ax * 0x1000 + 0x400) 4) 22

/-- The class T index of slot `sl`: how many class T axes stand in lower slots (R117). -/
def State.ctIndex (s : State) (axes : List Nat) (sl : Nat) : Nat :=
  ((axes.take sl).filter s.classT).length

/-- The slot information area of slot `sl` (R117). -/
def State.slotInfo (s : State) (n : Nat) (axes : List Nat) (sl : Nat) : List (Nat × BitVec 8) :=
  let base := leData n + sl * 0x100 + 0x90
  match axes[sl]? with
  | none => cells base (0xFF * 256) 8
  | some ax =>
    cells base (ax % 256 + (if s.classT ax then s.ctIndex axes sl else 0xFF) * 256 +
      (1 + 2 * b2n (s.classT ax) + 4 * b2n (s.custom ax)) * 65536) 8

/-- Start an engine at ENTRY (R122): from HALTED or ERROR, after every slot's information area is written. -/
def State.engStart (s : State) (n : Nat) : State :=
  let e := s.eng n
  if e.st = .running then s
  else
    (s.poke ((List.range 16).flatMap (s.slotInfo n e.axes))).setEng n
      { e with st := .running, errCode := 0, pc := s.get (R.LE_ENG_ENTRY_ENTRY n) / 4 * 4, queue := [], asleep := false, haltReq := false, ready := [] }

/-- Put an engine in HALTED, dropping its queue (R122). -/
def State.engHalt (s : State) (n : Nat) : State :=
  s.setEng n { s.eng n with st := .halted, queue := [], asleep := false, haltReq := false, errCode := 0 }

/-- HALT_REQ: at once from ERROR or inside EVWAIT, else at the next EVWAIT (R122). -/
def State.engHaltReq (s : State) (n : Nat) : State :=
  let e := s.eng n
  match e.st with
  | .halted => s
  | .error => s.engHalt n
  | .running => if e.asleep then s.engHalt n else s.setEng n { e with haltReq := true }

end Sys2Proof.Machine
end

