-- ==== Sys2Proof/Machine/LoopLaw.lean ====
section
/-! DEFINITION. The standard loop program (R83 to R106): the loop parameter record, the gain tables, feed-forward, filters, limits and monitors, and one course of one axis. FP32 values are patterns; each operation is the loop engine's own (R127 to R131), and pairs carry the sticky flags raised. -/
namespace Sys2Proof.Machine

/-! Operations on a value with its flags. -/

/-- A value with no flags. -/
def fv (x : Nat) : Nat × Nat := (x, 0)

/-- An operation on two values with flags. -/
def f2 (op : Nat → Nat → Nat × Nat) (a b : Nat × Nat) : Nat × Nat :=
  ((op a.1 b.1).1, a.2 ||| b.2 ||| (op a.1 b.1).2)

/-- A sum of products in one long accumulator, read out once (R85): pairs of factors, and whether each product is subtracted. -/
def laccSum : Lacc → Nat → List (Bool × Nat × Nat) → Nat × Nat
  | l, fx, [] => (l.toF32, fx)
  | l, fx, (sub, x, y) :: r => laccSum (l.mac sub x y).1 (fx ||| (l.mac sub x y).2) r

/-- A sum of products from an empty accumulator. -/
def lsum (ps : List (Bool × Nat × Nat)) : Nat × Nat := laccSum Lacc.zero 0 ps

/-! The parameter copy of R105 in the engine's data memory. -/

/-- The address of the loop parameter record of an axis block (R105). -/
def lpBlock (ax : Nat) : Nat := 0x30000000 + ax * 0x1000 + 0x400

/-- The address of the parameter copy of slot `sl` of engine `n` (R116). -/
def lpCopy (n sl : Nat) : Nat := leData n + 0x1000 + sl * 0xC00

/-- The address of the compensation copy of class T index `t` (R116). -/
def compCopy (n t : Nat) : Nat := leData n + 0xE000 + t * 0x1400

/-- The feedback area of slot `sl` of engine `n` for course `c` (R117). -/
def fbArea (n sl c : Nat) : Nat := leData n + sl * 0x100 + c % 2 * 0x20

/-- The set-point area of slot `sl` of engine `n` for course `c` (R117, R118). -/
def spArea (n sl c : Nat) : Nat := leData n + sl * 0x100 + 0x40 + c % 2 * 0x20

/-- A word of the loop parameter record at `base`. -/
def State.lpW (s : State) (base ofs : Nat) : Nat := s.load (base + ofs) 4

/-- Entry `i` of a table of words at `base`. -/
def State.tab (s : State) (base i : Nat) : Nat := s.load (base + 4 * i) 4

/-- n_p of LP_CFG.PDIV (R86). -/
def pdiv (cfg : Nat) : Nat := 2 ^ bits cfg 2 2

/-- The place of filter `f` (R94). -/
def bqPlace (cfg f : Nat) : Nat := bits cfg (8 + 2 * f) 2

/-- The five coefficients of filter `f` for schedule `sch`: B0, B1, B2, A1, A2 (R94). -/
def State.bqSet (s : State) (base sch f : Nat) : List Nat :=
  (List.range 5).map (fun i => s.load (base + 768 + (4 * sch + f) * 20 + 4 * i) 4)

/-- The gain of a table at a normalised error (R90). -/
def State.gain (s : State) (tab : Nat) (n : Nat × Nat) : Nat × Nat :=
  let m := f2 leMin n (fv f32One)
  let x := f2 leMul (fv 0x42000000) m
  let i := if f32Fin x.1 then ((f32Rat x.1).floor).toNat else 32
  if 32 ≤ i then (s.tab tab 32, x.2)
  else
    let f := f2 leSub x (fv (f32OfInt i))
    f2 leAdd (fv (s.tab tab i)) (f2 leMul f (f2 leSub (fv (s.tab tab (i + 1))) (fv (s.tab tab i))))

/-- The cogging term of a class T axis (R92). -/
def State.cog (s : State) (lp comp : Nat) (p : Int) : Nat × Nat :=
  let cfg := s.lpW lp 0
  let rev := sx 64 (s.load (lp + 64) 8)
  if bit cfg 4 = false ∨ rev ≤ 0 then fv 0
  else
    let r := (p - sx 64 (s.load (lp + 72) 8)) % rev
    let idx := (1024 * r / rev).toNat
    let f := f32OfRat (((1024 * r - idx * rev : Int) : Rat) / (rev : Rat))
    let c0 := s.tab comp idx
    let c1 := s.tab comp ((idx + 1) % 1024)
    f2 leAdd (fv c0) (f2 leMul (fv f) (f2 leSub (fv c1) (fv c0)))

/-- The friction term of a class T axis (R92). -/
def State.fric (s : State) (lp comp : Nat) (p : Int) (vset : Nat × Nat) : Nat × Nat :=
  let cfg := s.lpW lp 0
  let p0 := sx 64 (s.load (lp + 80) 8)
  let p1 := sx 64 (s.load (lp + 88) 8)
  if bit cfg 5 = false then fv 0
  else
    let val :=
      if p ≤ p0 then fv (s.tab (comp + 0x1000) 0)
      else if p1 ≤ p then fv (s.tab (comp + 0x1000) 255)
      else
        let i := (255 * (p - p0) / (p1 - p0)).toNat
        let f := f32OfRat (((255 * (p - p0) : Int) : Rat) / ((p1 - p0 : Int) : Rat) - (i : Rat))
        let a := s.tab (comp + 0x1000) i
        let b := s.tab (comp + 0x1000) (i + 1)
        f2 leAdd (fv a) (f2 leMul (fv f) (f2 leSub (fv b) (fv a)))
    let q := f2 leDiv vset (fv (s.lpW lp 60))
    let c := leClamp q.1 0xBF800000 f32One
    f2 leMul val (c.1, q.2 ||| c.2)

/-- A filter's histories for a first input x0: x = x0 and y = x0 (b0+b1+b2)/(1+a1+a2) (R94); with the flags raised. -/
def Bq.start (co : List Nat) (x0 : Nat) : Bq × Nat :=
  let num := lsum [(false, at_ co 0, f32One), (false, at_ co 1, f32One), (false, at_ co 2, f32One)]
  let den := lsum [(false, f32One, f32One), (false, at_ co 3, f32One), (false, at_ co 4, f32One)]
  let y := f2 leDiv (f2 leMul (fv x0) num) den
  (⟨x0, x0, y.1, y.1, true⟩, y.2)

/-- One filter: its output and its histories shifted (R94); an uninitialised filter takes this input as its first. -/
def Bq.run (b0 : Bq) (co : List Nat) (x : Nat) : (Nat × Nat) × Bq :=
  let (b, fx) := if b0.ready then (b0, 0) else Bq.start co x
  let y := lsum [(false, at_ co 0, x), (false, at_ co 1, b.x1), (false, at_ co 2, b.x2),
    (true, at_ co 3, b.y1), (true, at_ co 4, b.y2)]
  ((y.1, y.2 ||| fx), ⟨x, b.x1, y.1, b.y1, true⟩)

/-- The filters of one place, in index order; `hold` forms the output and keeps the histories (R94, R103). The spec leaves open what a torque filter without histories does in a held course: it starts from each held course's input again until a course that is not held (DESIGN CHOICE, log entry 37). -/
def State.bqChain (s : State) (lp sch place : Nat) (hold : Bool) (bs : List Bq) :
    List Nat → Nat × Nat → (Nat × Nat) × List Bq
  | [], x => (x, bs)
  | f :: r, x =>
    if bqPlace (s.lpW lp 0) f = place then
      let b := bs.getD f ⟨0, 0, 0, 0, false⟩
      let o := b.run (s.bqSet lp sch f) x.1
      let y := (o.1.1, x.2 ||| o.1.2)
      State.bqChain s lp sch place hold (if hold then bs else bs.set f o.2) r y
    else State.bqChain s lp sch place hold bs r x

/-- k_bus of a course that is not held: U_NOM / U_BUS clamped, the last value for an unusable U_BUS; BUS_INVALID; and the flags raised (R91). -/
def kBus (en : Bool) (unom ubus last : Nat) : Nat × Bool × Nat :=
  if !en then (f32One, false, 0)
  else if !f32Fin ubus || f32Lt ubus (leMul 0x3E800000 unom).1 then (last, true, (leMul 0x3E800000 unom).2)
  else
    let k := f2 leDiv (fv unom) (fv ubus)
    let c := leClamp k.1 0x3F000000 0x40000000
    (c.1, false, (leMul 0x3E800000 unom).2 ||| k.2 ||| c.2)

/-! The checks of R105 on the loop parameter record. -/

/-- A finite FP32 value above zero. -/
def fPos (x : Nat) : Bool := f32Fin x && !f32Neg x && !f32Zero x

/-- A finite FP32 value of at least zero. -/
def fNonneg (x : Nat) : Bool := f32Fin x && (!f32Neg x || f32Zero x)

/-- The loop parameter record of an axis passes the checks of R90 to R95 and of its field table, `schedules` being those present in the image (R94, R105). REV_INC is read as a signed value: the record's table does not say which it is (DESIGN CHOICE, log entry 37). -/
def State.lpOk (s : State) (schedules : List Nat) (ax : Nat) : Bool :=
  let lp := lpBlock ax
  let w := s.lpW lp
  let cfg := w 0
  let classT := bit cfg 0
  let comp := 0x38100000 + bits cfg 16 6 * 0x1400
  fPos (w 4) && fPos (w 8) && fNonneg (w 12) && fNonneg (w 16) && fNonneg (w 20) &&
  (!bit cfg 1 || fPos (w 24)) && fPos (w 28) &&
  (f32Fin (w 32) && f32Neg (w 32) && !f32Zero (w 32)) && fPos (w 36) &&
  decide (s.load (lp + 40) 8 ≤ s.load (lp + 48) 8) && decide (0 < s.load (lp + 48) 8) &&
  decide (1 ≤ s.load (lp + 56) 1) && decide (1 ≤ s.load (lp + 57) 1) &&
  (!bit cfg 5 || fPos (w 60)) &&
  (!bit cfg 4 || decide (0 < sx 64 (s.load (lp + 64) 8))) &&
  (!bit cfg 5 || decide (sx 64 (s.load (lp + 80) 8) < sx 64 (s.load (lp + 88) 8))) &&
  (classT || (!bit cfg 4 && !bit cfg 5)) &&
  (List.range 33).all (fun i => fNonneg (s.tab (lp + 256) i) && fNonneg (s.tab (lp + 512) i)) &&
  (List.range 4).all (fun f =>
    bqPlace cfg f != 3 &&
    (bqPlace cfg f == 0 || schedules.all (fun sch =>
      let co := s.bqSet lp sch f
      co.all f32Fin &&
      decide (absR (f32Rat (at_ co 4)) < 1) &&
      decide (absR (f32Rat (at_ co 3)) < 1 + f32Rat (at_ co 4))))) &&
  (!classT || (List.range 1280).all (fun i =>
    f32Fin (s.tab comp i) && decide (absR (f32Rat (s.tab comp i)) ≤ 4)))

/-- The byte pairs that copy `len` bytes from one address to another. -/
def State.copyCells (s : State) (dst src len : Nat) : List (Nat × BitVec 8) :=
  (List.range len).map (fun i => (dst + i, s.byte (src + i)))

/-- The parameter record at `lp` and, for a class T axis, the compensation slot at `comp`, as copied to other places. -/
def State.lpMove (s : State) (toLp toComp lp comp : Nat) : List (Nat × BitVec 8) :=
  s.copyCells toLp lp 2816 ++ (if bit (s.lpW lp 0) 0 then s.copyCells toComp comp 0x1400 else [])

/-- The compensation slot that an axis block names (R93). -/
def State.compSlot (s : State) (ax : Nat) : Nat := 0x38100000 + bits (s.lpW (lpBlock ax) 0) 16 6 * 0x1400

/-- The copy of R105 into the places of R116: the loop parameter record, and for a class T axis its compensation slot. -/
def State.lpCopyCells (s : State) (n sl ax : Nat) (axes : List Nat) : List (Nat × BitVec 8) :=
  s.lpMove (lpCopy n sl) (compCopy n (s.ctIndex axes sl)) (lpBlock ax) (s.compSlot ax)

/-- The address of engine `n`'s parameter shadow (R116). -/
def lpShadow (n : Nat) : Nat := leData n + 0xD000

/-- The address of engine `n`'s compensation shadow (R116). -/
def compShadow (n : Nat) : Nat := leData n + 0x18000

/-! The loop state. -/

/-- A loop after reset. -/
def Loop.init : Loop :=
  { uPrev := 0, uCur := 0, integ := 0, pReal := 0, tReal := 0, pActPrev := 0, vActPrev := 0, tPrev := 0,
    kI := 0, kBus := f32One, kpEff := 0, bq := List.replicate 4 ⟨0, 0, 0, 0, false⟩, feRun := 0, veRun := 0,
    heldRun := 0, faulted := false, driveOff := false, detail := 0, govSeen := false, prodSeen := false,
    cycMax := 0, satCnt := 0, heldCnt := 0, sched := 0, enabled := false, since := 0 }

/-- The axis is enabled in course `c` (R102, R104). -/
def Loop.enabledAt (l : Loop) (c : Nat) : Bool := if c < l.since then !l.enabled else l.enabled

/-- The loop of axis `a`. -/
def State.loop (s : State) (a : Nat) : Loop := Store.get Loop.init s.loops a

/-- Replace the loop of axis `a`. -/
def State.setLoop (s : State) (a : Nat) (l : Loop) : State :=
  { s with loops := Store.put Loop.init s.loops a l }

/-- The loop state initialised as at ENABLE at a position latched at time `t` (R87); the filters take `ready` as set: none for their own first input, or zero histories (R99). The last sample instant stays: dt spans to it in the ENABLE course too (R85). -/
def Loop.begin (l : Loop) (p : Int) (t : Nat) (zero : Bool) : Loop :=
  { l with uPrev := 0, uCur := 0, integ := 0, pReal := p, tReal := t, pActPrev := p, vActPrev := 0, kI := 0, kBus := f32One, bq := List.replicate 4 ⟨0, 0, 0, 0, zero⟩, feRun := 0, veRun := 0 }

/-- The causes of FAULT, as masks (R48). -/
def cEstop : Nat := 2 ^ 0
/-- LIMIT_POS. -/
def cLimPos : Nat := 2 ^ 1
/-- LIMIT_NEG. -/
def cLimNeg : Nat := 2 ^ 2
/-- LIMIT_CHATTER. -/
def cChatter : Nat := 2 ^ 3
/-- HOME_FAIL. -/
def cHome : Nat := 2 ^ 4
/-- LOOP_FAULT. -/
def cLoop : Nat := 2 ^ 5
/-- FOLLOW_ERR. -/
def cFollow : Nat := 2 ^ 6
/-- LOOP_LATE. -/
def cLoopLate : Nat := 2 ^ 7
/-- PF_LATE. -/
def cPfLate : Nat := 2 ^ 8
/-- SYNC_OVERSPEED. -/
def cOverspeed : Nat := 2 ^ 9
/-- FOLLOW_LOST. -/
def cFollowLost : Nat := 2 ^ 10
/-- SAFETY. -/
def cSafety : Nat := 2 ^ 11
/-- SAFE_HOLD. -/
def cSafeHold : Nat := 2 ^ 12
/-- DRIVE. -/
def cDrive : Nat := 2 ^ 13
/-- FEEDBACK_LOST. -/
def cFbLost : Nat := 2 ^ 14
/-- STEP_FAULT. -/
def cStep : Nat := 2 ^ 15

/-- The inputs of one course of one axis: the record words of the feedback area, the set-point record, the course, and the sample instants. -/
structure LoopIn where
  missing : Bool
  fbPos : Int
  uBus : Nat
  status : Nat
  ts : Nat
  spPos : Int
  spVel : Nat
  spAcc : Nat
  ctrl : Nat
  tqScale : Nat
  crs : Nat
  sched : Nat
  deriving DecidableEq, Repr

/-- What one course of one axis gives: the loop state carried on, the command words, the causes latched, the flags, and the words of the loop state record (R106). -/
structure LoopOut where
  loop : Loop
  tq : Nat
  en : Bool
  causes : Nat
  nonfin : Bool
  flags : Nat
  ep : Int
  vset : Nat
  vact : Nat
  ev : Nat
  ff : Nat
  kv : Nat
  lflags : Nat
  deriving DecidableEq, Repr

/-- rate(d, t) of R85: increments per second, the exact quotient rounded once. A step of device time may leave a negative time; over a time of 0 the spec states no result, which is free (DESIGN CHOICE, log entry 2). -/
def rate (d t : Int) : Nat := if t = 0 then Config.rateZero d % 2 ^ 32 else f32OfRat ((d : Rat) * 1000000000 / (t : Rat))

/-- |x| above a limit, as the monitors judge (R96, R97). -/
def f32Above (x lim : Nat) : Bool := !f32NaN x && f32Lt lim (leAbs x)

/-- Saturating count to 2^32 − 1. -/
def sat32 (n : Nat) : Nat := if n < 2 ^ 32 - 1 then n + 1 else n

/-- Filters whose coefficients differ between two schedules start anew (R94). -/
def State.schedFilters (s : State) (lp old new : Nat) (bs : List Bq) : List Bq :=
  if old = new then bs
  else (List.range 4).map (fun f =>
    let b := bs.getD f ⟨0, 0, 0, 0, false⟩
    if s.bqSet lp old f = s.bqSet lp new f then b else { b with ready := false })

/-- The monitor counts and causes of one course (R96, R97, R102). -/
def monitor (l : Loop) (skip hold : Bool) (past vOver : Bool) (feN veN : Nat) : Nat × Nat × Nat × Nat :=
  if skip then (0, 0, 0, 0)
  else if hold then (l.feRun, l.veRun, 0, 0)
  else
    let fe := if past then l.feRun + 1 else 0
    let ve := if vOver then l.veRun + 1 else 0
    (fe, ve, if feN ≤ fe then 3 else 0, if veN ≤ ve then 4 else 0)

/-- What one course computes before its outputs are decided: the filters' histories, position and velocity, the position loop, the velocity loop with its gains, the torque before and after its limits, the integrator, the monitors and the flags (R85 to R97). -/
structure LoopMid where
  bq : List Bq
  pAct : Int
  vAct : Nat
  ep : Int
  uPrev : Nat
  uCur : Nat
  kI : Nat
  kpEff : Nat
  vset : Nat
  ev : Nat
  kv : Nat
  ff : Nat
  kBus : Nat
  busHeld : Bool
  tq : Nat
  out : Nat
  hi : Bool
  lo : Bool
  integ : Nat
  past : Bool
  ilim : Nat
  mon : Nat × Nat × Nat × Nat
  flags : Nat
  deriving DecidableEq, Repr

/-- The loop state a course begins with: INIT starts it afresh, that of ENABLE with its record cleared, that of CLEAR_FAULT not; and a new schedule may start filters anew (R47, R87, R94, R106). -/
def State.loopBegin (s : State) (lp : Nat) (l0 : Loop) (i : LoopIn) : Loop :=
  if bit i.ctrl 1 then
    let l := { l0.begin i.fbPos i.ts false with faulted := false, driveOff := false }
    if l0.enabled && i.crs == l0.since then { l with satCnt := 0, heldCnt := 0, cycMax := 0, detail := 0, heldRun := 0, govSeen := false, prodSeen := false } else l
  else { l0 with bq := s.schedFilters lp l0.sched i.sched l0.bq }

/-- Feedback is held in this course (R103); the ENABLE course then begins at the last position received. -/
def LoopIn.held (i : LoopIn) : Bool := i.missing

/-- The drive is off: DRIVE_OFF, or the torque reported off by feedback that is present (R98). A held course has no report of its own: it runs as computed whatever the last record said (DESIGN CHOICE, log entry 37). -/
def LoopIn.susp (i : LoopIn) : Bool := bit i.ctrl 3 || (!i.held && bit i.status 2)

/-- The computation of one course from the loop state it begins with (R85 to R97). A held course keeps the last k_bus, also after BUS_EN was cleared, where R91 says 1.0 as well; and an integrator that is not 0 when T_I becomes 0 by a RELOAD or a live update stands as it is, where R89's text says that it stays 0 (DESIGN CHOICE, log entry 37). -/
def State.loopMid (s : State) (lp comp : Nat) (l1 : Loop) (i : LoopIn) : LoopMid :=
  let cfg := s.lpW lp 0
  let init := bit i.ctrl 1
  let held := i.held
  let dt := f32OfRat (((i.ts : Int) - (l1.tPrev : Int) : Rat) / 1000000000)
  -- position and velocity
  let gone := f2 leMul (fv l1.vActPrev) (fv dt)
  let pAct : Int := if held then l1.pActPrev + (leToInt 64 gone.1).1 else i.fbPos
  let vfb : (Nat × Nat) × List Bq :=
    if init then s.bqChain lp i.sched 1 false l1.bq [0, 1, 2, 3] (fv 0)
    else if held then ((l1.vActPrev, gone.2 ||| (leToInt 64 gone.1).2), l1.bq)
    else s.bqChain lp i.sched 1 false l1.bq [0, 1, 2, 3] (fv (rate (pAct - l1.pReal) ((i.ts : Int) - (l1.tReal : Int))))
  let vAct := if init then 0 else vfb.1.1
  let ep := i.spPos - pAct
  -- position loop
  let np := pdiv cfg
  let fe := f32OfInt ep
  let tick := i.crs % np == 0
  let kp := s.gain (lp + 512) (f2 leDiv (fv (leAbs fe)) (fv (s.lpW lp 8)))
  let u := f2 leMul kp (fv fe)
  let uPrev := if tick then l1.uCur else l1.uPrev
  let uCur := if tick then u.1 else l1.uCur
  let kI := if tick then 0 else l1.kI
  let ramp := f2 leDiv (f2 leMul (f2 leSub (fv uCur) (fv uPrev)) (fv (f32OfInt ((kI + 1 : Nat) : Int)))) (fv (f32OfInt (np : Int)))
  let vset := if np = 1 then f2 leAdd (fv i.spVel) (fv uCur) else f2 leAdd (f2 leAdd (fv i.spVel) (fv uPrev)) ramp
  -- velocity loop
  let ev := f2 leSub vset (fv vAct)
  let kv := s.gain (lp + 256) (f2 leDiv (fv (leAbs ev.1)) (fv (s.lpW lp 4)))
  let cg := s.cog lp comp pAct
  let fr := s.fric lp comp pAct vset
  let inertia := s.lpW lp 20
  let sum := lsum [(false, kv.1, ev.1), (false, l1.integ, f32One), (false, inertia, i.spAcc), (false, cg.1, f32One), (false, fr.1, f32One)]
  let ff := lsum [(false, inertia, i.spAcc), (false, cg.1, f32One), (false, fr.1, f32One)]
  let bt := s.bqChain lp i.sched 2 held vfb.2 [0, 1, 2, 3] sum
  let kb : Nat × Bool × Nat := if held then (l1.kBus, false, 0) else kBus (bit cfg 1) (s.lpW lp 24) i.uBus l1.kBus
  let tq := f2 leMul (fv kb.1) bt.1
  -- limits
  let hard := bit i.ctrl 4
  let pl := if hard && bit i.ctrl 5 then leMul i.tqScale (s.lpW lp 28) else fv (s.lpW lp 28)
  let nl := if hard && !bit i.ctrl 5 then leMul i.tqScale (s.lpW lp 32) else fv (s.lpW lp 32)
  let pos := pl.1
  let neg := nl.1
  let out := leClamp tq.1 neg pos
  let hi := f32Lt pos tq.1 && !f32NaN tq.1
  let lo := f32Lt tq.1 neg && !f32NaN tq.1
  -- integrator
  let ti := s.lpW lp 12
  let ilim := s.lpW lp 16
  let evPos := f32Lt 0 ev.1 && !f32NaN ev.1
  let evNeg := f32Lt ev.1 0 && !f32NaN ev.1
  let step := f2 leAdd (fv l1.integ) (f2 leDiv (f2 leMul (f2 leMul kv ev) (fv dt)) (fv ti))
  let integ : Nat × Nat :=
    if i.susp then fv 0
    else if !held && fPos ti && !(hi && evPos) && !(lo && evNeg) then
      let c := leClamp step.1 (f32Flip ilim) ilim
      (c.1, step.2 ||| c.2)
    else fv l1.integ
  -- monitors
  let past := decide (s.load (lp + 48) 8 < ep.natAbs)
  { bq := bt.2, pAct := pAct, vAct := vAct, ep := ep, uPrev := uPrev, uCur := uCur, kI := kI, kpEff := if tick then kp.1 else l1.kpEff,
    vset := vset.1, ev := ev.1, kv := kv.1, ff := ff.1, kBus := kb.1, busHeld := kb.2.1, tq := tq.1, out := out.1, hi := hi, lo := lo, integ := integ.1,
    past := !(i.susp || hard) && decide (s.load (lp + 40) 8 < ep.natAbs), ilim := ilim,
    mon := monitor l1 (i.susp || hard) held past (f32Above ev.1 (s.lpW lp 36)) (s.load (lp + 56) 1) (s.load (lp + 57) 1),
    flags := (if tick then u.2 else 0) ||| vset.2 ||| ev.2 ||| kv.2 ||| sum.2 ||| bt.1.2 ||| kb.2.2 ||| tq.2 ||| pl.2 ||| nl.2 ||| out.2 ||| integ.2 ||| cg.2 ||| fr.2 ||| vfb.1.2 }

/-- A value that must be finite is not (R99). -/
def LoopMid.bad (m : LoopMid) : Bool :=
  !f32Fin m.tq || !f32Fin m.out || !f32Fin m.integ || m.bq.any (fun b => !(f32Fin b.y1 && f32Fin b.y2 && f32Fin b.x1 && f32Fin b.x2))

/-- The courses in a row without feedback while the axis is enabled (R102). -/
def Loop.heldNow (l1 : Loop) (i : LoopIn) : Nat := if i.missing && l1.enabledAt i.crs then l1.heldRun + 1 else 0

/-- The causes that a course latches (R96, R97, R99, R102). -/
def Loop.causesOf (l1 : Loop) (i : LoopIn) (m : LoopMid) : Nat :=
  let fault := m.bad && l1.enabledAt i.crs
  if !l1.enabledAt i.crs then 0
  else (if fault then cLoop else 0) ||| (if fault && l1.faulted then cDrive else 0) ||| (if m.mon.2.2.1 ≠ 0 ∨ m.mon.2.2.2 ≠ 0 then cFollow else 0) |||
    (if !i.held && bit i.status 1 then cDrive else 0) ||| (if 3 ≤ l1.heldNow i then cFbLost ||| cDrive else 0)

/-- The outputs of a course and the loop state carried on (R98, R99, R102, R103, R106). Where several causes arise in one course, FAULT_DETAIL names the first of 2, 1, 6, 5, 3, 4: R102 gives no order (DESIGN CHOICE, log entry 37). -/
def Loop.finish (l1 : Loop) (i : LoopIn) (m : LoopMid) : LoopOut :=
  let fault := m.bad && l1.enabledAt i.crs
  let again := fault && l1.faulted
  let driveOff := l1.driveOff || again
  let detail :=
    if again then 2 else if fault then 1 else if !l1.enabledAt i.crs then l1.detail else if 3 ≤ l1.heldNow i then 6
    else if !i.held && bit i.status 1 then 5 else if m.mon.2.2.1 ≠ 0 then 3 else if m.mon.2.2.2 ≠ 0 then 4 else l1.detail
  let l2 : Loop := { l1 with uPrev := m.uPrev, uCur := m.uCur, integ := m.integ, kI := m.kI + 1, kBus := m.kBus, kpEff := m.kpEff, bq := m.bq, pReal := (if i.held then l1.pReal else m.pAct), tReal := (if i.held then l1.tReal else i.ts), pActPrev := m.pAct, vActPrev := m.vAct, tPrev := i.ts, feRun := m.mon.1, veRun := m.mon.2.1, heldRun := l1.heldNow i, faulted := l1.faulted || fault, driveOff := driveOff, detail := detail, satCnt := if m.hi || m.lo then sat32 l1.satCnt else l1.satCnt, heldCnt := if i.held then sat32 l1.heldCnt else l1.heldCnt, sched := i.sched }
  let l3 := if m.bad then { (l2.begin m.pAct i.ts true) with govSeen := m.flags % 2 == 1, prodSeen := m.flags / 2 % 2 == 1 } else l2
  let drive := bit i.ctrl 0 && !(!i.held && bit i.status 2) && !driveOff && !bit i.ctrl 3
  { loop := l3, tq := if m.bad || !drive then 0 else m.out, en := drive, causes := l1.causesOf i m, nonfin := fault, flags := m.flags, ep := m.ep,
    vset := m.vset, vact := m.vAct, ev := m.ev, ff := m.ff, kv := m.kv,
    lflags := b2n (m.hi || m.lo) + 2 * b2n (m.integ == m.ilim || m.integ == f32Flip m.ilim) + 4 * b2n m.past +
      8 * b2n i.held + 16 * b2n m.busHeld + 32 * b2n l3.govSeen + 64 * b2n l3.prodSeen }

/-- One course of one axis under the standard loop program (R85 to R103): `lp` and `comp` are the parameter and compensation copies. -/
def State.law (s : State) (lp comp : Nat) (l0 : Loop) (i : LoopIn) : LoopOut :=
  (s.loopBegin lp l0 i).finish i (s.loopMid lp comp (s.loopBegin lp l0 i) i)

/-- The words of loop state that the standard loop program folds, in a fixed order (R141). -/
def Loop.foldWords (l : Loop) : List Nat :=
  [l.integ, l.uPrev, l.uCur, l.kI] ++ l.bq.flatMap (fun b => [b.x1, b.x2, b.y1, b.y2]) ++ [l.kBus] ++
  [ux 32 l.pReal, ux 64 l.pReal / 2 ^ 32, ux 32 l.pActPrev, ux 64 l.pActPrev / 2 ^ 32, l.vActPrev,
    l.tReal % 2 ^ 32, l.tReal / 2 ^ 32 % 2 ^ 32, l.tPrev % 2 ^ 32, l.tPrev / 2 ^ 32 % 2 ^ 32]

/-- The loop state record of R106, bytes 0 to 67. -/
def LoopOut.record (o : LoopOut) (crs cycles base : Nat) : List (Nat × BitVec 8) :=
  let l := o.loop
  cells base (l.detail + o.lflags * 256) 4 ++ cells (base + 4) crs 4 ++ cells (base + 8) (ux 64 o.ep) 8 ++
  cells (base + 16) o.vset 4 ++ cells (base + 20) o.vact 4 ++ cells (base + 24) o.ev 4 ++
  cells (base + 28) l.integ 4 ++ cells (base + 32) o.ff 4 ++ cells (base + 36) o.tq 4 ++
  cells (base + 40) l.kBus 4 ++ cells (base + 44) o.kv 4 ++ cells (base + 48) l.kpEff 4 ++
  cells (base + 52) cycles 4 ++ cells (base + 56) (max cycles l.cycMax) 4 ++
  cells (base + 60) l.satCnt 4 ++ cells (base + 64) l.heldCnt 4

/-- The worst-case engine cycles of an axis's configuration (R110). -/
def lpCycles (cfg : Nat) : Nat :=
  420 + 80 + 28 * ((List.range 4).filter (fun f => bqPlace cfg f != 0)).length + (if bit cfg 1 then 18 else 0) +
  (if bit cfg 4 || bit cfg 5 then 96 else 0) + 12

/-- The inputs of an event's course from the slot's areas (R117, R118, R187). -/
def State.loopIn (s : State) (n : Nat) (v : Ev) : LoopIn :=
  let fb := fbArea n v.slot v.crs
  let sp := spArea n v.slot v.crs
  { missing := v.missing, fbPos := sx 64 (s.load fb 8), uBus := s.load (fb + 8) 4, status := s.load (fb + 12) 4,
    ts := s.load (fb + 24) 8, spPos := sx 64 (s.load sp 8), spVel := s.load (sp + 8) 4, spAcc := s.load (sp + 12) 4,
    ctrl := s.load (sp + 20) 4, tqScale := s.load (sp + 24) 4, crs := v.crs, sched := v.sched }

end Sys2Proof.Machine
end

