-- ==== Sys2Proof/Machine/Plan.lean ====
section
/-! DEFINITION. Jerk-limited profiles in one dimension (R54, R55, R57 to R59, R61 to R63): velocity changes, moves over a distance, stops, and their evaluation in exact arithmetic. Positions in increments or group units, times in seconds. -/
namespace Sys2Proof.Machine

/-- Motion state at an instant: position, velocity, acceleration. -/
structure Mot where
  p : Rat
  v : Rat
  a : Rat
  deriving DecidableEq, Repr

/-- The state `t` seconds into a segment that starts at position `p` and velocity `v`. -/
def Seg.at (g : Seg) (p v t : Rat) : Mot :=
  ⟨p + v * t + g.a * t * t / 2 + g.j * t * t * t / 6, v + g.a * t + g.j * t * t / 2, g.a + g.j * t⟩

/-- The state `t` seconds into a list of segments; past its end the motion goes on at the velocity reached. -/
def segsAt : List Seg → Rat → Rat → Rat → Mot
  | [], p, v, t => ⟨p + v * t, v, 0⟩
  | g :: r, p, v, t =>
    if t ≤ g.t then g.at p v t
    else
      let e := g.at p v g.t
      segsAt r e.p e.v (t - g.t)

/-- The duration of a list of segments. -/
def segsTime : List Seg → Rat
  | [] => 0
  | g :: r => g.t + segsTime r

/-- The state at the end of a list of segments. -/
def segsEnd : List Seg → Rat → Rat → Mot
  | [], p, v => ⟨p, v, 0⟩
  | g :: r, p, v => let e := g.at p v g.t; segsEnd r e.p e.v

/-- The state of a plan at its elapsed time plus `t`. -/
def Plan.at (q : Plan) (t : Rat) : Mot := segsAt q.segs q.p q.v (q.el + t)

/-- The plan's end state. -/
def Plan.fin (q : Plan) : Mot := segsEnd q.segs q.p q.v

/-- The plan has run out at its elapsed time plus `t`. -/
def Plan.done (q : Plan) (t : Rat) : Bool := decide (segsTime q.segs ≤ q.el + t)

/-- A segment unless its duration is not positive. -/
def seg (t a j : Rat) : List Seg := if t ≤ 0 then [] else [⟨t, a, j⟩]

/-- A velocity change from (v0, a0) to v1 under acceleration limit A and jerk J, ending with acceleration 0 (R54 for a0 = 0, R55 otherwise): first toward the peak acceleration, a constant part, then back to 0. -/
def velChange (v0 a0 v1 A J : Rat) : List Seg :=
  if J ≤ 0 ∨ A ≤ 0 then []
  else
    -- the velocity that a0 leads to when it is taken to 0 under J
    let dv := v1 - (v0 + a0 * absR a0 / (2 * J))
    if dv = 0 then seg (absR a0 / J) a0 (-(sgnR a0) * J)
    else
      let d := sgnR dv
      let b := d * a0
      let gap := d * (v1 - v0)
      -- peak acceleration without a constant part
      let pk := sqrtR (J * gap + b * b / 2)
      let ap := if A < pk then A else pk
      let t1 := absR (ap - b) / J
      let j1 := if b ≤ ap then d * J else -(d * J)
      let v1a := (b + ap) / 2 * t1
      let t3 := ap / J
      let rest := gap - v1a - ap * t3 / 2
      let t2 := if 0 < ap then rest / ap else 0
      seg t1 a0 j1 ++ seg t2 (d * ap) 0 ++ seg t3 (d * ap) (-(d * J))

/-- The distance a list of segments covers from velocity v0. -/
def segsDist (l : List Seg) (v0 : Rat) : Rat := (segsEnd l 0 v0).p

/-- The limits of a move, all positive: speed, acceleration, deceleration and jerk, then the deceleration and the jerk of its last fall, and the jerk of a rise, which the soft limits may lower (R64). -/
structure Lims where
  v : Rat
  a : Rat
  d : Rat
  j : Rat
  fd : Rat
  fj : Rat
  rj : Rat
  deriving DecidableEq, Repr

/-- The limits of an entry: its speed, acceleration, deceleration and jerk. -/
def Lims.of (v a d j : Rat) : Lims := ⟨v, a, d, j, d, j, j⟩

/-- The largest of two rationals. -/
def maxR (a b : Rat) : Rat := if a < b then b else a

/-- The smallest of two rationals. -/
def minR (a b : Rat) : Rat := if a < b then a else b

/-- The velocity that the present acceleration leads to when it is taken to 0 under jerk J. -/
def Mot.lead (m : Mot) (J : Rat) : Rat := if J ≤ 0 then m.v else m.v + m.a * absR m.a / (2 * J)

/-- The change from the present velocity to `v`: a rise of the speed under A_MAX and a fall under D_MAX; through zero velocity the part that slows is under D_MAX and the part that rises under A_MAX (R55, R62). An acceleration that already carries the velocity through zero is kept within both. -/
def toSpeed (m : Mot) (v : Rat) (l : Lims) : List Seg :=
  let lead := m.lead l.j
  if lead * v < 0 then velChange m.v m.a 0 l.d l.j ++ velChange 0 0 v l.a l.rj
  else if m.v * v < 0 then velChange m.v m.a v (minR l.a l.d) (minR l.j l.rj)
  else if absR v < absR lead then velChange m.v m.a v l.d l.j
  else velChange m.v m.a v l.a l.rj

/-- The distance of a move that peaks at speed v and ends at ve. -/
def peakDist (m : Mot) (v ve : Rat) (l : Lims) : Rat :=
  segsDist (toSpeed m v l) m.v + segsDist (velChange v 0 ve l.fd l.fj) v

/-- The largest v between `lo` and `hi` for which `ok` holds, by at most `n` halvings; it stops within a relative 2^-48, inside the 2^-20 of R54. -/
def bisect (ok : Rat → Bool) : Nat → Rat → Rat → Rat
  | 0, lo, _ => lo
  | n + 1, lo, hi =>
    if hi - lo ≤ hi / 2 ^ 48 then lo
    else
      let mid := (lo + hi) / 2
      if ok mid then bisect ok n mid hi else bisect ok n lo mid

/-- The largest peak speed for which a move over distance d fits (R54): no lower than the speed the start leads to where that fits, else down to the end speed. -/
def peakFit (m : Mot) (ve d : Rat) (l : Lims) : Rat :=
  let ok (v : Rat) : Bool := decide (peakDist m v ve l ≤ d)
  let k := minR l.v (maxR ve (m.lead l.j))
  if ok k then bisect ok 80 k l.v else bisect ok 80 ve k

/-- The speed a move over distance d reaches: its cruise speed, or the largest that fits. -/
def movePeak (m : Mot) (d ve : Rat) (l : Lims) : Rat :=
  if peakDist m l.v ve l ≤ d then l.v else peakFit m ve d l

/-- Segments run slower by a factor k: the same velocities over k times the distance. -/
def slowSegs (k : Rat) (l : List Seg) : List Seg := l.map (fun g => ⟨g.t * k, g.a / k, g.j / (k * k)⟩)

/-- A move over distance d ≥ 0 in the positive direction, ending exactly there at speed ve: cruise where there is room, else the largest peak that fits, the residue absorbed in the last deceleration (R40, R54). -/
def moveFrom (m : Mot) (d ve : Rat) (l : Lims) : List Seg :=
  let v := movePeak m d ve l
  let up := toSpeed m v l
  let fall := velChange v 0 ve l.fd l.fj
  let room := d - segsDist up m.v
  let need := segsDist fall v
  if v = l.v ∧ need ≤ room then up ++ seg ((room - need) / v) 0 0 ++ fall
  else if 0 < need then up ++ slowSegs (room / need) fall
  else if 0 < v then up ++ seg (room / v) 0 0
  else up

/-- As `moveFrom`; a start that can only come to rest short of the end goes on from there (R55). -/
def moveSegs (m : Mot) (d ve : Rat) (l : Lims) : List Seg :=
  let q := moveFrom m d ve l
  let left := d - segsDist q m.v
  if left ≤ 0 ∨ 0 < ve then q else q ++ moveFrom ⟨0, 0, 0⟩ left 0 l

/-- Segments with every sign turned, for a move in the negative direction. -/
def flipSegs (l : List Seg) : List Seg := l.map (fun g => ⟨g.t, -g.a, -g.j⟩)

/-- The motion seen in direction `dir`. -/
def Mot.along (m : Mot) (dir : Rat) : Mot := ⟨dir * m.p, dir * m.v, dir * m.a⟩

/-- A stop from the present state under deceleration D and jerk J. -/
def stopSegs (m : Mot) (D J : Rat) : List Seg := velChange m.v m.a 0 D J

/-- Where a stop under D and J comes to rest (STOP_POS, R48, R63). -/
def stopAt (m : Mot) (D J : Rat) : Rat := m.p + segsDist (stopSegs m D J) m.v

/-- The emergency ramp: constant deceleration, no jerk limit (R74). -/
def emergSegs (D : Rat) (m : Mot) : List Seg := if D ≤ 0 then [] else seg (absR m.v / D) (-(sgnR m.v) * D) 0

/-- A velocity or an acceleration cut toward zero to a 64-bit fraction, where a plan starts. -/
def cut64 (q : Rat) : Rat := sgnR q * (((absR q * 2 ^ 64).floor : Rat) / 2 ^ 64)

/-- The state a plan starts from: the position with its 32-bit fraction (R40). -/
def Mot.cut (m : Mot) : Mot := ⟨cut32 m.p, cut64 m.v, cut64 m.a⟩

/-- A plan from the present state, its segments formed from the state it starts from. -/
def Mot.plan (m : Mot) (f : Mot → List Seg) : Plan := ⟨m.cut.p, m.cut.v, f m.cut, 0⟩

/-- What the arithmetic of a plan may leave over a distance d: well inside the 2^-20 of R54. -/
def slack (d : Rat) : Rat := (absR d + 1) / 2 ^ 24

/-- The largest end speed, at most ve, that a start from `m` reaches over distance d: the joint is lowered, never raised (R59). A fall to a small speed takes more room than a stop, so the speeds that fit lie above and below; none where not even a stop fits. -/
def reachVel (m : Mot) (ve d : Rat) (l : Lims) : Option Rat :=
  let ok (v : Rat) : Bool := decide (segsDist (toSpeed m v l) m.v ≤ d + slack d)
  let k := minR ve (maxR 0 (m.lead l.j))
  if ok ve then some ve
  else if ok k then some (bisect ok 80 k ve)
  else if ok 0 then some (bisect ok 80 0 k)
  else none

/-- The segments of a move straight to `goal` in direction `dir`, ending there at speed ve. -/
def Mot.straight (m : Mot) (dir goal ve : Rat) (l : Lims) : List Seg :=
  if m.v = 0 ∧ m.a = 0 ∧ goal = m.p then []
  else
    let g := moveSegs (m.along dir) (dir * (goal - m.p)) ve l
    if dir < 0 then flipSegs g else g

/-- An ABS or REL entry planned (R54 to R63): the plan, where it ends, the speed there, and, where the axis first comes to rest, the point where it turns. -/
structure Leg where
  plan : Plan
  goal : Rat
  speed : Rat
  turn : Option Rat
  deriving DecidableEq, Repr

/-- The largest speed, at most v, with which an entry can begin whose room to slow down to ve is `room w` at speed w (R59). -/
def lowerJoint (v ve D J : Rat) (room : Rat → Rat) : Rat :=
  let ok (w : Rat) : Bool := decide (0 ≤ room w) && (decide (w ≤ ve) || decide (segsDist (velChange w 0 ve D J) w ≤ room w))
  if ok v then v else if ok (minR v ve) then bisect ok 80 (minR v ve) v else bisect ok 80 0 v

end Sys2Proof.Machine
end

