-- ==== Sys2Proof/Machine/Axis.lean ====
section
/-! DEFINITION. Axes and groups as data: records in the axis region (R41 to R44, R48, R51, R68), queue entries, parameter checks, cam tables (R72) and the state after reset. -/
namespace Sys2Proof.Machine

/-- The address of an axis block (R41). -/
def axBlock (a : Nat) : Nat := 0x30000000 + a * 0x1000

/-- The address of a group block (R41). -/
def grpBlock (g : Nat) : Nat := 0x300F0000 + g * 0x400

/-- The address of a shared set-point record (R41, R73). -/
def sharedRec (d sl : Nat) : Nat := 0x300F8000 + (d * 32 + sl) * 16

/-- An empty parameter copy. -/
def AxPar.init : AxPar :=
  ⟨0, 0, 0, 0, 0, 0, 0, 0, 0, 0, 0, 0, 0, 0, 0, 0, 0, 0, 0, 0, 0⟩

/-- The parameter record of an axis in the axis region (R43). -/
def State.axPar (s : State) (a : Nat) : AxPar :=
  let r (o n : Nat) := s.load (axBlock a + o) n
  { cfg := r 0 4, softMin := r 8 8, softMax := r 16 8, velLimit := r 24 4, accLimit := r 28 4, jerkLimit := r 32 4,
    stopDec := r 36 4, stopJerk := r 40 4, emergDec := r 44 4, homeMethod := r 48 1, homeDir := r 49 1, homeDwell := r 50 2,
    homeVfast := r 52 4, homeVslow := r 56 4, homeAcc := r 60 4, homeOfs := r 64 8, homeMaxdist := r 72 8, homeTorque := r 80 4,
    limCfg := r 84 4, limPol := r 88 4, pubCfg := r 92 4 }

/-- An empty queue slot. -/
def Entry.empty (n : Nat) : Entry := ⟨List.replicate n 0, 0, 0, 0, none⟩

/-- A debouncer at rest. -/
def Deb.init : Deb := ⟨false, 0, 0⟩

/-- A chatter watch at rest. -/
def Chat.init : Chat := ⟨none, [], 0, false⟩

/-- No sync. -/
def SyncSt.init : SyncSt := ⟨0, 0, 0, false, 0⟩

/-- No input latched. -/
def AxIn.init : AxIn := ⟨false, false, false, false, 0, false, false, 0, false, false, 0⟩

/-- An axis after reset (R46, R48): DISABLED, unassigned until the image assigns it. -/
def Ax.init : Ax :=
  { assigned := false, st := .disabled, homeCode := 0, fault := 0, posUnc := false, homed := false, lp := Deb.init,
    ln := Deb.init, hm := Deb.init, chatLp := Chat.init, chatLn := Chat.init, gearLocked := false, camLocked := false,
    camRefused := false, reversal := false, softStop := false, grp := none, par := AxPar.init, copied := false,
    slots := List.replicate 8 (Entry.empty 16), head := 0, count := 0, pos := 0, vel := 0, acc := 0, plan := none,
    cmdPos := 0, prevPos := 0, actPos := 0, actPrev := 0, stopPos := 0, overshoot := 0, ofs := 0, activeTag := 0,
    doneTag := 0, crsLo := 0, dwell := none, homing := none, sync := SyncSt.init, inp := AxIn.init, pend := 0, cond := 0,
    ended := false, doneEvt := false, faultEvt := false, late := none, ss1 := false, sto := false, evts := [], stoSince := false,
    initCtl := false, paramNew := false, goal := 0, turnAt := none }

/-- A group after reset: no members (R68). -/
def Grp.init : Grp :=
  { members := List.replicate 8 none, scales := List.replicate 8 0, slots := List.replicate 8 (Entry.empty 24), head := 0,
    count := 0, lines := [], base := [], stopping := false, waiting := false, dwell := none, activeTag := 0, pathVel := 0, last := none,
    ended := false, doneEvt := false }

/-- Axis `a`. -/
def State.ax (s : State) (a : Nat) : Ax := Store.get Ax.init s.axes a

/-- Replace axis `a`. -/
def State.setAx (s : State) (a : Nat) (x : Ax) : State := { s with axes := Store.put Ax.init s.axes a x }

/-- Group `g`. -/
def State.grp (s : State) (g : Nat) : Grp := Store.get Grp.init s.grps g

/-- Replace group `g`. -/
def State.setGrp (s : State) (g : Nat) (x : Grp) : State := { s with grps := Store.put Grp.init s.grps g x }

/-- The numbers of the axes that hold something, rising. -/
def State.axNums (s : State) : List Nat := (List.range 240).filter (fun a => s.axes.any (fun x => x.1 == a))

/-- The groups that hold something, in the order of their numbers. -/
def State.grpNums (s : State) : List Nat := (List.range 32).filter (fun k => s.grps.any (fun x => x.1 == k))

/-- The code of an axis state (R45). -/
def AxSt.code : AxSt → Nat
  | .disabled => 0
  | .standstill => 1
  | .moving => 2
  | .group => 3
  | .sync => 4
  | .homing => 5
  | .stopping => 6
  | .faultStop => 7
  | .fault => 8

/-- Pulse class (R38). -/
def Ax.pulse (x : Ax) : Bool := bit x.par.cfg 2

/-- The axis is enabled: in any state but DISABLED (R29, R102). -/
def Ax.enabled (x : Ax) : Bool := x.st != .disabled

/-- At rest: STANDSTILL, FAULT or DISABLED (R446). -/
def Ax.atRest (x : Ax) : Bool := x.st == .standstill || x.st == .fault || x.st == .disabled

/-- The drive is held disabled in FAULT: cause DRIVE, or an STO since FAULT_STOP (R47). -/
def Ax.driveOff (x : Ax) : Bool := x.sto || x.stoSince || bit x.fault 13

/-- The motion state of the planner. -/
def Ax.mot (x : Ax) : Mot := ⟨x.pos, x.vel, x.acc⟩

/-! Queue entries. -/

/-- A 64-bit field of an entry at word `i`. -/
def Entry.dw (e : Entry) (i : Nat) : Nat := at_ e.words i + at_ e.words (i + 1) * 2 ^ 32

/-- TYPE. -/
def Entry.type (e : Entry) : Nat := bits (at_ e.words 0) 0 8
/-- BLEND, or MSRC_KIND of a sync entry. -/
def Entry.blend (e : Entry) : Nat := bits (at_ e.words 0) 8 8
/-- FLAGS.DONE_EVT. -/
def Entry.doneEvt (e : Entry) : Bool := bit (at_ e.words 0) 24
/-- TAG. -/
def Entry.tag (e : Entry) : Nat := at_ e.words 1
/-- TARGET, signed. -/
def Entry.target (e : Entry) : Int := sx 64 (e.dw 2)
/-- V_MAX as a pattern. -/
def Entry.vMax (e : Entry) : Nat := at_ e.words 4
/-- A_MAX. -/
def Entry.aMax (e : Entry) : Nat := at_ e.words 5
/-- D_MAX. -/
def Entry.dMax (e : Entry) : Nat := at_ e.words 6
/-- J_MAX. -/
def Entry.jMax (e : Entry) : Nat := at_ e.words 7
/-- TOL in increments. -/
def Entry.tol (e : Entry) : Nat := e.dw 8
/-- DWELL in µs. -/
def Entry.dwellUs (e : Entry) : Nat := at_ e.words 10
/-- MSRC_ID of a sync entry. -/
def Entry.msrc (e : Entry) : Nat := at_ e.words 2
/-- GEAR_NUM, signed. -/
def Entry.num (e : Entry) : Int := sx 32 (at_ e.words 3)
/-- CAM_TABLE. -/
def Entry.table (e : Entry) : Nat := bits (at_ e.words 3) 0 6
/-- GEAR_DEN. -/
def Entry.den (e : Entry) : Nat := at_ e.words 4
/-- MASTER_OFS. -/
def Entry.masterOfs (e : Entry) : Int := sx 64 (e.dw 8)
/-- SLAVE_OFS. -/
def Entry.slaveOfs (e : Entry) : Int := sx 64 (e.dw 10)
/-- A sync entry. -/
def Entry.isSync (e : Entry) : Bool := e.type == 5 || e.type == 6

/-- The limits of a motion entry. -/
def Entry.lims (e : Entry) : Lims := Lims.of (absR (f32Rat e.vMax)) (f32Rat e.aMax) (f32Rat e.dMax) (f32Rat e.jMax)

/-- The first word of an entry with its status; the reserved bits of FLAGS read 0 (R51, R68). -/
def Entry.word0 (e : Entry) : Nat := bits (at_ e.words 0) 0 16 + e.status % 256 * 2 ^ 16 + b2n e.doneEvt * 2 ^ 24

/-- The bytes of an entry in the queue view: the staged words with STATUS, START_POS and, for a motion entry, END_POS; what its form reserves reads 0 (R51). -/
def Entry.view (e : Entry) (base : Nat) : List (Nat × BitVec 8) :=
  let w := ((e.words.set 0 e.word0).set 12 (ux 32 e.startPos)).set 13 (ux 64 e.startPos / 2 ^ 32)
  let w := if e.isSync then ((w.set 6 0).set 14 0).set 15 0 else ((w.set 11 0).set 14 (ux 32 e.endPos)).set 15 (ux 64 e.endPos / 2 ^ 32)
  (List.range 16).flatMap (fun i => cells (base + 4 * i) (at_ w i) 4)

/-- The bytes of a group entry: the staged words with STATUS (R68). -/
def Entry.gview (e : Entry) (base : Nat) : List (Nat × BitVec 8) :=
  let w := e.words.set 0 e.word0
  (List.range 24).flatMap (fun i => cells (base + 4 * i) (at_ w i) 4)

/-- The staging entry of an axis or a group, as words (R49, R51, R68). -/
def State.stage (s : State) (isGroup : Bool) (t : Nat) : List Nat :=
  if isGroup then (List.range 24).map (fun i => s.load (grpBlock t + 0x80 + 4 * i) 4)
  else (List.range 16).map (fun i => s.load (axBlock t + 0x180 + 4 * i) 4)

/-- Slot `i` of an axis's queue. -/
def Ax.slot (x : Ax) (i : Nat) : Entry := x.slots.getD (i % 8) (Entry.empty 16)

/-- The entry at the head of the queue. -/
def Ax.first (x : Ax) : Entry := x.slot x.head

/-- An entry of the axis is ACTIVE. -/
def Ax.active (x : Ax) : Bool := decide (0 < x.count) && x.first.status == 2

/-- Replace slot `i`. -/
def Ax.setSlot (x : Ax) (i : Nat) (e : Entry) : Ax := { x with slots := x.slots.set (i % 8) e }

/-- Append an entry as QUEUED. -/
def Ax.push (x : Ax) (words : List Nat) : Ax :=
  { x.setSlot (x.head + x.count) ⟨words, 1, 0, 0, none⟩ with count := x.count + 1 }

/-- The head entry leaves the queue with a status; an ACTIVE one takes its END_POS and reports DONE_EVT, DONE also DONE_TAG (R51, R82). -/
def Ax.leave (x : Ax) (status : Nat) : Ax :=
  let e := x.first
  { x.setSlot x.head { e with status := status, endPos := if e.status = 2 then x.cmdPos else e.endPos } with head := (x.head + 1) % 8, count := x.count - 1, doneEvt := x.doneEvt || (e.status == 2 && e.doneEvt), evts := (if e.status = 2 ∧ e.doneEvt = true then x.evts ++ [2] else x.evts), doneTag := (if status = 3 then e.tag else x.doneTag), activeTag := (if e.status = 2 then 0 else x.activeTag), turnAt := none }

/-- Every entry leaves: the active one with `st`, the others CANCELLED; `n` bounds the queue (R75). -/
def Ax.flush (x : Ax) (st : Nat) : Nat → Ax
  | 0 => x
  | n + 1 => if x.count = 0 then x else Ax.flush (x.leave (if x.first.status = 2 then st else 4)) st n

/-- The queue emptied by a stop: active TRUNCATED, queued CANCELLED (R75). -/
def Ax.cancel (x : Ax) : Ax := { x.flush 5 8 with dwell := none, gearLocked := false, camLocked := false }

/-! Parameter checks. -/

/-- A finite FP32 value above 0 and at most a limit. -/
def fUpTo (x lim : Nat) : Bool := fPos x && decide (f32Rat x ≤ f32Rat lim)

/-- The checks of R43 and R44 on a parameter record. -/
def AxPar.ok (p : AxPar) : Bool :=
  fPos p.velLimit && fPos p.accLimit && fPos p.jerkLimit && fUpTo p.stopDec p.accLimit && fUpTo p.stopJerk p.jerkLimit &&
  (bit p.cfg 2 || (fPos p.emergDec && decide (f32Rat p.stopDec ≤ f32Rat p.emergDec))) &&
  decide (sx 64 p.softMin < sx 64 p.softMax) && decide (p.homeMethod ≤ 4) && decide (p.homeDir ≤ 1) &&
  decide (1 ≤ p.homeDwell ∧ p.homeDwell ≤ 5000) && fUpTo p.homeVfast p.velLimit && fUpTo p.homeVslow p.homeVfast &&
  fUpTo p.homeAcc p.accLimit && f32Fin p.homeTorque &&
  decide (0x3D4CCCCD ≤ p.homeTorque ∧ p.homeTorque ≤ f32One) &&
  decide (bits p.limCfg 0 7 ≤ 100 ∧ bits p.limCfg 7 7 ≤ 100 ∧ bits p.limCfg 14 7 ≤ 100) &&
  decide (2 ≤ bits p.limCfg 21 4) && decide (1 ≤ bits p.limCfg 25 7 ∧ bits p.limCfg 25 7 ≤ 100)

/-- Soft limits apply: SOFT_EN and HOMED (R64). -/
def Ax.soft (x : Ax) : Bool := bit x.par.cfg 3 && x.homed

/-- The lower soft limit. -/
def Ax.softLo (x : Ax) : Rat := (sx 64 x.par.softMin : Rat)

/-- The upper soft limit. -/
def Ax.softHi (x : Ax) : Rat := (sx 64 x.par.softMax : Rat)

/-- STOP_POS as an exact value (R48). -/
def Ax.stopPosR (x : Ax) : Rat := stopAt x.mot (f32Rat x.par.stopDec) (f32Rat x.par.stopJerk)

/-! Cam tables (R72). -/

/-- A word of cam point `p`. -/
def State.camPt (s : State) (p w : Nat) : Nat := s.load (0x38000000 + 12 * p + 4 * w) 4

/-- FIRST, COUNT and MODE of a cam directory entry. -/
def State.camDir (s : State) (t : Nat) : Nat × Nat × Nat :=
  (s.load (0x380C0000 + 16 * t) 2, s.load (0x380C0002 + 16 * t) 2, s.load (0x380C0004 + 16 * t) 1)

/-- X of a cam point, in counts. -/
def State.camX (s : State) (p : Nat) : Int := sx 32 (s.camPt p 0)

/-- Y of a cam point, in counts. -/
def State.camY (s : State) (p : Nat) : Int := sx 32 (s.camPt p 1)

/-- A cam table is valid (R72). -/
def State.camOk (s : State) (t : Nat) : Bool :=
  let (f, n, m) := s.camDir t
  decide (2 ≤ n) && decide (f + n ≤ 65536) && s.camX f == 0 &&
  (List.range (n - 1)).all (fun i => decide (s.camX (f + i) < s.camX (f + i + 1))) && decide (m ≤ 1) &&
  (m != 1 || s.camPt f 2 == s.camPt (f + n - 1) 2)

/-- The index of the segment that holds `x`, searching `k` segments from point `p`. -/
def State.camSeg (s : State) (x : Rat) : Nat → Nat → Nat
  | 0, p => p
  | k + 1, p => if x ≤ (s.camX (p + 1) : Rat) then p else State.camSeg s x k (p + 1)

/-- The cubic Hermite value of segment `i` minus Y_i, in counts. R72 forms it in FP32 and names no intermediate rounding: it is computed exactly and rounded once to FP32 (DESIGN CHOICE, log entry 36). A slope that is not finite gives a free value, since the spec states no result (log entry 2). -/
def State.camHermite (s : State) (i : Nat) (x : Rat) : Nat :=
  if !f32Fin (s.camPt i 2) || !f32Fin (s.camPt (i + 1) 2) then Config.freeNat s.free % 2 ^ 32
  else
    let h : Rat := (s.camX (i + 1) - s.camX i : Int)
    let u := (x - (s.camX i : Rat)) / h
    let dy : Rat := (s.camY (i + 1) - s.camY i : Int)
    f32OfRat ((u * u * u - 2 * u * u + u) * h * f32Rat (s.camPt i 2) + (3 * u * u - 2 * u * u * u) * dy + (u * u * u - u * u) * h * f32Rat (s.camPt (i + 1) 2))

/-- The number of whole periods at a phase, for a periodic table; 0 for a single one. -/
def State.camTurn (s : State) (t : Nat) (x : Rat) : Int :=
  let (f, n, m) := s.camDir t
  if m = 1 then (x / (s.camX (f + n - 1) : Rat)).floor
  else if (s.camX (f + n - 1) : Rat) < x then 1 else 0

/-- The table value in increments at a master phase in counts, the accumulated rise included (R72). -/
def State.camVal (s : State) (t : Nat) (x0 : Rat) : Int :=
  let (f, n, m) := s.camDir t
  let last := f + n - 1
  let per : Rat := s.camX last
  let k : Int := if m = 1 then (x0 / per).floor else 0
  let x := x0 - (k : Rat) * per
  let rise := k * (s.camY last - s.camY f) * 65536
  if m = 0 ∧ x ≤ 0 then s.camY f * 65536
  else if m = 0 ∧ per ≤ x then s.camY last * 65536
  else
    let i := s.camSeg x (n - 2) f
    s.camY i * 65536 + rne (f32Rat (s.camHermite i x) * 65536) + rise

/-- The value of a table at the end of its period, seen from its start (R53). -/
def State.camEnd (s : State) (t : Nat) : Int :=
  let (f, n, _) := s.camDir t
  s.camY (f + n - 1)

/-- The value of a table at phase zero (R53). -/
def State.camZero (s : State) (t : Nat) : Int := s.camY (s.camDir t).1

/-! Records published by the profile engines. -/

/-- FLAGS of the state record (R48). -/
def Ax.flags (x : Ax) : Nat :=
  b2n x.posUnc + 2 * b2n x.homed + 4 * b2n x.lp.val + 8 * b2n x.ln.val + 16 * b2n x.hm.val + 32 * b2n x.gearLocked +
  64 * b2n x.camLocked + 128 * b2n x.camRefused + 256 * b2n x.reversal + 512 * b2n x.softStop

/-- The state record of an axis (R48). R48 names no event that clears FLAGS.SOFT_STOP and CAM_REFUSED but the transition into DISABLED, and the model has no other; ACT_POS reads 0 throughout DISABLED (DEDUCED, log entry 36). -/
def Ax.record (x : Ax) (a : Nat) : List (Nat × BitVec 8) :=
  let b := axBlock a + 0x100
  cells b (x.st.code + x.homeCode * 256 + x.count * 65536 + x.grp.getD 0xFF * 2 ^ 24) 4 ++ cells (b + 4) x.flags 4 ++
  cells (b + 8) x.fault 4 ++ cells (b + 12) x.crsLo 4 ++ cells (b + 16) (ux 64 x.cmdPos) 8 ++ cells (b + 24) (if x.st = .disabled then 0 else ux 64 x.actPos) 8 ++
  cells (b + 32) (f32OfRat x.vel) 4 ++ cells (b + 36) (f32OfRat x.acc) 4 ++ cells (b + 40) (ux 64 x.stopPos) 8 ++
  cells (b + 48) (ux 64 x.overshoot) 8 ++ cells (b + 56) x.activeTag 4 ++ cells (b + 60) x.doneTag 4 ++ cells (b + 64) 0 64

/-- The state record and the queue view of an axis (R41). -/
def Ax.publish (x : Ax) (a : Nat) : List (Nat × BitVec 8) :=
  x.record a ++ (List.range 8).flatMap (fun i => (x.slots.getD i (Entry.empty 16)).view (axBlock a + 0x1C0 + 64 * i))

/-- A group runs an entry. -/
def Grp.active (g : Grp) : Bool := !g.lines.isEmpty || g.dwell.isSome || g.waiting

/-- The state record and the queue entries of a group (R68). -/
def Grp.publish (g : Grp) (k : Nat) : List (Nat × BitVec 8) :=
  let b := grpBlock k + 0x40
  cells b (b2n g.active + g.count * 256) 4 ++ cells (b + 4) g.activeTag 4 ++ cells (b + 8) (f32OfRat g.pathVel) 4 ++ cells (b + 12) 0 52 ++
  (List.range 8).flatMap (fun i => (g.slots.getD i (Entry.empty 24)).gview (grpBlock k + 0xE0 + 96 * i))

/-- The engine and slot of a network axis (R117). -/
def State.axSlot (s : State) (a : Nat) : Option (Nat × Nat) :=
  (List.range 12).findSome? (fun n => ((s.eng n).axes.findIdx? (fun x => x == a)).map (fun i => (n, i)))

end Sys2Proof.Machine
end

