-- ==== Sys2Proof/Machine/Profile.lean ====
section
/-! DEFINITION. The profile engines' work on one axis or group within a tick (R50): latching inputs, advancing profiles, fault reactions, homing, following masters, and making the next entry active. -/
namespace Sys2Proof.Machine

/-- What a tick gives every axis: the course period in ns, the device time, the course counter, whether the device is in SAFE_HOLD, and the residue of R40 drawn for this tick. -/
structure Env where
  per : Nat
  now : Nat
  crs : Nat
  safeHold : Bool
  draw : Nat
  deriving DecidableEq, Repr

/-- The course period in seconds. -/
def Env.dt (v : Env) : Rat := (v.per : Rat) / 1000000000

/-! Inputs (R79 to R81). -/

/-- The active level of a raw input under LIM_POL bit `i`. -/
def Ax.level (x : Ax) (i : Nat) (raw : Bool) : Bool := raw == bit x.par.limPol i

/-- The number of equal raw samples that change a debounced input: its debounce time rounded up to whole courses, at least 1 (R79). -/
def debN (x : Ax) (i per : Nat) : Nat := max 1 (ceilDiv (bits x.par.limCfg (7 * i) 7 * 100000) (max 1 per))

/-- Count one raw sample (R79). -/
def Deb.sample (d : Deb) (active : Bool) (pos : Int) : Deb :=
  if active = d.val then { d with run := 0 }
  else { d with run := d.run + 1, pos := if d.run = 0 then pos else d.pos }

/-- The debounced value changes at the N-th sample (R79). -/
def Deb.settle (d : Deb) (n : Nat) : Deb := if n ≤ d.run then { d with val := !d.val, run := 0 } else d

/-- One raw sample of a watched limit: a change is recorded, and changes older than the window are forgotten (R80). -/
def Chat.sample (c : Chat) (raw : Bool) (now win : Nat) : Chat :=
  if c.raw = none then { c with raw := some raw, last := now }
  else if some raw = c.raw then { c with changes := c.changes.filter (fun t => decide (now < t + win)) }
  else { c with raw := some raw, last := now, changes := now :: c.changes.filter (fun t => decide (now < t + win)) }

/-- The chatter window in ns. -/
def Ax.chatWin (x : Ax) : Nat := bits x.par.limCfg 25 7 * 1000000

/-- One raw sample of the three inputs, latched at `pos` (R79, R80). -/
def Ax.sample (x : Ax) (i : AxIn) (now : Nat) (pos : Int) : Ax :=
  { x with inp := i, actPrev := x.actPos, actPos := pos, lp := x.lp.sample (x.level 0 i.lp) pos, ln := x.ln.sample (x.level 1 i.ln) pos, hm := x.hm.sample (x.level 2 i.hm) pos, chatLp := if bit x.par.limPol 3 then x.chatLp.sample i.lp now x.chatWin else x.chatLp, chatLn := if bit x.par.limPol 4 then x.chatLn.sample i.ln now x.chatWin else x.chatLn }

/-- A limit input that is treated as active: enabled, and its debounced value or its chatter says so (R80, R81). -/
def Ax.lpAct (x : Ax) : Bool := bit x.par.limPol 3 && (x.lp.val || x.chatLp.act)

/-- As `lpAct`, for LN. -/
def Ax.lnAct (x : Ax) : Bool := bit x.par.limPol 4 && (x.ln.val || x.chatLn.act)

/-- One watch sees chatter: CHAT_COUNT changes within the window (R80). -/
def Chat.chatters (c : Chat) (n : Nat) : Bool := decide (n ≤ c.changes.length ∧ 0 < n)

/-- Chatter on one watch: the input is treated as active (R80). -/
def Chat.judge (c : Chat) (n : Nat) : Chat := if c.chatters n then { c with act := true } else c

/-- Step 1 of the tick for one axis: debounced inputs, chatter, and the causes present (R50, R79 to R81). Chatter latches its cause unless it stands latched already, also when it comes anew after the cause was cleared. -/
def Ax.latch (x : Ax) (v : Env) : Ax :=
  let y := { x with lp := x.lp.settle (debN x 0 v.per), ln := x.ln.settle (debN x 1 v.per), hm := x.hm.settle (debN x 2 v.per), chatLp := x.chatLp.judge (bits x.par.limCfg 21 4), chatLn := x.chatLn.judge (bits x.par.limCfg 21 4), ended := false }
  let n := bits x.par.limCfg 21 4
  if !bit x.fault 3 && ((bit x.par.limPol 3 && x.chatLp.chatters n) || (bit x.par.limPol 4 && x.chatLn.chatters n)) then { y with pend := y.pend ||| cChatter } else y

/-! Planning the active entry (R54 to R59). -/

/-- The direction in which an entry that starts at `from_` moves. -/
def Entry.dir (e : Entry) (start : Rat) : Rat :=
  match e.type with
  | 1 => sgnR ((e.target : Rat) - start)
  | 2 => sgnR (e.target : Rat)
  | 3 => sgnR (f32Rat e.vMax)
  | _ => 0

/-- Where an ABS or REL entry that starts at `start` ends; other entries stay. -/
def Entry.stopAt (e : Entry) (start : Rat) : Rat :=
  match e.type with
  | 1 => (e.target : Rat)
  | 2 => start + (e.target : Rat)
  | _ => start

/-- An entry with a tolerance blend whose next one, `n`, moves the other way: the axis turns TOL before the target (R58). -/
def Entry.turns (e : Entry) (tgt dir : Rat) (n : Option Entry) : Bool :=
  match n with
  | none => false
  | some n => e.blend == 2 && n.type != 4 && !n.isSync && decide (dir ≠ 0) && decide (n.dir tgt = -dir)

/-- The distance that the speed change from `v` to `w` takes under an entry's D_MAX and J_MAX. -/
def Entry.fall (e : Entry) (v w : Rat) : Rat := if v ≤ w then 0 else segsDist (velChange v 0 w (f32Rat e.dMax) (f32Rat e.jMax)) v

/-- The most that a tolerance blend into speed `w` moves the joint behind the target: half the speed change from V_MAX, and no more than TOL (R58). -/
def Entry.shift (e : Entry) (w : Rat) : Rat := if e.blend = 2 then minR (e.tol : Rat) (e.fall (absR (f32Rat e.vMax)) w / 2) else 0

/-- The joint velocity between an entry that ends at `p` in direction `dir` and the entries behind it, looking ahead over the queue (R57, R59): 0 where the joint is an exact stop. The room of the next entry is what a tolerance blend before it and a turn at its end leave (R58). -/
def jointVel (e : Entry) (p dir : Rat) : List Entry → Rat
  | [] => 0
  | n :: r =>
    if e.blend = 0 ∨ n.type = 4 ∨ n.isSync = true ∨ n.dir p ≠ dir ∨ dir = 0 then 0
    else
      let v0 := minR (absR (f32Rat n.vMax)) (absR (f32Rat e.vMax))
      let v1 := match e.joint with
        | some c => minR c v0
        | none => v0
      if n.type = 3 then v1
      else
        let q := n.stopAt p
        let len := absR (q - p) - (if n.turns q dir r.head? then (n.tol : Rat) else 0)
        lowerJoint v1 (jointVel n q dir r) (f32Rat n.dMax) (f32Rat n.jMax) (fun w => len - e.shift w)

/-- The entries behind the head, in order. -/
def Ax.behind (x : Ax) : List Entry := (List.range (x.count - 1)).map (fun i => x.slot (x.head + 1 + i))

/-- A state that the soft limits forbid: its stopping point under STOP_DEC and STOP_JERK lies outside, on the side its motion points to (R64). -/
def Ax.outAt (x : Ax) (m : Mot) : Bool :=
  let q := stopAt m (f32Rat x.par.stopDec) (f32Rat x.par.stopJerk)
  (decide (0 < m.v) && decide (x.softHi < q)) || (decide (m.v < 0) && decide (q < x.softLo))

/-- The plan brings the axis into a state that the soft limits forbid, at one of `n` course instants from time t on (R64). -/
def Ax.planOut (x : Ax) (q : Plan) (dt : Rat) : Nat → Rat → Bool
  | 0, _ => false
  | n + 1, t => if segsTime q.segs ≤ t then false else x.outAt (q.at t) || Ax.planOut x q dt n (t + dt)

/-- The number of courses a plan runs. -/
def Plan.courses (q : Plan) (dt : Rat) : Nat := if dt ≤ 0 then 0 else (segsTime q.segs / dt).floor.toNat + 1

/-- Limits whose rises and last fall are no harder than STOP_DEC and STOP_JERK: on a path under them every stopping point lies before the path's own end (R64). What slows the axis before that stays under D_MAX (R61, R63). -/
def Lims.soften (l : Lims) (p : AxPar) : Lims :=
  { l with fd := minR l.fd (f32Rat p.stopDec), fj := minR l.fj (f32Rat p.stopJerk), rj := minR l.rj (f32Rat p.stopJerk) }

/-- Where an entry that approaches its target in direction `dir` from `m` ends, and the speed there (R56 to R59); none where it cannot end there without a turn. -/
def Entry.ending (e : Entry) (tgt dir : Rat) (behind : List Entry) (m : Mot) (l : Lims) : Option (Rat × Rat) :=
  let along := m.along dir
  if along.v < 0 ∨ (dir = 0 ∧ m.v ≠ 0) then none
  else if e.turns tgt dir behind.head? then
    let g := tgt - dir * (e.tol : Rat)
    (reachVel along 0 (dir * (g - m.p)) l).map (fun ve => (g, ve))
  else
    let room := dir * (tgt - m.p)
    (reachVel along (jointVel e tgt dir behind) room l).map (fun ve =>
      let fall (v : Rat) : Rat := segsDist (velChange v 0 ve l.fd l.fj) v
      let ok (v : Rat) : Bool := decide (segsDist (toSpeed along v l) along.v + fall v / 2 ≤ room)
      let k := minR l.v (maxR ve (along.lead l.j))
      let pk := if ok l.v then l.v else if ok k then bisect ok 80 k l.v else ve
      if e.blend = 2 ∧ 0 < ve ∧ ve < pk ∧ fall pk / 2 ≤ (e.tol : Rat) then (cut32 (tgt + dir * (fall pk / 2)), ve) else (tgt, ve))

/-- An ABS or REL entry that starts at `start`, planned from the present state `m0` toward its end (R54 to R59, R61, R63). Where it cannot end without one, or `turn` names one already, it first comes to rest and then moves on as a fresh move. An axis that can no longer turn TOL before its target, because the reversing entry came late, stops past that point and returns to it: the spec says nothing of a late QUEUE (R58; DESIGN CHOICE, log entry 31). -/
def Entry.leg (e : Entry) (start : Rat) (behind : List Entry) (m0 : Mot) (turn : Option Rat) (l : Lims) : Leg :=
  let tgt := e.stopAt start
  let m := m0.cut
  let d0 := sgnR (tgt - start)
  let back (r : Rat) : Leg :=
    let late := e.turns tgt d0 behind.head? && decide (sgnR (tgt - r) ≠ -d0)
    let aim := if late then tgt - d0 * (e.tol : Rat) else tgt
    let stops := decide (m.v ≠ 0 ∧ m.v * (aim - r) ≤ 0)
    let first := if stops then stopSegs m l.d l.j else []
    let b : Mot := if stops then ⟨Sys2Proof.Machine.stopAt m l.d l.j, 0, 0⟩ else m
    let g := if late then (aim, 0) else (e.ending tgt (sgnR (tgt - b.p)) behind b l).getD (tgt, 0)
    ⟨⟨m.p, m.v, first ++ b.straight (sgnR (g.1 - b.p)) g.1 g.2 l, 0⟩, g.1, g.2, some r⟩
  match turn with
  | some r => back r
  | none =>
    match e.ending tgt d0 behind m l with
    | some g => ⟨⟨m.p, m.v, m.straight d0 g.1 g.2 l, 0⟩, g.1, g.2, none⟩
    | none => back (Sys2Proof.Machine.stopAt m l.d l.j)

/-- The leg of entry `e` under its own limits; where that would break the soft limits, with softer rises and a softer last fall, and a stop whose turning point lies outside under STOP_DEC and STOP_JERK (R64, log entry 30). -/
def Ax.legOf (x : Ax) (e : Entry) (start : Rat) (behind : List Entry) (m : Mot) (turn : Option Rat) (dt : Rat) : Leg :=
  let q := e.leg start behind m turn e.lims
  if x.soft && x.planOut q.plan dt (q.plan.courses dt) 0 then
    let l := e.lims.soften x.par
    let r := stopAt m l.d l.j
    e.leg start behind m turn (if x.softHi < r ∨ r < x.softLo then { l with d := f32Rat x.par.stopDec, j := f32Rat x.par.stopJerk } else l)
  else q

/-- Plan the active ABS or REL entry from the present state toward its joint (R55 to R59, R61, R63). -/
def Ax.planMove (x : Ax) (dt : Rat) : Ax :=
  let e := x.first
  let r := x.legOf e (e.startPos : Rat) x.behind x.mot x.turnAt dt
  { x.setSlot x.head { e with joint := if x.behind.isEmpty then e.joint else some r.speed } with plan := some r.plan, goal := r.goal, turnAt := r.turn }

/-- Look ahead over the queue from entry `i`, which starts at `p` where that is known: every joint takes its velocity, and one that has been lowered stays so (R59). -/
def Ax.lookFrom : Nat → Nat → Option Rat → Ax → Ax
  | 0, _, _, x => x
  | n + 1, i, p, x =>
    let e := x.slot (x.head + i)
    let q : Option Rat := match e.type with
      | 1 => some (e.target : Rat)
      | 2 => p.map (· + (e.target : Rat))
      | 4 => p
      | _ => none
    let rest := (List.range (x.count - 1 - i)).map (fun k => x.slot (x.head + i + 1 + k))
    let y := match p, q with
      | some a, some b => if rest.isEmpty || i == 0 then x else x.setSlot (x.head + i) { e with joint := some (jointVel e b (e.dir a) rest) }
      | _, _ => x
    -- the next entry starts where this one turns (R58)
    let next := match p, q with
      | some a, some b => some (if e.turns b (e.dir a) rest.head? then b - e.dir a * (e.tol : Rat) else b)
      | _, _ => q
    Ax.lookFrom n (i + 1) next y

/-- Look ahead over every queued entry after a new one (R59); the active entry's own joint is planned with it. -/
def Ax.look (x : Ax) : Ax := Ax.lookFrom x.count 0 (some (if x.active then (x.first.startPos : Rat) else (x.cmdPos : Rat))) x

/-- Where the first `n` entries of the queue from place `i` on really end, the entry at place `i` starting at `p` with velocity `v`: at a turning point, behind a blend, or at a target (R58). The end of a VEL or sync entry is not known. -/
def Ax.endFrom (x : Ax) (dt : Rat) : Nat → Nat → Rat → Rat → Rat
  | 0, _, p, _ => p
  | n + 1, i, p, v =>
    let e := x.slot (x.head + i)
    if e.type = 1 ∨ e.type = 2 then
      let rest := (List.range (x.count - 1 - i)).map (fun k => x.slot (x.head + i + 1 + k))
      let run := decide (i = 0) && x.active
      let q := x.legOf e (if run then (e.startPos : Rat) else p) rest (if run then x.mot else ⟨p, v, 0⟩) (if run then x.turnAt else none) dt
      Ax.endFrom x dt n (i + 1) q.goal q.plan.fin.v
    else Ax.endFrom x dt n (i + 1) p 0

/-- Where the last entry of the queue will start (R51, R58). -/
def Ax.lastStart (x : Ax) (dt : Rat) : Rat := x.endFrom dt (x.count - 1) 0 (x.cmdPos : Rat) 0

/-- The whole number of courses of a hold time in µs, rounded up (R51). -/
def dwellCourses (us per : Nat) : Nat := ceilDiv (us * 1000) (max 1 per)

/-- A plan that stops the axis under STOP_DEC and STOP_JERK (R74). -/
def Ax.stopPlan (x : Ax) : Ax :=
  let q := x.mot.plan (fun m => stopSegs m (f32Rat x.par.stopDec) (f32Rat x.par.stopJerk))
  { x with plan := some q, goal := cut32 q.fin.p }

/-- The axis at rest where it is. -/
def Ax.rest (x : Ax) : Ax := { x with vel := 0, acc := 0, plan := none }

/-- Start a normal stop; an axis without velocity is at rest at once (R46, R74). -/
def Ax.startStop (x : Ax) : Ax :=
  if x.vel = 0 ∧ x.acc = 0 then { x.rest with st := .standstill } else { x.stopPlan with st := .stopping }

/-- On an axis outside the soft limits, a VEL entry whose velocity points further out, or a sync entry while the axis's own does (R66). -/
def Ax.pointsOut (x : Ax) (e : Entry) : Bool :=
  let v := if e.type = 3 then f32Rat e.vMax else x.vel
  (e.type == 3 || e.isSync) && x.soft &&
  ((decide (x.softHi < x.pos) && decide (0 < v)) || (decide (x.pos < x.softLo) && decide (v < 0)))

/-- The head entry becomes ACTIVE (R46, R52, R53, R60, R70 to R72): `camOk` judges its cam table, `lockOn` keeps a cam lock from table to table (R53). On an axis outside the soft limits a VEL or sync entry that points further out becomes a normal stop at once (R66); so does a CAM entry whose table has become invalid (R72, R74). -/
def Ax.activate (x : Ax) (v : Env) (camOk : Nat → Bool) (lockOn : Bool) : Ax :=
  let e := { x.first with status := 2, startPos := x.cmdPos }
  let y := { x.setSlot x.head e with activeTag := e.tag, gearLocked := false, camLocked := lockOn && e.type == 6, ended := false }
  if e.type = 6 ∧ camOk e.table = false then ({ y with camRefused := true }.leave 4).cancel.startStop
  else if x.pointsOut e then { (y.leave (if e.type = 3 then 3 else 4)).cancel.startStop with softStop := true }
  else match e.type with
  | 3 => { y with st := .moving, plan := some (x.mot.plan (fun m => toSpeed m (f32Rat e.vMax) e.lims)), goal := 0 }
  | 4 =>
    if x.vel = 0 then { y.rest with st := .standstill, dwell := some (dwellCourses e.dwellUs v.per) }
    else { y.stopPlan with st := .moving, dwell := none }
  | 5 => { y with st := .sync, plan := none, sync := SyncSt.init }
  | 6 => { y with st := .sync, plan := none, sync := if lockOn then x.sync else SyncSt.init }
  | _ => { y.planMove v.dt with st := .moving }

/-- Make entries active until one runs: an idle axis with a queue takes its head entry in this tick (R52); `n` bounds the entries that end at once. -/
def Ax.settle (v : Env) (camOk : Nat → Bool) : Nat → Ax → Ax
  | 0, x => x
  | n + 1, x =>
    if (x.st = .standstill ∨ x.st = .moving ∨ x.st = .sync) ∧ 0 < x.count ∧ x.active = false then
      let y := x.activate v camOk x.camLocked
      if y.dwell = some 0 then Ax.settle v camOk n { y.leave 3 with dwell := none } else y
    else if x.st = .moving ∧ x.count = 0 then { x.startStop with gearLocked := false, camLocked := false }
    else x

/-! Advancing (step 2). -/

/-- Follow the plan for one course; at its end the axis stands exactly at the plan's goal (R40). -/
def Ax.follow (x : Ax) (v : Env) : Ax × Bool :=
  match x.plan with
  | none => (x.rest, true)
  | some q =>
    if q.done v.dt then
      let e := q.fin
      ({ x with pos := x.goal, vel := e.v, acc := 0, plan := none }, true)
    else
      let m := q.at v.dt
      ({ x with pos := cut32 m.p, vel := m.v, acc := m.a, plan := some { q with el := q.el + v.dt } }, false)

/-- A motion whose velocity only is planned: it goes on past the plan's end (R62). -/
def Ax.cruise (x : Ax) (v : Env) : Ax × Bool :=
  match x.plan with
  | none => ({ x with pos := cut32 (x.pos + x.vel * v.dt) }, true)
  | some q =>
    let m := q.at v.dt
    let dn := q.done v.dt
    ({ x with pos := cut32 m.p, vel := m.v, acc := m.a, plan := if dn then none else some { q with el := q.el + v.dt } }, dn)

/-- The stopping point of a state lies outside the soft limits, on the side its motion points to (R64, R66). -/
def Ax.softCross (x : Ax) : Bool := x.soft && x.outAt x.mot

/-- A soft-limit stop: the entry ends with `status`, the queue is cancelled, and the axis stops under STOP_DEC and STOP_JERK from the state before this course's motion (R66). -/
def Ax.softStopAt (x : Ax) (v : Env) (status : Nat) : Ax :=
  let y := { (x.leave status).cancel.startStop with softStop := true }
  if y.st = .stopping then
    let r := y.follow v
    if r.2 then { r.1.rest with st := .standstill } else r.1
  else y

/-- The master value of a sync entry (R70): the axes for kinds 0 and 1, `pt` for a process point in counts, and the shared table. Missing values answer none. R70 calls a shared record missing by its COURSE_LO; the model counts one with VALID 0 as missing too (DESIGN CHOICE, log entry 36). -/
def State.masterOf (s : State) (pt : Nat → Option Int) (v : Env) (e : Entry) : Option Int :=
  match e.blend with
  | 0 => some (s.ax e.msrc).cmdPos
  | 1 => if (s.ax e.msrc).inp.crs = v.crs ∨ 192 ≤ e.msrc then some (s.ax e.msrc).actPos else none
  | 2 => (pt e.msrc).map (fun c => c * 65536)
  | _ =>
    let b := sharedRec (bits e.msrc 5 6) (bits e.msrc 0 5)
    if s.load (b + 12) 2 = v.crs % 65536 ∧ bit (s.load (b + 14) 1) 0 = true then
      some (sx 64 (s.load b 8) + rne (f32Rat (s.load (b + 8) 4) * v.dt))
    else none

/-- The track of a sync entry at a master value (R71, R72). -/
def State.trackOf (s : State) (e : Entry) (m : Int) : Int :=
  if e.type = 5 then
    e.slaveOfs + (if e.den = 0 then 0 else rha (((m - e.masterOfs) * e.num : Int) / (e.den : Rat)))
  else e.slaveOfs + s.camVal e.table (((m - e.masterOfs : Int) : Rat) / 65536)

/-- One course of a pursuit (R71). The spec fixes only its limits and its end: the slave locks in a course in which it can meet the track's position and velocity within them; before, its acceleration is a free value within J_MAX and A_MAX, its velocity within VEL_LIMIT. In the first course of an entry the track's velocity is not known and the slave does not lock (log entry 32). -/
def pursue (m : Mot) (track tv vl A J dt : Rat) (draw : Nat) (first : Bool) : Mot × Bool :=
  let need := (tv - m.v) / dt
  if first = false ∧ absR need ≤ A ∧ absR (need - m.a) ≤ J * dt ∧ absR tv ≤ vl ∧ absR (track - (m.p + (m.v + tv) / 2 * dt)) ≤ 1 then
    (⟨track, tv, 0⟩, true)
  else
    let f : Rat := ((draw % 2049 : Nat) : Rat) / 1024 - 1
    let a := maxR (-A) (minR A (m.a + J * dt * f))
    let v := maxR (-vl) (minR vl (m.v + a * dt))
    (⟨cut32 (m.p + (m.v + v) / 2 * dt), cut32 v, cut32 a⟩, false)

/-- One course of a sync entry (R53, R66, R70 to R72). -/
def State.syncStep (s : State) (pt : Nat → Option Int) (v : Env) (x : Ax) : Ax :=
  let e := x.first
  let mv := s.masterOf pt v e
  let missed := if mv.isSome then 0 else x.sync.missed + 1
  let m : Int := mv.getD (x.sync.master + x.sync.step)
  -- no velocity of the track is known before its second value; a master that is missing before its first one has no value at all
  let first := !x.sync.known
  let step : Int := if first || mv.isNone then x.sync.step else m - x.sync.master
  let track := s.trackOf e m
  let tv : Rat := if first then 0 else ((track - x.sync.track : Int) : Rat) / v.dt
  let sy : SyncSt := ⟨m, if first then 0 else step, missed, x.sync.known || mv.isSome, track⟩
  if 2 ≤ missed then { x with pend := x.pend ||| cFollowLost, sync := sy }
  else
    let locked := x.gearLocked || x.camLocked
    let vl := f32Rat x.par.velLimit
    if !first && decide (vl < absR tv) then { x with pend := x.pend ||| cOverspeed, sync := sy }
    else
      let r : Mot × Bool :=
        if locked then (⟨(track : Rat), tv, (tv - x.vel) / v.dt⟩, true)
        else pursue x.mot (track : Rat) tv vl (f32Rat e.aMax) (f32Rat e.jMax) v.dt v.draw first
      let y := { x with pos := r.1.p, vel := r.1.v, acc := r.1.a, sync := sy, gearLocked := r.2 && e.type == 5, camLocked := r.2 && e.type == 6 }
      if y.softCross then { x with sync := sy }.softStopAt v 4
      else if 2 ≤ x.count then
        let cross := !first && s.camTurn e.table (((x.sync.master - e.masterOfs : Int) : Rat) / 65536) != s.camTurn e.table (((m - e.masterOfs : Int) : Rat) / 65536)
        if e.type = 5 || cross then { y with ended := true } else y
      else y

/-! Homing (R77, R78). -/

/-- The search direction. -/
def Ax.homeDir (x : Ax) : Rat := if x.par.homeDir = 1 then 1 else -1

/-- A homing motion toward velocity `vt`. -/
def Ax.homeMove (x : Ax) (vt : Rat) : Ax :=
  let a := f32Rat x.par.homeAcc
  { x with plan := some (x.mot.plan (fun m => toSpeed m vt (Lims.of (absR vt) a a (f32Rat x.par.jerkLimit)))) }

/-- Enter a homing step, which begins where the axis is. -/
def Ax.homeStep (x : Ax) (h : Homing) (st : HomeStep) (vt : Rat) : Ax :=
  { x.homeMove vt with homing := some { h with step := st, origin := x.cmdPos } }

/-- A homing run fails (R78): HOME_FAIL with its code. -/
def Ax.homeFail (x : Ax) (code : Nat) : Ax :=
  { x with homeCode := code, pend := x.pend ||| cHome, homing := none, doneEvt := true }

/-- A homing run succeeds: the position is shifted so that the home point reads HOME_OFS (R77). -/
def Ax.homeDone (x : Ax) (delta : Int) : Ax :=
  { x.rest with pos := x.pos + (delta : Rat), cmdPos := x.cmdPos + delta, prevPos := x.prevPos + delta, actPos := x.actPos + delta, actPrev := x.actPrev + delta, ofs := x.ofs + delta, homed := true, posUnc := false, homing := none, st := .standstill, doneEvt := true, ended := true }

/-- The condition of HM_HARDSTOP: the torque command at or above HOME_TORQUE times the limit, or the channel's stall (R77, R165). -/
def State.hardCond (s : State) (a : Nat) (x : Ax) (stall : Bool) : Bool :=
  if 192 ≤ a then stall
  else
    let tq := s.load (axBlock a + 0xF00 + 36) 4
    match s.axSlot a with
    | none => false
    | some (n, sl) =>
      let lim := s.lpW (lpCopy n sl) (if x.par.homeDir = 1 then 28 else 32)
      f32Fin tq && decide (absR (f32Rat (leMul x.par.homeTorque lim).1) ≤ absR (f32Rat tq)) && f32Neg tq == f32Neg lim

/-- The limit that a homing run expects: the one in direction d, in steps 1 to 3 of HM_SWITCH_LIMIT (R77, R78). -/
def Ax.expects (x : Ax) (pos : Bool) : Bool :=
  match x.homing with
  | none => false
  | some h =>
    x.par.homeMethod == 0 && (x.par.homeDir == 1) == pos &&
    (h.step == .search || h.step == .turn || h.step == .away || h.step == .backStop)

/-- The home point of a hard stop is reached (R77, R165): of a network axis the position that first showed the condition, of a stepper with an encoder its position now, of one without the stopped generator rounded against the search direction to a whole full step. The set-point becomes the actual position; a stopped generator is the actual position of its channel. -/
def Ax.hardHome (x : Ax) (a : Nat) (mark : Int) : Ax :=
  let to_ (y : Ax) (home : Int) : Ax := y.homeDone (sx 64 x.par.homeOfs - home)
  let act : Ax := { x with pos := (x.actPos : Rat), cmdPos := x.actPos }
  if a < 192 then to_ act mark
  else if bits x.par.cfg 0 2 = 2 then
    let g := x.cmdPos - x.ofs
    to_ x ((if x.par.homeDir = 1 then g / 16777216 * 16777216 else -(-g / 16777216 * 16777216)) + x.ofs)
  else to_ act x.actPos

/-- One course of a homing run (R77, R78): the inputs latched in step 1 are judged before the motion of the course, its end after it (R50). -/
def State.homeTick (s : State) (v : Env) (a : Nat) (stall : Bool) (x : Ax) (h : Homing) : Ax :=
  let d := x.homeDir
  let fast := d * f32Rat x.par.homeVfast
  let slow := d * f32Rat x.par.homeVslow
  -- R64 holds in a homing run as well: at a soft limit the axis comes to rest (log entry 33)
  let go (y : Ax) : Ax := let r := (y.cruise v).1; if r.softCross then (y.stopPlan.follow v).1 else r
  let still := decide (x.vel = 0 ∧ x.acc = 0)
  let lpBad := x.lpAct && !h.lpWas && !x.expects true
  let lnBad := x.lnAct && !h.lnWas && !x.expects false
  let chat := x.par.homeMethod == 0 && (if 0 < d then x.chatLp.act && bit x.par.limPol 3 else x.chatLn.act && bit x.par.limPol 4)
  let h : Homing := { h with lpWas := x.lpAct, lnWas := x.lnAct }
  let x : Ax := { x with homing := some h }
  let search := h.step == .search || h.step == .away || h.step == .back || h.step == .approach
  if chat then (go x).homeFail 4
  else if lpBad then (go x).homeFail 1
  else if lnBad then (go x).homeFail 2
  else if bit x.pend 13 && x.inp.drvFault then (go x).homeFail 6
  else if search && decide (x.par.homeMaxdist < (x.pos.floor - h.origin).natAbs) then (go x).homeFail 3
  else
    match h.step with
    | .settle =>
      let y := go x
      if y.vel = 0 ∧ y.acc = 0 then y.homeDone (sx 64 x.par.homeOfs - h.point.getD 0) else y
    | .search =>
      if x.par.homeMethod = 2 then
        go (if x.inp.index && x.inp.crs == v.crs then { x.homeMove 0 with homing := some { h with step := .settle, point := some x.inp.indexPos } } else x)
      else if x.par.homeMethod = 3 then
        (if s.hardCond a x stall then
          let held := if h.mark.isSome then h.held + v.per else 0
          let mark := h.mark.getD x.actPos
          if x.par.homeDwell * 1000000 ≤ held then
            x.hardHome a mark
          else go { x with homing := some { h with mark := some mark, held := held } }
        else go { x with homing := some { h with mark := none, held := 0 } })
      else if x.hm.val then go (x.homeStep h .backStop 0)
      else if x.par.homeMethod = 0 ∧ (if 0 < d then x.lpAct else x.lnAct) = true then go (x.homeStep h .turn 0)
      else go x
    | .turn => go (if still then x.homeStep h .away (-fast) else x)
    | .away => go (if x.hm.val then x.homeStep h .backStop 0 else x)
    | .backStop => go (if still then x.homeStep h .back (-slow) else x)
    | .back => go (if x.hm.val then x else x.homeStep h .offStop 0)
    | .offStop => go (if still then x.homeStep h .approach slow else x)
    | .approach =>
      go (if x.hm.val then { x.homeMove 0 with homing := some { h with step := .settle, point := some x.hm.pos } } else x)

/-- One course of an active DWELL's hold time; it elapses in a homing run and in a group's line too (R52, log entry 31). -/
def Ax.dwellTick (x : Ax) : Ax :=
  match x.dwell with
  | none => x
  | some k => if k ≤ 1 then { x.leave 3 with dwell := none, ended := x.st == .standstill } else { x with dwell := some (k - 1) }

/-- Step 2 of the tick for one axis that is not a group member (R50, R52). An entry that ends in motion is marked here and leaves with the set-point of the tick. The soft limits may have come to apply after an ABS or REL entry was queued: one whose end lies outside them is stopped as R66 stops a VEL entry, and ends TRUNCATED (R64; DEDUCED, log entry 30). -/
def State.advance (s : State) (pt : Nat → Option Int) (v : Env) (a : Nat) (stall : Bool) (x : Ax) : Ax :=
  match x.st with
  | .disabled => x
  | .fault => x
  | .group => x
  | .standstill => x.dwellTick
  | .moving =>
    if x.active = false then x
    else
      match x.first.type with
      | 3 =>
        let r := (x.cruise v).1
        if r.softCross then x.softStopAt v 3
        else if 2 ≤ x.count then { r with ended := true }
        else r
      | 4 =>
        let r := x.follow v
        let n := dwellCourses x.first.dwellUs v.per
        if !r.2 then r.1
        else if n = 0 then { r.1.rest.leave 3 with st := .standstill, ended := true }
        else { r.1.rest with st := .standstill, dwell := some n }
      | _ =>
        let r := x.follow v
        if x.soft && decide (x.goal < x.softLo ∨ x.softHi < x.goal) && r.1.softCross then x.softStopAt v 5
        else if r.2 then { r.1 with ended := true }
        else r.1
  | .stopping =>
    let r := x.follow v
    if r.2 then { r.1.rest with st := .standstill } else r.1
  | .faultStop =>
    let r := x.follow v
    if r.2 then { r.1.rest with st := .fault } else r.1
  | .sync => s.syncStep pt v x
  | .homing =>
    match x.homing with
    | none => x
    | some h => s.homeTick v a stall x.dwellTick h

/-- The set-point of the next course (R40): an exact position is itself, any other is rounded down plus the residue the spec leaves open, 0 or 1 increment. An axis at rest stands at its set-point, and holds it (R45). -/
def Ax.setPoint (x : Ax) (prev : Int) (draw : Nat) : Ax :=
  let f := x.pos.floor
  let c := if (f : Rat) = x.pos then f else f + (draw % 2 : Nat)
  { x with prevPos := prev, cmdPos := c, pos := if x.vel = 0 ∧ x.acc = 0 ∧ x.plan.isNone = true then (c : Rat) else x.pos }

/-- An entry that has ended in motion leaves at the set-point just formed (R51, R52, R53). -/
def Ax.endEntry (x : Ax) : Ax :=
  if x.ended && x.active && (x.st == .moving || x.st == .sync) then
    let y := x.leave 3
    if y.st = .moving ∧ y.vel = 0 ∧ y.count = 0 then { y with st := .standstill } else y
  else x

/-! Fault reactions (step 3). -/

/-- Causes that a limit input gives a moving axis (R81). -/
def Ax.limCauses (x : Ax) : Nat :=
  if !x.enabled then 0
  else (if x.lpAct && decide (0 < x.vel) && !x.expects true then cLimPos else 0) ||| (if x.lnAct && decide (x.vel < 0) && !x.expects false then cLimNeg else 0)

/-- The fault reaction of the stop class (R74, R75): the queue is flushed, a ramp-class axis decelerates under EMERG_DEC, a pulse-class axis stops at its last set-point and ends in FAULT in the same tick. With its STO line raised a ramp-class axis coasts and is in FAULT at once. -/
def Ax.react (x : Ax) : Ax :=
  let y := { x.cancel with ended := false, faultEvt := true, doneEvt := x.cancel.doneEvt || x.homing.isSome, homing := none, stoSince := x.sto }
  if x.pulse then
    { y.rest with st := .fault, pos := (x.prevPos : Rat), cmdPos := x.prevPos, posUnc := x.posUnc || decide (x.vel ≠ 0), homed := x.homed && decide (x.vel = 0) }
  else if x.sto then { y.rest with st := .fault }
  else if x.vel = 0 then { y.rest with st := .fault }
  else
    let q := x.mot.plan (emergSegs (f32Rat x.par.emergDec))
    { y with st := .faultStop, plan := some q, goal := cut32 q.fin.p, acc := 0 }

/-- Latch causes and react (R46, R47, R102): a DISABLED axis latches LIMIT_CHATTER and SAFETY alone, which R80 and R285 give to any axis; an axis in FAULT_STOP or FAULT latches without a second reaction. -/
def Ax.faultWith (x : Ax) (causes : Nat) : Ax :=
  match x.st with
  | .disabled => { x with fault := x.fault ||| (causes &&& (cChatter ||| cSafety)), pend := 0 }
  | .faultStop => { x with fault := x.fault ||| causes, pend := 0 }
  | .fault => { x with fault := x.fault ||| causes, pend := 0 }
  | _ =>
    if causes = 0 then { x with pend := 0 }
    else { x.react with fault := x.fault ||| causes, pend := 0 }

/-- Step 3 of the tick for one axis. An axis in FAULT_STOP whose STO line rises coasts into FAULT (R74). -/
def Ax.faultStep (x : Ax) : Ax :=
  let y := x.faultWith (x.pend ||| x.limCauses ||| (if (x.ss1 || x.sto) && !bit x.fault 11 then cSafety else 0))
  let z := { y with stoSince := y.stoSince || (y.sto && (y.st == .faultStop || y.st == .fault)) }
  if z.st = .faultStop ∧ z.sto = true then { z.rest with st := .fault } else z

/-! Groups (R69). -/

/-- Entry slot `i` of a group. -/
def Grp.slot (g : Grp) (i : Nat) : Entry := g.slots.getD (i % 8) (Entry.empty 24)

/-- The head entry of a group. -/
def Grp.first (g : Grp) : Entry := g.slot g.head

/-- Replace a slot. -/
def Grp.setSlot (g : Grp) (i : Nat) (e : Entry) : Grp := { g with slots := g.slots.set (i % 8) e }

/-- Append an entry as QUEUED. -/
def Grp.push (g : Grp) (words : List Nat) : Grp :=
  { g.setSlot (g.head + g.count) ⟨words, 1, 0, 0, none⟩ with count := g.count + 1 }

/-- The head entry leaves a group's queue. -/
def Grp.leave (g : Grp) (status : Nat) : Grp :=
  let e := g.first
  { g.setSlot g.head { e with status := status } with head := (g.head + 1) % 8, count := g.count - 1, doneEvt := g.doneEvt || (e.status == 2 && e.doneEvt), activeTag := if e.status = 2 then 0 else g.activeTag }

/-- Every entry leaves: the active one with `st`, the others CANCELLED. -/
def Grp.flush (g : Grp) (st : Nat) : Nat → Grp
  | 0 => g
  | n + 1 => if g.count = 0 then g else Grp.flush (g.leave (if g.first.status = 2 then st else 4)) st n

/-- A word of a group entry: V_MAX, A_MAX, D_MAX, J_MAX, TOL, DWELL at words 2 to 7. -/
def Entry.gw (e : Entry) (i : Nat) : Nat := at_ e.words i

/-- TARGET of member place `i` of a group entry. -/
def Entry.gtarget (e : Entry) (i : Nat) : Int := sx 64 (at_ e.words (8 + 2 * i) + at_ e.words (9 + 2 * i) * 2 ^ 32)

/-- The places of a group that hold a member, with the axis. -/
def Grp.places (g : Grp) : List (Nat × Nat) :=
  (List.range 8).filterMap (fun i => (g.members.getD i none).map (fun a => (i, a)))

/-- The travel of each place under an entry (R69). -/
def Grp.deltas (g : Grp) (e : Entry) (start : List Int) : List Int :=
  (List.range 8).map (fun i =>
    if (g.members.getD i none).isNone then 0
    else if e.type = 1 then e.gtarget i - start.getD i 0 else e.gtarget i)

/-- The path length of travels (R69). -/
def Grp.pathLen (g : Grp) (d : List Int) : Rat :=
  sqrtR (((List.range 8).map (fun i => let q := f32Rat (at_ g.scales i) * (d.getD i 0 : Rat); q * q)).foldl (· + ·) 0)

/-- The path limits of an entry, lowered until no member exceeds its own (R69). -/
def State.grpLims (s : State) (g : Grp) (e : Entry) (len : Rat) (d : List Int) : Lims :=
  g.places.foldl (fun l (i, a) =>
    let r := absR (d.getD i 0 : Rat)
    if r = 0 ∨ len = 0 then l
    else
      let p := (s.ax a).par
      let k := len / r
      Lims.of (minR l.v (f32Rat p.velLimit * k)) (minR l.a (f32Rat p.accLimit * k)) (minR l.d (f32Rat p.accLimit * k)) (minR l.j (f32Rat p.jerkLimit * k)))
    (Lims.of (f32Rat (e.gw 2)) (f32Rat (e.gw 3)) (f32Rat (e.gw 4)) (f32Rat (e.gw 5)))

/-- Two lists of positions added, place by place. -/
def addPos (p d : List Int) : List Int := (List.range 8).map (fun i => p.getD i 0 + d.getD i 0)

/-- The path velocity with which a line that ends at `p`, with limits `le`, passes into the lines behind it: the velocity both allow, for a velocity blend into another line, lowered until the next line can end as required; 0 otherwise (R59, R69). -/
def State.grpJoint (s : State) (g : Grp) (e : Entry) (le : Lims) (p : List Int) : List Entry → Rat
  | [] => 0
  | n :: r =>
    if e.blend ≠ 1 ∨ n.type = 4 then 0
    else
      let d := g.deltas n p
      let len := g.pathLen d
      let l := s.grpLims g n len d
      let v0 := minR le.v l.v
      let v1 := match e.joint with
        | some c => minR c v0
        | none => v0
      if len = 0 then 0 else lowerJoint v1 (s.grpJoint g n l (addPos p d) r) l.d l.j (fun _ => len)

/-- The entries of a group behind its place `i`. -/
def Grp.behind (g : Grp) (i : Nat) : List Entry := (List.range (g.count - 1 - i)).map (fun k => g.slot (g.head + i + 1 + k))

/-- A member's state on a line, from its position `p` and travel `d`. -/
def memberMot (p d : Int) (len : Rat) (m : Mot) : Mot :=
  let k := if len = 0 then 0 else (d : Rat) / len
  ⟨(p : Rat) + k * m.p, k * m.v, k * m.a⟩

/-- A line's plan brings a member into a state that its soft limits forbid (R64). -/
def State.lineOut (s : State) (g : Grp) (start d : List Int) (len : Rat) (q : Plan) (dt : Rat) : Nat → Rat → Bool
  | 0, _ => false
  | n + 1, t =>
    if segsTime q.segs ≤ t then false
    else g.places.any (fun (i, a) => (s.ax a).outAt (memberMot (start.getD i 0) (d.getD i 0) len (q.at t))) || s.lineOut g start d len q dt n (t + dt)

/-- Path limits under which no member with soft limits brakes harder than its STOP_DEC and STOP_JERK (R64). -/
def State.softLims (s : State) (g : Grp) (l : Lims) (len : Rat) (d : List Int) : Lims :=
  g.places.foldl (fun l (i, a) =>
    let x := s.ax a
    let r := absR (d.getD i 0 : Rat)
    if r = 0 ∨ x.soft = false then l else { l with fd := minR l.fd (f32Rat x.par.stopDec * (len / r)), fj := minR l.fj (f32Rat x.par.stopJerk * (len / r)), rj := minR l.rj (f32Rat x.par.stopJerk * (len / r)) }) l

/-- The head line of a group from positions `start`, planned from path state `m` on (R69); where that would break a member's soft limits, under softer limits (R64, log entry 30). -/
def State.grpLine (s : State) (g : Grp) (e : Entry) (start : List Int) (m : Mot) (dt : Rat) : GLine :=
  let d := g.deltas e start
  let len := g.pathLen d
  let l := s.grpLims g e len d
  let ve (l : Lims) : Rat := (reachVel m (minR (s.grpJoint g e l (addPos start d) (g.behind 0)) l.v) (len - m.p) l).getD 0
  let mk (l : Lims) : Plan := m.plan (fun m => if len = 0 then [] else moveSegs m (len - m.p) (ve l) l)
  let q := mk l
  let soft := g.places.any (fun (_, a) => (s.ax a).soft) && s.lineOut g start d len q dt (q.courses dt) 0
  ⟨if soft then mk (s.softLims g l len d) else q, len, d, l.d, l.j⟩

/-- The path position and velocity of a line. -/
def GLine.mot (q : GLine) : Mot := q.plan.at 0

/-- The position of place `i`: its base plus the rounded part of every running line (R69), which names no direction for halves; the model rounds them to even (DESIGN CHOICE, log entry 36). -/
def Grp.posOf (g : Grp) (i : Nat) : Int :=
  g.lines.foldl (fun p q => p + (if q.len = 0 then q.deltas.getD i 0 else rne ((q.deltas.getD i 0 : Rat) * (q.mot.p / q.len)))) (g.base.getD i 0)

/-- The velocity and acceleration of place `i` along the running lines. -/
def Grp.motOf (g : Grp) (i : Nat) : Rat × Rat :=
  g.lines.foldl (fun p q => let m := memberMot 0 (q.deltas.getD i 0) q.len q.mot; (p.1 + m.v, p.2 + m.a)) (0, 0)

/-- The end of the first line: its travel joins the base. -/
def Grp.dropLine (g : Grp) : Grp :=
  match g.lines with
  | [] => g
  | q :: r => { g with lines := r, base := addPos g.base q.deltas }

/-- Where the running lines end. -/
def Grp.endBase (g : Grp) : List Int := g.lines.foldl (fun b q => addPos b q.deltas) g.base

/-- Where a group entry appended to the queue will start. -/
def Grp.queueEnd (g : Grp) : List Int :=
  (List.range g.count).foldl (fun p i =>
    let e := g.slot (g.head + i)
    if e.status = 2 ∨ e.type = 4 then p else addPos p (g.deltas e p)) g.endBase

/-- Look ahead over the queue of a group from place `i`, whose entry ends at `p` if it is active and starts there if it is not: every joint takes its path velocity, and one that has been lowered stays so (R59, R69). -/
def State.grpLookFrom (s : State) : Nat → Nat → List Int → Grp → Grp
  | 0, _, _, g => g
  | n + 1, i, p, g =>
    let e := g.slot (g.head + i)
    let rest := g.behind i
    let d := if e.status = 2 ∨ e.type = 4 then List.replicate 8 0 else g.deltas e p
    let q := addPos p d
    let le := match e.status, g.lines.getLast? with
      | 2, some ln => s.grpLims g e ln.len ln.deltas
      | _, _ => s.grpLims g e (g.pathLen d) d
    State.grpLookFrom s n (i + 1) q
      (if rest.isEmpty || e.type == 4 then g else g.setSlot (g.head + i) { e with joint := some (s.grpJoint g e le q rest) })

/-- After a new entry: the look-ahead over the queue, and the line of the active entry, the last one that runs, planned anew toward its joint (R59, R69). -/
def State.grpLook (s : State) (v : Env) (g : Grp) : Grp :=
  let h := s.grpLookFrom g.count 0 g.endBase g
  match h.lines.getLast? with
  | none => h
  | some q =>
    let before := h.lines.dropLast
    if h.stopping ∨ h.first.status ≠ 2 ∨ h.first.blend ≠ 1 then h
    else { h with lines := before ++ [s.grpLine h h.first (before.foldl (fun b l => addPos b l.deltas) h.base) q.mot v.dt] }

/-- Make the head entry of a group ACTIVE; a line starts with the path velocity of one that has ended in this tick (R46, R69). -/
def State.grpActivate (s : State) (v : Env) (g : Grp) : Grp :=
  let e := { g.first with status := 2 }
  let h := { g.setSlot g.head e with activeTag := e.tag, waiting := false, last := none }
  if e.type = 4 then { h with dwell := some (dwellCourses (e.gw 7) v.per) }
  else { h with lines := h.lines ++ [s.grpLine h e h.endBase ⟨0, if g.last.isSome then g.pathVel else 0, 0⟩ v.dt] }

/-- Step 2 of the tick for one group: its lines advance; an entry ends when its line does, or, under a tolerance blend, the next line starts when at most TOL remains (R69). The first entry of a tolerance blend counts as DONE when the next line starts, not when its own line ends, so that a STOP in that tick truncates the next entry (R69, R76; DESIGN CHOICE, log entry 31). -/
def State.grpAdvance (s : State) (v : Env) (g : Grp) : Grp :=
  match g.dwell with
  | some k => if k ≤ 1 then { g.leave 3 with dwell := none, ended := true } else { g with dwell := some (k - 1) }
  | none =>
    match g.lines with
    | [] => g
    | q :: r =>
      let adv (p : GLine) : GLine := { p with plan := { p.plan with el := p.plan.el + v.dt } }
      let ls := adv q :: r.map adv
      let done := (adv q).plan.done 0
      let h := { g with lines := ls, pathVel := (ls.map (fun p => p.mot.v)).foldl (· + ·) 0 }
      if g.stopping then
        (if ls.all (fun p => p.plan.done 0) then { h with base := (List.range 8).map h.posOf, lines := [], pathVel := 0, stopping := false } else h)
      else if done then
        (if r.isEmpty then { h.dropLine.leave 3 with ended := true, pathVel := q.plan.fin.v, last := if q.plan.fin.v = 0 then none else some q } else h.dropLine)
      else if r.isEmpty && decide (g.first.blend = 2 ∧ 2 ≤ g.count ∧ (g.slot (g.head + 1)).type ≠ 4 ∧ q.len - (adv q).mot.p ≤ f32Rat (g.first.gw 6)) then
        s.grpActivate v { h.leave 3 with last := none }
      else h

/-- Idle groups with a queue, and groups whose entry has ended, take their next entry. -/
def State.grpSettle (s : State) (v : Env) : Nat → Grp → Grp
  | 0, g => g
  | n + 1, g =>
    if g.count = 0 ∨ g.stopping = true ∨ g.dwell.isSome = true ∨ g.lines ≠ [] then { g with last := none }
    else if g.first.status = 2 then g
    else
      let h := s.grpActivate v g
      if h.dwell = some 0 then State.grpSettle s v n { h.leave 3 with dwell := none } else h

/-- A line that decelerates to rest along itself. -/
def GLine.stop (q : GLine) (m : Mot) : GLine := { q with plan := m.plan (fun m => stopSegs m q.d q.j) }

/-- A group stop along the line under the entry's D_MAX and J_MAX (R69); a line that has ended in this tick with a velocity goes on along itself (R76). -/
def Grp.stop (g : Grp) : Grp :=
  let h := { g.flush 5 8 with dwell := none, waiting := false, last := none }
  if g.stopping then h
  else match g.lines, g.last with
    | [], none => h
    | [], some q => { h with lines := [q.stop ⟨0, g.pathVel, 0⟩], stopping := true }
    | _, _ => { h with lines := g.lines.map (fun q => q.stop q.mot), stopping := true }

end Sys2Proof.Machine
end

