-- ==== Sys2Proof/Machine/Stepper.lean ====
section
/-! DEFINITION. The integrated stepper channels (R149 to R168): drive permission and pin states, the step generator, microstep targets, the chopper, encoder, stall, bridge faults and calibration. -/
namespace Sys2Proof.Machine

/-- A phase at rest. -/
def Phase.init : Phase :=
  ⟨.off, false, 0, 0, 0, 0, 0, false, 0, 0, 0, 0, 0, 0, 0, false, false, none, none, 0⟩

/-- A channel after reset. -/
def Chan.init : Chan :=
  { cfg := ⟨0, 0, 0, 0, 0, 0, 0, 0, 0, 0, 0⟩, gen := 0, src := 0, dst := 0, frozen := false, lateSp := false, miss := false, pulses := [], up := true,
    encA := false, encB := false, enc := 0, encOfs := 0, still := 0, hold := false, search := false, phA := Phase.init,
    phB := Phase.init, slopeSum := 0, slopeN := 0, slopeRun := 0, stall := false, stallPos := 0, flt := none, cal := none,
    lp := false, ln := false, hm := false }

/-- What a reset of PD6 leaves of a channel: the levels of its encoder inputs (R149). -/
def Chan.pinsOnly (c : Chan) : Chan := { Chan.init with encA := c.encA, encB := c.encB }

/-- Channel `n`. -/
def State.chan (s : State) (n : Nat) : Chan := Store.get Chan.init s.chans n

/-- Replace channel `n`. -/
def State.setChan (s : State) (n : Nat) (c : Chan) : State := { s with chans := Store.put Chan.init s.chans n c }

/-- The numbers of the channels that hold something, rising. -/
def State.chanNums (s : State) : List Nat := (List.range 48).filter (fun n => s.chans.any (fun x => x.1 == n))

/-- Drive permission of R152: RUN or SAFE_HOLD, unpaired or keystone with a running fence, and PEER_ACT low. -/
def State.permit (s : State) : Bool :=
  (s.dev == .run || s.dev == .safeHold) && (!s.mtr.paired || (s.mtr.holder && decide (0 < s.mtr.fence))) && !s.mtr.peerAct

/-- A member that keeps courses without the keystone: it computes in shadow (R310). -/
def State.shadows (s : State) : Bool := s.mtr.paired && !s.mtr.holder

/-- Safety bridge-off is active on channel `n` (R153). -/
def State.safeOff (s : State) (n : Nat) : Bool :=
  if n < 32 then bit (s.get R.STP_SAFE_OFF0_SAFE_OFF) n else bit (s.get R.STP_SAFE_OFF1_SAFE_OFF) (n - 32)

/-- STPn_STAT.STATE by the rows of R151, first applicable row first (R169). -/
def State.chanState (s : State) (n : Nat) : Nat :=
  let c := s.chan n
  let x := s.ax (192 + n)
  if !(s.dev == .run || s.dev == .safeHold) || !s.domUp 6 || !x.assigned then 0
  else if s.safeOff n then 4
  else if !s.permit then 3
  else if c.cal.isSome then 6
  else if !x.enabled then 0
  else if c.flt.isSome then 5
  else if bit c.cfg.cfg 0 then 2 else 1

/-- The control pins are driven: the channel chops or runs in STEP/DIR mode (R151). -/
def State.driving (s : State) (n : Nat) : Bool := s.chanState n == 1 || s.chanState n == 2

/-- The level of a control pin: high-impedance, low or high. -/
inductive Pin where
  | z | low | high
  deriving DecidableEq, Repr

/-- A driven level. -/
def Pin.of (b : Bool) : Pin := if b then .high else .low

/-- The two control pins of a phase of a channel that chops: driving, reversed in fast decay, both low in slow decay, high-impedance in a retry (R151). -/
def Phase.pins (p : Phase) : Pin × Pin :=
  match p.st with
  | .drive => (Pin.of (!p.neg), Pin.of p.neg)
  | .fast => (Pin.of p.neg, Pin.of (!p.neg))
  | .slow => (.low, .low)
  | .retry | .off => (.z, .z)

/-- The levels of STPn_A1, A2, B1 and B2 between STEP pulses (R149, R151): in STEP/DIR mode STEP, DIR, the drive enable at its enabling level, and low. -/
def State.stpPins (s : State) (n : Nat) : (Pin × Pin) × (Pin × Pin) :=
  let c := s.chan n
  match s.chanState n with
  | 1 => (c.phA.pins, c.phB.pins)
  | 2 => ((.low, Pin.of (c.up != bit c.cfg.cfg 12)), (Pin.of (bit c.cfg.cfg 13), .low))
  | _ => ((.z, .z), (.z, .z))

/-! Adopted configuration (R161, R169). -/

/-- The register words a channel adopts. -/
def State.chanRegs (s : State) (n : Nat) : ChanCfg :=
  let g := s.get
  { cfg := g (R.STP_CFG_MODE n) + g (R.STP_CFG_MRES n) * 2 + g (R.STP_CFG_TABLE n) * 32 + g (R.STP_CFG_DECAY n) * 128 +
      g (R.STP_CFG_ENC_EN n) * 512 + g (R.STP_CFG_ENC_DIR n) * 1024 + g (R.STP_CFG_STALL_FLT n) * 2048 +
      g (R.STP_CFG_DIR_POL n) * 4096 + g (R.STP_CFG_EN_POL n) * 8192 + g (R.STP_CFG_XFLT_POL n) * 16384
    cur := g (R.STP_CUR_FS_CODE n) + g (R.STP_CUR_RUN_SCALE n) * 2 ^ 10 + g (R.STP_CUR_HOLD_SCALE n) * 2 ^ 18
    chop0 := g (R.STP_CHOP0_BLANK n) + g (R.STP_CHOP0_TOFF_MIN n) * 2 ^ 5 + g (R.STP_CHOP0_HYST n) * 2 ^ 13 + g (R.STP_CHOP0_FD_TIME n) * 2 ^ 19
    chop1 := g (R.STP_CHOP1_CMP_DLY n) + g (R.STP_CHOP1_ADAPT n) * 2 ^ 9 + g (R.STP_CHOP1_DELTA_MAX n) * 2 ^ 11 + g (R.STP_CHOP1_OC_CODE n) * 2 ^ 17
    chop2 := g (R.STP_CHOP2_TON_MAX n) + g (R.STP_CHOP2_OPEN_MIN n) * 2 ^ 10 + g (R.STP_CHOP2_HOLD_DELAY n) * 2 ^ 20
    stepdir := g (R.STP_STEPDIR_STEP_W n) + g (R.STP_STEPDIR_DIR_SU n) * 2 ^ 8
    encNum := g (R.STP_ENC_NUM_ENC_NUM n)
    encDen := g (R.STP_ENC_DEN_ENC_DEN n)
    stall := g (R.STP_STALL_STALL_THR n) + g (R.STP_STALL_STALL_STEPS n) * 2 ^ 16
    stallVmin := g (R.STP_STALL_VMIN_STALL_VMIN n)
    stallErr := g (R.STP_STALL_ERR_STALL_ERR n) }

/-- STEP/DIR mode. -/
def ChanCfg.stepDir (c : ChanCfg) : Bool := bit c.cfg 0
/-- MRES. -/
def ChanCfg.mres (c : ChanCfg) : Nat := bits c.cfg 1 4
/-- TABLE. -/
def ChanCfg.table (c : ChanCfg) : Nat := bits c.cfg 5 2
/-- DECAY: 0 slow, 1 fast, 2 mixed. -/
def ChanCfg.decay (c : ChanCfg) : Nat := bits c.cfg 7 2
/-- ENC_EN. -/
def ChanCfg.encEn (c : ChanCfg) : Bool := bit c.cfg 9
/-- FS_CODE. -/
def ChanCfg.fs (c : ChanCfg) : Nat := bits c.cur 0 10
/-- RUN_SCALE. -/
def ChanCfg.run (c : ChanCfg) : Nat := bits c.cur 10 8
/-- HOLD_SCALE. -/
def ChanCfg.holdS (c : ChanCfg) : Nat := bits c.cur 18 8
/-- BLANK in ns. -/
def ChanCfg.blank (c : ChanCfg) : Nat := bits c.chop0 0 5 * 100
/-- TOFF_MIN in ns. -/
def ChanCfg.toffMin (c : ChanCfg) : Nat := bits c.chop0 5 8 * 100
/-- HYST. -/
def ChanCfg.hyst (c : ChanCfg) : Nat := bits c.chop0 13 6
/-- FD_TIME in ns. -/
def ChanCfg.fdTime (c : ChanCfg) : Nat := bits c.chop0 19 7 * 100
/-- CMP_DLY in ns. -/
def ChanCfg.cmpDly (c : ChanCfg) : Nat := bits c.chop1 0 9
/-- The adaptation gain 1, 1/2, 1/4 or 1/8. -/
def ChanCfg.gain (c : ChanCfg) : Rat := 1 / ((2 ^ bits c.chop1 9 2 : Nat) : Rat)
/-- DELTA_MAX. -/
def ChanCfg.deltaMax (c : ChanCfg) : Nat := bits c.chop1 11 6
/-- OC_CODE. -/
def ChanCfg.oc (c : ChanCfg) : Nat := bits c.chop1 17 10
/-- TON_MAX in ns. -/
def ChanCfg.tonMax (c : ChanCfg) : Nat := bits c.chop2 0 10 * 100
/-- OPEN_MIN. -/
def ChanCfg.openMin (c : ChanCfg) : Nat := bits c.chop2 10 10
/-- HOLD_DELAY in ms. -/
def ChanCfg.holdDelay (c : ChanCfg) : Nat := bits c.chop2 20 10
/-- STEP_W in ns. -/
def ChanCfg.stepW (c : ChanCfg) : Nat := bits c.stepdir 0 8 * 10
/-- DIR_SU in ns. -/
def ChanCfg.dirSu (c : ChanCfg) : Nat := bits c.stepdir 8 8 * 10

/-- The channel's rate limit in increments per second (R155). -/
def ChanCfg.rate (c : ChanCfg) : Rat :=
  let base : Rat := if c.stepDir then minR 2000000 (1000000000 / (2 * (c.stepW : Rat))) else 2000000
  base * ((2 ^ c.mres * 65536 : Nat) : Rat)

/-- The checks that ENABLE and RELOAD make on a channel's parameters and its axis's VEL_LIMIT (R155, R161, R169). -/
def ChanCfg.ok (c : ChanCfg) (velLimit : Nat) : Bool :=
  decide (c.mres ≤ 8) && decide (c.decay ≤ 2) && decide (1 ≤ c.fs) && decide (c.holdS ≤ c.run) &&
  decide (100 ≤ c.blank ∧ c.blank ≤ 2000) && decide (1000 ≤ c.toffMin ∧ c.toffMin ≤ 20000) &&
  decide (1000 ≤ c.tonMax ∧ c.tonMax ≤ 100000) && decide (2 ≤ c.hyst) && decide (c.cmpDly ≤ 500) &&
  decide (c.fs < c.oc) && decide (1 ≤ c.openMin) && decide (c.holdDelay ≤ 1000) && decide (c.blank < c.tonMax) &&
  (c.decay != 2 || decide (c.fdTime < c.toffMin)) && decide (20 ≤ c.stepW) && decide (20 ≤ c.dirSu) &&
  (!c.encEn || (decide (0 < c.encNum) && decide (0 < c.encDen) && decide (0 < c.stallErr))) &&
  decide (1 ≤ bits c.stall 16 8) && fPos c.stallVmin && decide (f32Rat velLimit ≤ c.rate)

/-! The generator (R154, R155). -/

/-- The microstep number of a generator position: its count in steps of 2^MRES (R155). -/
def stepNo (mres : Nat) (gen : Int) : Int := gen / 65536 / ((2 ^ mres : Nat) : Int)

/-- The microstep index (R155). -/
def Chan.index (c : Chan) : Nat := ux 10 (stepNo c.cfg.mres c.gen * ((2 ^ c.cfg.mres : Nat) : Int))

/-- `n` pulses of one direction join a queue of runs. -/
def addRun (q : List (Bool × Nat)) (d : Bool) (n : Nat) : List (Bool × Nat) :=
  if n = 0 then q
  else match q with
    | [] => [(d, n)]
    | [(e, m)] => if e = d then [(e, m + n)] else [(e, m), (d, n)]
    | x :: y :: r => x :: addRun (y :: r) d n

/-- Move the generator; where STEP and DIR are driven (`live`) each index update queues one STEP pulse in its direction (R155, R157). -/
def Chan.moveTo (c : Chan) (live : Bool) (p : Int) : Chan :=
  let k := stepNo c.cfg.mres p - stepNo c.cfg.mres c.gen
  { c with gen := p, pulses := if live then addRun c.pulses (decide (0 < k)) k.natAbs else [] }

/-- The STEP pulses of channel `n` reach its pins. -/
def State.stepping (s : State) (n : Nat) : Bool := s.chanState n == 2

/-- The generator's position at a device time: linear from `src` at the actuation instant to `dst` one period later (R154). -/
def Chan.genAt (c : Chan) (at_ now per : Nat) : Int :=
  if c.frozen then c.gen
  else if at_ + per ≤ now then c.dst
  else c.src + rha (((c.dst - c.src) * (now - at_ : Nat) : Int) / (max 1 per : Rat))

/-- Freeze the generator where it is: queued pulses cease (R166). -/
def Chan.freeze (c : Chan) : Chan := { c with frozen := true, src := c.gen, dst := c.gen, pulses := [] }

/-- The encoder position in increments, offset to the generator (R163). -/
def Chan.encPos (c : Chan) : Int :=
  let raw := if c.cfg.encDen = 0 then 0 else rha (((c.enc * c.cfg.encNum : Int) : Rat) / (c.cfg.encDen : Rat))
  (if bit c.cfg.cfg 10 then -raw else raw) + c.encOfs

/-- The position a channel latches as ACT_POS: its encoder's, else its generator's (R163). -/
def Chan.position (c : Chan) : Int := if c.cfg.encEn then c.encPos else c.gen

/-! Targets (R158, R159). -/

/-- The two currents of a table entry word, clamped to ±1024 (R158). -/
def entryCur (w : Nat) (second : Bool) : Int :=
  let v := sx 16 (if second then w / 65536 else w)
  max (-1024) (min 1024 v)

/-- The current entry of phase A or B at an index (R158). -/
def State.tableCur (s : State) (t i : Nat) (second : Bool) : Int :=
  if t = 0 then (if second then sinTab i else cosTab i)
  else entryCur (s.get (R.STP_MTAB_ENTRY (t - 1) i)) second

/-- SCALE (R159): HOME_TORQUE × RUN_SCALE rounded down in the search step of HM_HARDSTOP, HOLD_SCALE after HOLD_DELAY, else RUN_SCALE. -/
def Chan.scale (c : Chan) (homeTorque : Nat) : Nat :=
  if c.search then (f32Rat homeTorque * (c.cfg.run : Rat)).floor.toNat
  else if c.hold then c.cfg.holdS else c.cfg.run

/-- A phase target in DAC codes, held with a fraction of 1/16 code (R159). -/
def phaseT (entry : Int) (scale fs : Nat) : Rat :=
  (rne ((entry.natAbs * scale * fs * 16 : Nat) / (261120 : Rat)) : Rat) / 16

/-- A phase of a channel. -/
def Chan.ph (c : Chan) (second : Bool) : Phase := if second then c.phB else c.phA

/-- The table is read at an index update (R158). -/
def State.readTable (s : State) (n : Nat) : State :=
  let c := s.chan n
  s.setChan n { c with phA := { c.phA with cur := s.tableCur c.cfg.table c.index false }, phB := { c.phB with cur := s.tableCur c.cfg.table c.index true } }

/-- Target and sign of a phase of channel `n`, from the entry read last (R158, R159). -/
def State.target (s : State) (n : Nat) (second : Bool) : Rat × Bool :=
  let c := s.chan n
  let e := (c.ph second).cur
  (phaseT e (c.scale (s.ax (192 + n)).par.homeTorque) c.cfg.fs, decide (e < 0))

/-- Replace a phase. -/
def Chan.setPh (c : Chan) (second : Bool) (p : Phase) : Chan := if second then { c with phB := p } else { c with phA := p }

/-- The comparator offset of a phase (R168). -/
def State.cmpOfs (s : State) (n : Nat) (second : Bool) : Int :=
  sx 6 (s.get (if second then R.STP_CAL_CMP_OFS_B n else R.STP_CAL_CMP_OFS_A n))

/-- The thresholds of a phase for its target (R160): whole codes, and what the DAC is set to once the offset of R168 is taken off. -/
def Phase.aim (p : Phase) (cfg : ChanCfg) (t : Rat) (ofs : Int) : Phase :=
  let u := rne (t + (cfg.hyst : Rat) / 2 + p.delta)
  { p with t := t, u := u, l := rne (t - (cfg.hyst : Rat) / 2 + p.delta), dac := u - ofs }

/-- Start a chopper period: slow decay while the target is below 1, else drive toward the upper threshold (R160). -/
def Phase.period (p : Phase) (cfg : ChanCfg) (t : Rat) (neg : Bool) (ofs : Int) : Phase :=
  let q := { (if neg = p.neg then p else { p with neg := neg, havePrev := false }) with held := false, early := none }
  if t < 1 then { q with st := .slow, t := t, wait := true, havePrev := false }
  else { q.aim cfg t ofs with st := .drive, wait := false }

/-- New targets after an index update: the table is read, thresholds follow at once, a sign change starts the phase afresh, and a phase that waits on a target below 1 looks again (R156, R158, R160). A change of SCALE alone is no index update: a phase takes it at its next period. -/
def State.retarget (s0 : State) (n : Nat) : State :=
  let s := s0.readTable n
  let c := s.chan n
  let go (second : Bool) : Phase :=
    let p := c.ph second
    let tn := s.target n second
    match p.st with
    | .off => p
    | .retry => p
    | _ =>
      if tn.2 ≠ p.neg ∨ p.wait = true then p.period c.cfg tn.1 tn.2 (s.cmpOfs n second)
      else p.aim c.cfg tn.1 (s.cmpOfs n second)
  s.setChan n { c with phA := go false, phB := go true }

/-- Both phases start afresh with their offsets Δ at 0 (R152, R160), or stay off when the channel does not chop. -/
def State.restart (s0 : State) (n : Nat) : State :=
  let s := s0.readTable n
  let c := { s.chan n with pulses := [] }
  if s.chanState n ≠ 1 then s.setChan n { c with phA := { c.phA with st := .off }, phB := { c.phB with st := .off } }
  else
    let go (second : Bool) : Phase :=
      let tn := s.target n second
      Phase.period { Phase.init with tOff := (c.cfg.toffMin : Rat), cur := (c.ph second).cur } c.cfg tn.1 tn.2 (s.cmpOfs n second)
    s.setChan n { c with phA := go false, phB := go true }

/-- Channels whose state has changed between two states of the device start afresh, or are off (R151 to R153). -/
def State.repin (t s : State) : State :=
  t.chanNums.foldl (fun u n => if t.chanState n = s.chanState n then u else u.restart n) t

/-! STEP_FAULT (R167). -/

/-- Latch STEP_FAULT with a code: FLT_CODE, the channel's STP_FLT bit, and the cause for the next tick (R47, R167). -/
def State.stepFault (s : State) (n code : Nat) : State :=
  let s1 := (s.set (R.STP_STAT_FLT_CODE n) code)
  let s2 := if n < 32 then s1.orFld R.STP_FLT0_FLT (2 ^ n) else s1.orFld R.STP_FLT1_FLT (2 ^ (n - 32))
  let x := s2.ax (192 + n)
  s2.setAx (192 + n) { x with pend := x.pend ||| cStep }

/-- A fresh period has not detected the fault before it again: it was transient (R167). -/
def State.transient (s : State) (n : Nat) : State := (s.setFlag (R.STP_STAT_TRANS n) true).count R.STP_TRANS_CNT_COUNT

/-- A bridge fault on one phase (R167): it makes the phase's pins high-impedance for 50 µs; the same fault in the fresh period is lasting, and another one there shows that the one before was transient. -/
def State.bridgeFault (s : State) (n : Nat) (second : Bool) (code : Nat) : State :=
  let c := s.chan n
  let p := c.ph second
  if p.fault = some code then
    (s.setChan n { c with flt := some code, phA := { c.phA with st := .off, fault := none }, phB := { c.phB with st := .off, fault := none } }).stepFault n code
  else (if p.fault.isSome then s.transient n else s).setChan n (c.setPh second { p with st := .retry, havePrev := false, held := false, early := none, fault := some code })

/-- The channel judges a phase event: it chops, and the phase is in the named state. -/
def State.inPhase (s : State) (n : Nat) (second : Bool) (st : PhSt) : Bool :=
  s.chanState n == 1 && ((s.chan n).ph second).st == st

/-- End of blanking (R160, R167): overcurrent, or the sample-and-hold closes and the upper threshold is set. -/
def State.blankingEnd (s : State) (n : Nat) (second beat : Bool) : State :=
  if !s.inPhase n second .drive then s
  else if beat then s.bridgeFault n second 1
  else
    let c := s.chan n
    s.setChan n (c.setPh second { c.ph second with held := true })

/-- The adaptation from the valley of the period that runs (R160), with the peak, off-time and on-slope of the period before. -/
def Phase.adapt (p : Phase) (cfg : ChanCfg) (peak tOff sOn code : Rat) : Phase :=
  let valley := code - sOn * (cfg.blank : Rat)
  let q := { p with valley := valley, held := false, early := none }
  if p.havePrev then
    let d := p.delta - cfg.gain * ((peak + valley) / 2 - p.tPrev)
    let m : Rat := cfg.deltaMax
    { q with sOff := if tOff = 0 then 0 else (peak - valley) / tOff, delta := maxR (-m) (minR m d) }
  else q

/-- The on-slope and peak of an on-time `ton` that began at the valley and ended at threshold `u` (R160). -/
def Phase.measure (p : Phase) (cfg : ChanCfg) (u : Int) (ton : Rat) : Phase :=
  let d : Rat := ton - cfg.cmpDly
  let sOn := if d ≤ 0 then p.sOn else ((u : Rat) - p.valley) / d
  { p with sOn := sOn, peak := (u : Rat) + sOn * cfg.cmpDly }

/-- A conversion of the monitoring ADC (R160, R162): the corrected result goes to VALLEY, and to the adaptation when the phase's hold awaits it. One that comes after the end of its on-time adapts from the period before that one, and corrects the on-slope and the peak. -/
def State.adcConversion (s : State) (n : Nat) (second : Bool) (code : Nat) : State :=
  let ofs := sx 8 (s.get (if second then R.STP_CAL_ADC_OFS_B n else R.STP_CAL_ADC_OFS_A n))
  let v : Int := max 0 (min 4095 ((code : Int) - ofs))
  let s1 := s.set (if second then R.STP_MON_VALLEY_B n else R.STP_MON_VALLEY_A n) v.toNat
  let c := s1.chan n
  let p := c.ph second
  if !p.held then s1
  else
    let q := match p.early with
      | none => p.adapt c.cfg p.peak p.tOff p.sOn ((v : Rat) / 4)
      | some e => (p.adapt c.cfg e.peak e.tOff e.sOn ((v : Rat) / 4)).measure c.cfg e.u p.tOn
    s1.setChan n { c.setPh second q with slopeSum := if c.slopeN = 0 then c.slopeSum else c.slopeSum + (q.sOn - p.sOn) }

/-- The on-time ends (R160): slopes, peak and off-time, then decay. The on-slope joins the full step's average (R164). -/
def Chan.endOn (c : Chan) (second : Bool) (ton : Nat) : Chan :=
  let p := c.ph second
  let m := p.measure c.cfg p.u (ton : Rat)
  let off := if 0 < p.sOff then (m.peak - (p.l : Rat)) / p.sOff else (c.cfg.toffMin : Rat)
  let tOff := maxR off (maxR (c.cfg.toffMin : Rat) (16667 - (ton : Rat)))
  let q := { m with st := if c.cfg.decay = 0 then .slow else .fast, tOn := (ton : Rat), tOff := tOff, early := if p.held then some ⟨p.peak, p.tOff, p.sOn, p.u⟩ else none }
  { c.setPh second q with slopeSum := c.slopeSum + m.sOn, slopeN := c.slopeN + 1 }

/-- A comparator trip after `ton` ns (R160). -/
def State.comparatorTrip (s : State) (n : Nat) (second : Bool) (ton : Nat) : State :=
  if !s.inPhase n second .drive then s else s.setChan n ((s.chan n).endOn second ton)

/-- TON_MAX without a trip (R160, R167): an open phase when the target is large enough, else decay. -/
def State.onTimeMax (s : State) (n : Nat) (second : Bool) : State :=
  if !s.inPhase n second .drive then s
  else
    let c := s.chan n
    if (c.cfg.openMin : Rat) ≤ (c.ph second).t then s.bridgeFault n second 3
    else s.setChan n (c.endOn second c.cfg.tonMax)

/-- Mixed decay passes to slow decay (R160). -/
def State.fastDecayEnd (s : State) (n : Nat) (second : Bool) : State :=
  let c := s.chan n
  if !s.inPhase n second .fast || c.cfg.decay != 2 then s
  else s.setChan n (c.setPh second { c.ph second with st := .slow })

/-- The mid-point of slow decay (R167): a sense voltage above OC_CODE is a short to supply. -/
def State.slowMidpoint (s : State) (n : Nat) (second beat : Bool) : State :=
  if s.inPhase n second .slow && !((s.chan n).ph second).wait && beat then s.bridgeFault n second 2 else s

/-- The off-time ends (R160, R167): a fresh period that ends without the fault makes it transient, the target that the index has left is the period's, and a new period starts. -/
def State.offTimeEnd (s : State) (n : Nat) (second : Bool) : State :=
  if !(s.inPhase n second .slow || s.inPhase n second .fast) || ((s.chan n).ph second).wait then s
  else
    let c := s.chan n
    let p := c.ph second
    let tn := s.target n second
    let s1 := s.setChan n (c.setPh second (Phase.period { p with fault := none, tPrev := p.t, havePrev := true } c.cfg tn.1 tn.2 (s.cmpOfs n second)))
    if p.fault.isSome then s1.transient n else s1

/-- The 50 µs of a retry end: a fresh period starts (R167). -/
def State.retryEnd (s : State) (n : Nat) (second : Bool) : State :=
  if !s.inPhase n second .retry then s
  else
    let c := s.chan n
    let tn := s.target n second
    s.setChan n (c.setPh second ({ c.ph second with havePrev := false }.period c.cfg tn.1 tn.2 (s.cmpOfs n second)))

/-! Generator events. -/

/-- The next index boundary toward the interpolation's end, if one lies before it (R155). -/
def Chan.nextStep (c : Chan) : Option Int :=
  let k := stepNo c.cfg.mres c.gen
  let w : Int := ((2 ^ c.cfg.mres * 65536 : Nat) : Int)
  if c.frozen ∨ stepNo c.cfg.mres c.dst = k then none
  else if c.gen < c.dst then some ((k + 1) * w) else some (k * w - 1)

/-- The condition of the stall indication holds (R164). -/
def State.stallCond (s : State) (n : Nat) : Bool :=
  let c := s.chan n
  if c.cfg.encEn then decide (c.cfg.stallErr * 65536 < (c.gen - c.encPos).natAbs)
  else !c.cfg.stepDir && decide (bits c.cfg.stall 16 8 ≤ c.slopeRun) && decide (0 < bits c.cfg.stall 16 8)

/-- The stall indication acts (R165): in the search step of HM_HARDSTOP it latches and freezes the generator; outside homing it may latch STEP_FAULT and marks an axis without an encoder as uncertain. -/
def State.stallAct (s : State) (n : Nat) : State :=
  let a := 192 + n
  let c := s.chan n
  let x := s.ax a
  let s1 := s.setChan n { c with stall := true }
  match x.homing with
  | some h =>
    if x.par.homeMethod = 3 ∧ h.step = .search then
      let f := { c.freeze with stall := true, stallPos := if c.stall then c.stallPos else c.encPos }
      (s.setChan n f).setAx a { x.rest with pos := ((f.gen + x.ofs : Int) : Rat), cmdPos := f.gen + x.ofs, prevPos := f.gen + x.ofs }
    else s1
  | none =>
    let s2 := if bit c.cfg.cfg 11 then s1.stepFault n 4 else s1
    if c.cfg.encEn then s2
    else
      let y := s2.ax a
      s2.setAx a { y with posUnc := true, homed := false }

/-- The stall indication as homing sees it: for an encoder channel, the encoder has moved less than STALL_ERR in the dwell (R165). -/
def State.homeStall (s : State) (a : Nat) : Bool :=
  if a < 192 then false
  else
    let c := s.chan (a - 192)
    c.stall && (!c.cfg.encEn || decide ((c.encPos - c.stallPos).natAbs < c.cfg.stallErr * 65536))

/-- An encoder that has moved STALL_ERR or more in the dwell of a hard stop: the dwell restarts from here (R165). -/
def State.stallDwell (s : State) (a : Nat) : State :=
  if a < 192 then s
  else
    let c := s.chan (a - 192)
    if c.search && c.stall && !s.homeStall a then s.setChan (a - 192) { c with stallPos := c.encPos } else s

/-- A full step is complete: the average on-slope is published in 1/256 code/µs and judged against STALL_THR (R164). A full step within which no on-time has ended has no average, and leaves the run as it is (DESIGN CHOICE, log entry 38). -/
def State.fullStep (s : State) (n : Nat) : State :=
  let c := s.chan n
  if c.slopeN = 0 then s
  else
    let avg := (rne (c.slopeSum / (c.slopeN : Rat) * 256000)).toNat
    let fast := decide (f32Rat c.cfg.stallVmin ≤ absR (s.ax (192 + n)).vel)
    let run := if fast && decide (bits c.cfg.stall 0 16 ≤ avg) then c.slopeRun + 1 else 0
    let s1 := (s.setChan n { c with slopeSum := 0, slopeN := 0, slopeRun := run, stall := c.stall && (c.cfg.encEn || c.search || decide (0 < run)) }).set (R.STP_STAT_SLOPE_AVG n) (min avg 65535)
    if !c.cfg.encEn && s1.stallCond n then s1.stallAct n else s1

/-- A change of the index is an index update, which the phases of a channel that chops follow; `c` is the channel before (R155, R156). -/
def State.reindex (s : State) (n : Nat) (c : Chan) : State :=
  if (s.chan n).index ≠ c.index ∧ s.chanState n = 1 then s.retarget n else s

/-- Move the generator of channel `n`: STEP pulses are queued where they are driven, a crossed full step is judged, and the phases follow the index (R155 to R157, R164). -/
def State.moveChan (s : State) (n : Nat) (p : Int) : State :=
  let c := s.chan n
  let s1 := s.setChan n (c.moveTo (s.stepping n) p)
  let s2 := if stepNo 8 p = stepNo 8 c.gen then s1 else s1.fullStep n
  s2.reindex n c

/-- An index update (R155 to R157). -/
def State.indexUpdate (s : State) (n : Nat) : State :=
  match (s.chan n).nextStep with
  | none => s
  | some p => s.moveChan n p

/-- The oldest STEP pulse leaves the queue, DIR standing at its direction (R157). -/
def State.stepPulse (s : State) (n : Nat) : State × List Out :=
  let c := s.chan n
  match s.stepping n, c.pulses with
  | true, (d, k) :: r => (s.setChan n { c with pulses := if k ≤ 1 then r else (d, k - 1) :: r, up := d }, [.step n (d != bit c.cfg.cfg 12)])
  | _, _ => (s, [])

/-- t_s for one channel (R154, R163, R164): the generator is at its interpolated position, the pins are latched, and an encoder channel judges its stall. -/
def State.chanSample (s : State) (n pins : Nat) : State :=
  let c0 := s.chan n
  let s0 := s.moveChan n (c0.genAt s.crs.actAt s.now (s.get R.BOND_CRS_PERIOD_PERIOD_NS))
  let c := { s0.chan n with lp := bit pins 0, ln := bit pins 1, hm := bit pins 2 }
  let a := 192 + n
  let x := s0.ax a
  let i : AxIn := { AxIn.init with lp := c.lp, ln := c.ln, hm := c.hm, crs := s0.crs.cnt }
  let s1 := (s0.setChan n c).setAx a (x.sample i s0.now (c.position + x.ofs))
  if c.cfg.encEn then (if s1.stallCond n then s1.stallAct n else s1.setChan n { c with stall := c.search && c.stall })
  else s1

/-- The set-point of the present course for channel `n`, in generator increments: the standby computes one course late, so that its newest set-point is the present course's (R154, R310). -/
def State.chanSp (s : State) (n : Nat) : Int :=
  let x := s.ax (192 + n)
  (if s.shadows then x.cmdPos else x.prevPos) - x.ofs

/-- The set-point of the present course has not arrived (R30). On the standby the newest set-point is the present course's. -/
def State.chanMiss (s : State) (n : Nat) : Bool := if s.shadows then (s.chan n).lateSp else (s.chan n).miss

/-- t_a for one channel (R154): the interpolation of the last course is at its end, and one toward the set-point of this course starts; without that set-point the last increment continues (R30). -/
def State.chanActuate (s : State) (n : Nat) : State :=
  let c0 := s.chan n
  let x := s.ax (192 + n)
  let s1 := if c0.frozen then s else s.moveChan n c0.dst
  let c := s1.chan n
  let frozen := c.frozen && (x.st == .fault || x.homing.isSome)
  let dst := if frozen || !x.enabled then c.gen else if s.chanMiss n && !c.frozen then c.gen + (c0.dst - c0.src) else s.chanSp n
  s1.setChan n { c with src := c.gen, dst := dst, frozen := frozen }

/-- A quadrature edge (R163): where the encoder is configured, a change of one input counts by its sense, and a change of both at once latches FLT_CODE 6. -/
def State.encoderEdge (s : State) (n : Nat) (a b : Bool) : State :=
  let c := s.chan n
  if !c.cfg.encEn then s.setChan n { c with encA := a, encB := b }
  else if a ≠ c.encA ∧ b ≠ c.encB then (s.setChan n { c with encA := a, encB := b }).stepFault n 6
  else if a = c.encA ∧ b = c.encB then s
  else
    -- A leading B counts up: the new A equals the old B after an edge of B, or differs from B after an edge of A
    let upw := if a ≠ c.encA then a != c.encB else b == c.encA
    s.setChan n { c with encA := a, encB := b, enc := if upw then c.enc + 1 else c.enc - 1 }

/-- HOLD_DELAY in whole courses. -/
def State.holdCourses (s : State) (n : Nat) : Nat := ceilDiv ((s.chan n).cfg.holdDelay * 1000000) (max 1 (s.get R.BOND_CRS_PERIOD_PERIOD_NS))

/-- HOLD_DELAY passes at zero set-point velocity within this course: SCALE becomes HOLD_SCALE (R159). -/
def State.holdExpire (s : State) (n : Nat) : State :=
  let c := s.chan n
  if (s.ax (192 + n)).vel ≠ 0 ∨ c.hold = true ∨ c.still < s.holdCourses n then s
  else s.setChan n { c with hold := true }

/-- The channel's part of a tick (R30, R159, R164): whether the set-point that it forms, that of the next course, comes late, beside the same of the present course; the ticks at zero set-point velocity, of which the first begins the delay, the search scale of HM_HARDSTOP, and below STALL_VMIN no stall by slope. -/
def State.chanTick (s : State) (n : Nat) (late : Bool) : State :=
  let c := s.chan n
  let x := s.ax (192 + n)
  let still := if x.vel = 0 then c.still + 1 else 0
  let srch := match x.homing with
    | some h => x.par.homeMethod == 3 && h.step == .search
    | none => false
  let slow := !c.cfg.encEn && !srch && decide (absR x.vel < f32Rat c.cfg.stallVmin)
  s.setChan n { c with still := still, hold := decide (s.holdCourses n < still), search := srch, lateSp := late, miss := c.lateSp, stall := c.stall && !slow, slopeRun := if slow then 0 else c.slopeRun }

/-- A pulse-class stop freezes the generator at its position of this moment, and the axis's set-point is taken from it (R166). -/
def State.chanFreeze (s : State) (n : Nat) : State :=
  let s1 := s.moveChan n ((s.chan n).genAt s.crs.actAt s.now (s.get R.BOND_CRS_PERIOD_PERIOD_NS))
  let f := (s1.chan n).freeze
  let x := s1.ax (192 + n)
  let p := f.gen + x.ofs
  (s1.setChan n f).setAx (192 + n) { x with pos := (p : Rat), cmdPos := p, prevPos := p }

/-- ENABLE adopts the configuration, offsets the encoder to the generator and starts the phases (R155, R163, R169). -/
def State.chanEnable (s : State) (n : Nat) : State :=
  let c := s.chan n
  let d := { c with cfg := s.chanRegs n, frozen := false, src := c.gen, dst := c.gen, lateSp := false, miss := false, pulses := [], still := 0, hold := false, stall := false, slopeSum := 0, slopeN := 0, slopeRun := 0, flt := none }
  s.setChan n { d with encOfs := d.encOfs + (d.gen - d.encPos) }

/-- A homing run begins without a stall of the motion before it (R165). -/
def State.chanHome (s : State) (n : Nat) : State := s.setChan n { s.chan n with stall := false, slopeRun := 0 }

/-- RELOAD adopts the configuration (R169). -/
def State.chanReload (s : State) (n : Nat) : State :=
  (s.setChan n { s.chan n with cfg := s.chanRegs n }).reindex n (s.chan n)

/-- CLEAR_FAULT on a channel (R47, R167, R169): the code and a lasting bridge fault are cleared, and the channel chops at its frozen index; after its bridges were off (`off`) the generator of a channel with an encoder takes the actual position. -/
def State.chanClear (s : State) (n : Nat) (off : Bool) : State :=
  let c := { s.chan n with flt := none, stall := false }
  let g := if off && c.cfg.encEn then (let x := s.ax (192 + n); x.actPos - x.ofs) else c.gen
  ((s.set (R.STP_STAT_FLT_CODE n) 0).setChan n (if off then { c with gen := g, src := g, dst := g, frozen := false } else c)).restart n

/-- Every enabled channel resumes at the generator position of the present course, which the profile state gives (R152). -/
def State.chanResume (s : State) (n : Nat) : State :=
  let c := s.chan n
  if c.frozen || !(s.ax (192 + n)).enabled then s
  else s.setChan n { c with gen := c.genAt s.crs.actAt s.now (s.get R.BOND_CRS_PERIOD_PERIOD_NS), pulses := [] }

/-- CAL_GO (R168): a disabled axis's channel starts a run, an enabled one reads BUSY. -/
def State.calGo (s : State) (n : Nat) : State :=
  if (s.ax (192 + n)).enabled then s.set (R.STP_CAL_CAL_RES n) 2
  else if (s.chan n).cal.isSome then s
  else (s.setChan n { s.chan n with cal := some 1 }).setFlag (R.STP_CTRL_CAL_GO n) true

/-- A calibration run ends with the measured offsets (R168): out of bounds it is retried once, then FAIL. -/
def State.calEnd (s : State) (n : Nat) (ca cb aa ab : Int) : State :=
  match (s.chan n).cal with
  | none => s
  | some k =>
    let okc (x : Int) : Bool := decide (-31 ≤ x ∧ x ≤ 31)
    let oka (x : Int) : Bool := decide (-127 ≤ x ∧ x ≤ 127)
    if okc ca && okc cb && oka aa && oka ab then
      let s1 := ((((s.set (R.STP_CAL_CMP_OFS_A n) (ux 6 ca)).set (R.STP_CAL_CMP_OFS_B n) (ux 6 cb)).set (R.STP_CAL_ADC_OFS_A n) (ux 8 aa)).set (R.STP_CAL_ADC_OFS_B n) (ux 8 ab)).set (R.STP_CAL_CAL_RES n) 1
      let s2 := (s1.setFlag (R.STP_STAT_UNCAL n) false).setFlag (R.STP_CTRL_CAL_GO n) false
      (if k = 2 then s2.count R.STP_TRANS_CNT_COUNT else s2).setChan n { s.chan n with cal := none }
    else if k = 1 then s.setChan n { s.chan n with cal := some 2 }
    else
      ((((s.set (R.STP_CAL_CAL_RES n) 3).setFlag (R.STP_STAT_UNCAL n) true).setFlag (R.STP_CTRL_CAL_GO n) false).setChan n { s.chan n with cal := none })

/-- An external drive's fault input held for 1 µs at a level, active by XFLT_POL (R149, R157): judged while the axis is enabled and the channel drives its pins. -/
def State.externalFault (s : State) (n : Nat) (high : Bool) : State :=
  if (s.ax (192 + n)).enabled && s.stepping n && high == bit (s.chan n).cfg.cfg 14 then s.stepFault n 5 else s

/-! Meanings. What a stepper event can change is the channel, its axis, and the STP registers. -/

/-- The footprint of a stepper event. -/
def stpDo (t s : State) (o : List Out) : Host.Outcome State Fault Refusal :=
  .next { s with chans := t.chans, axes := t.axes, flds := t.flds, bus := .none, outs := o }

/-- INDEX_UPDATE. -/
def execIndexUpdate (n : Fin 48) (s : State) : Host.Outcome State Fault Refusal := stpDo (s.indexUpdate n) s []

/-- STEP_PULSE. -/
def execStepPulse (n : Fin 48) (s : State) : Host.Outcome State Fault Refusal := stpDo (s.stepPulse n).1 s (s.stepPulse n).2

/-- BLANKING_END; `beat` is the comparator at OC_CODE. -/
def execBlankingEnd (n : Fin 48) (b beat : Bool) (s : State) : Host.Outcome State Fault Refusal := stpDo (s.blankingEnd n b beat) s []

/-- COMPARATOR_TRIP after `ton` ns of on-time. -/
def execComparatorTrip (n : Fin 48) (b : Bool) (ton : Nat) (s : State) : Host.Outcome State Fault Refusal := stpDo (s.comparatorTrip n b ton) s []

/-- ON_TIME_MAX. -/
def execOnTimeMax (n : Fin 48) (b : Bool) (s : State) : Host.Outcome State Fault Refusal := stpDo (s.onTimeMax n b) s []

/-- FAST_DECAY_END. -/
def execFastDecayEnd (n : Fin 48) (b : Bool) (s : State) : Host.Outcome State Fault Refusal := stpDo (s.fastDecayEnd n b) s []

/-- SLOW_DECAY_MIDPOINT; `beat` is the sense voltage above OC_CODE. -/
def execSlowDecayMidpoint (n : Fin 48) (b beat : Bool) (s : State) : Host.Outcome State Fault Refusal := stpDo (s.slowMidpoint n b beat) s []

/-- OFF_TIME_END. -/
def execOffTimeEnd (n : Fin 48) (b : Bool) (s : State) : Host.Outcome State Fault Refusal := stpDo (s.offTimeEnd n b) s []

/-- BRIDGE_FAULT_RETRY_END. -/
def execBridgeFaultRetryEnd (n : Fin 48) (b : Bool) (s : State) : Host.Outcome State Fault Refusal := stpDo (s.retryEnd n b) s []

/-- HOLD_DELAY_EXPIRE. -/
def execHoldDelayExpire (n : Fin 48) (s : State) : Host.Outcome State Fault Refusal := stpDo (s.holdExpire n) s []

/-- EXTERNAL_DRIVE_FAULT at a channel, with the level of SA. -/
def execExternalDriveFault (n : DrivePin) (s : State) : Host.Outcome State Fault Refusal := stpDo (s.externalFault n.chan n.high) s []

/-- ENCODER_EDGE with the new levels of EA and EB. -/
def execEncoderEdge (n : Fin 48) (a b : Bool) (s : State) : Host.Outcome State Fault Refusal := stpDo (s.encoderEdge n a b) s []

/-- STALL: acts when the condition of R164 holds. -/
def execStall (n : Fin 48) (s : State) : Host.Outcome State Fault Refusal :=
  stpDo (if s.stallCond n then s.stallAct n else s) s []

/-- CAL_GO. -/
def execCalGo (n : Fin 48) (s : State) : Host.Outcome State Fault Refusal :=
  s.atReg (0x800A0000 + 0x40 * n.val) (stpDo (s.calGo n) s [])

/-- CALIBRATION_END with the measured offsets. -/
def execCalibrationEnd (n : Fin 48) (ca cb aa ab : Int) (s : State) : Host.Outcome State Fault Refusal := stpDo (s.calEnd n ca cb aa ab) s []

end Sys2Proof.Machine
end

