-- ==== Sys2Proof/Machine/PfCmd.lean ====
section
/-! DEFINITION. The commands of the profile engines (R46, R47, R51 to R53, R60 to R70, R74 to R78, R447, R448): each answers a result code and the state. -/
namespace Sys2Proof.Machine

/-! Result codes (R49). -/
/-- OK. -/
def rOk : Nat := 0x00
/-- BAD_OPCODE. -/
def rOpcode : Nat := 0x01
/-- NO_SUCH_AXIS. -/
def rNoAxis : Nat := 0x02
/-- BAD_STATE. -/
def rState : Nat := 0x03
/-- BAD_PARAM. -/
def rParam : Nat := 0x04
/-- QUEUE_FULL. -/
def rFull : Nat := 0x05
/-- SOFT_LIMIT. -/
def rSoft : Nat := 0x06
/-- POS_UNKNOWN. -/
def rPos : Nat := 0x07
/-- LIMIT_ACTIVE. -/
def rLimit : Nat := 0x08
/-- GROUP_CONFLICT. -/
def rGroup : Nat := 0x09
/-- CAM_INVALID. -/
def rCam : Nat := 0x0A
/-- NOTHING_TO_ABORT. -/
def rNothing : Nat := 0x0B

/-- The environment of a tick at the present course. -/
def State.env (s : State) : Env :=
  ⟨s.get R.BOND_CRS_PERIOD_PERIOD_NS, s.now, s.crs.cnt, s.dev == .safeHold, Config.freeNat s.free⟩

/-- The schedules present in the image. -/
def State.schedNums (s : State) : List Nat :=
  (List.range 4).filter (fun i => (s.crs.scheds.getD i none).isSome)

/-- The axis exists: a stepper axis, or a network axis the image assigns (R37). -/
def State.axisExists (s : State) (a : Nat) : Bool := decide (a < 240) && (decide (192 ≤ a) || (s.ax a).assigned)

/-- A pending live update of the axis is dropped with BAD_STATE (R108). -/
def State.dropUpd (s : State) (a : Nat) : State :=
  match s.upd with
  | none => s
  | some u =>
    if u.axis = a then
      ((({ s with upd := none }.set R.LE_UPD_STAT_RESULT rState).set R.LE_UPD_STAT_COURSE s.crs.cnt).setFlag R.LE_UPD_CTRL_GO false)
    else s

/-- Another enabled axis publishes in the same slot (R44). -/
def State.pubClash (s : State) (a : Nat) (p : AxPar) : Bool :=
  bit p.pubCfg 0 && s.axes.any (fun (b, x) => b != a && x.enabled && bit x.par.pubCfg 0 && bits x.par.pubCfg 1 5 == bits p.pubCfg 1 5)

/-- The parameters of an axis pass every check that ENABLE and RELOAD share (R44, R105, R155, R161). -/
def State.paramsOk (s : State) (a : Nat) : Bool :=
  let p := s.axPar a
  p.ok &&
  (if 192 ≤ a then (s.chanRegs (a - 192)).ok p.velLimit else s.custom a || s.lpOk s.schedNums a)

/-- A filter whose place or whose coefficients differ between the parameter record at `new` and that at `old` of the state `was` starts anew (R94). The sets of all four schedules count, an absent or inactive one's too: the spec does not say which do (DESIGN CHOICE, log entry 37). -/
def State.refilter (s : State) (a new : Nat) (was : State) (old : Nat) : State :=
  let l := s.loop a
  let same (f : Nat) : Bool :=
    bqPlace (s.lpW new 0) f == bqPlace (was.lpW old 0) f && (List.range 4).all (fun sch => s.bqSet new sch f == was.bqSet old sch f)
  s.setLoop a { l with bq := (List.range 4).map (fun f => if same f then l.bq.getD f ⟨0, 0, 0, 0, false⟩ else { l.bq.getD f ⟨0, 0, 0, 0, false⟩ with ready := false }) }

/-- The shadow parameters of an applied live update replace the active ones of its slot in one step, and changed filters start anew (R94, R108). -/
def State.swapIn (s : State) (n : Nat) : State :=
  let e := s.eng n
  match e.swap with
  | none => s
  | some (sl, _) =>
    ((s.refilter (at_ e.axes sl) (lpShadow n) s (lpCopy n sl)).poke
      (s.lpMove (lpCopy n sl) (compCopy n (s.ctIndex e.axes sl)) (lpShadow n) (compShadow n))).setEng n { e with swap := none }

/-- A loop of a course up to `c` is still queued for slot `sl`: it runs on the parameters of its course (R104). -/
def State.lateLoop (s : State) (n sl c : Nat) : Bool := (s.eng n).queue.any (fun v => v.slot == sl && decide (v.crs ≤ c))

/-- A copy that a late loop has kept out takes effect (R94, R104, R105). -/
def State.takeKept (s : State) (n sl : Nat) : State :=
  let e := s.eng n
  match Store.get (0, []) e.kept sl with
  | (_, []) => s
  | (_, w) => ((s.poke w).refilter (at_ e.axes sl) (lpCopy n sl) s (lpCopy n sl)).setEng n { e with kept := Store.put (0, []) e.kept sl (0, []) }

/-- The copies of R42 and R105: the parameter record into the profile engines, the loop parameters and compensation slot into the owning engine, there after a late loop of a course before (R104). -/
def State.copyParams (s : State) (a : Nat) : State :=
  let s1 := s.setAx a { s.ax a with par := s.axPar a, copied := true }
  if 192 ≤ a then s1
  else
    match s1.axSlot a with
    | none => s1
    | some (n, sl) =>
      let e := s1.eng n
      let w := s1.lpCopyCells n sl a e.axes
      let s2 := s1.setEng n { e with swap := e.swap.filter (fun p => p.1 != sl), kept := Store.put (0, []) e.kept sl (s.crs.cnt + 1, w) }
      if !s.custom a && s.lateLoop n sl s.crs.cnt then s2 else s2.takeKept n sl

/-- The axis takes its actual position as set-point (R47, R87), with the loop state to be initialised. -/
def Ax.fromActual (x : Ax) : Ax :=
  { x.rest with pos := (x.actPos : Rat), cmdPos := x.actPos, prevPos := x.actPos, initCtl := true }

/-- ENABLE (R42 to R46, R80, R87, R168). -/
def State.pfEnable (s : State) (a : Nat) : Nat × State :=
  let x := s.ax a
  let uncal := decide (192 ≤ a) && ((s.chan (a - 192)).cal.isSome || s.flag (R.STP_STAT_UNCAL (a - 192)))
  if x.st ≠ .disabled ∨ x.fault ≠ 0 ∨ x.sto = true ∨ uncal = true then (rState, s)
  else if !s.paramsOk a || s.pubClash a (s.axPar a) then (rParam, s)
  else
    let s1 := (s.dropUpd a).copyParams a
    let s2 := if 192 ≤ a then s1.chanEnable (a - 192)
      else { s1 with loops := Store.put Loop.init s1.loops a { Loop.init with enabled := true, since := s.crs.cnt + 1, tPrev := (s1.loop a).tPrev } }.poke (cells (axBlock a + 0xF00) 0 256)
    let y := s2.ax a
    let act := if 192 ≤ a then (s2.chan (a - 192)).position + y.ofs else y.actPos
    let s3 := s2.setAx a { ({ y with actPos := act }.fromActual) with st := .standstill, copied := true }
    (rOk, if 192 ≤ a then s3.restart (a - 192) else s3)

/-- A transition into DISABLED clears the state record but for GROUP, HOMED, POS_UNCERTAIN and FAULT (R48). With LP_ACT, LN_ACT and HM_ACT the debouncers begin anew, so that a held input counts as inactive until it is debounced again, where R79 alone would change a debounced value by samples only (DESIGN CHOICE, log entry 36). -/
def Ax.toDisabled (x : Ax) : Ax :=
  { Ax.init with assigned := x.assigned, fault := x.fault, posUnc := x.posUnc, homed := x.homed, grp := x.grp, par := x.par, copied := x.copied, slots := x.slots, head := x.head, count := x.count, ofs := x.ofs, inp := x.inp, cond := x.cond, chatLp := x.chatLp, chatLn := x.chatLn, doneEvt := x.doneEvt, faultEvt := x.faultEvt, evts := x.evts, ss1 := x.ss1, sto := x.sto, pos := x.pos, actPos := x.actPos }

/-- DISABLE (R46, R48). -/
def State.pfDisable (s : State) (a : Nat) : Nat × State :=
  let x := s.ax a
  if x.st ≠ .standstill ∧ x.st ≠ .fault then (rState, s)
  else
    let s1 := (s.dropUpd a).setAx a (x.flush 4 8).toDisabled
    let s2 := if 192 ≤ a then s1.restart (a - 192) else s1.setLoop a { s1.loop a with enabled := false, since := s.crs.cnt + 1 }
    (rOk, s2)

/-- The causes whose condition is present (R7, R47, R80, R103, R167, R285). -/
def State.condMask (s : State) (x : Ax) : Nat :=
  (if s.dev = .safeHold then cSafeHold else 0) ||| (if x.ss1 ∨ x.sto then cSafety else 0) ||| x.cond |||
  (if (x.chatLp.act && decide (s.now < x.chatLp.last + x.chatWin)) || (x.chatLn.act && decide (s.now < x.chatLn.last + x.chatWin)) then cChatter else 0) |||
  (if x.inp.drvFault then cDrive else 0) |||
  -- feedback that is missing since the cause was latched (R103)
  (if bit x.fault 14 && decide (x.inp.crs + 1 < s.crs.cnt) then cFbLost ||| cDrive else 0)

/-- CLEAR_FAULT (R46, R47, R80, R99, R100, R167). -/
def State.pfClear (s : State) (a : Nat) : Nat × State :=
  let x := s.ax a
  if x.st ≠ .disabled ∧ x.st ≠ .fault then (rState, s)
  else
    let cond := s.condMask x
    let left := x.fault &&& cond
    -- an input that has chattered and is not steady refuses the command, latched cause or not (R80)
    let refuse := decide (left ≠ 0) || bit cond 3
    let steady (c : Chat) : Chat := if s.now < c.last + x.chatWin then c else { c with act := false, changes := [] }
    -- a drive held disabled stays so until CLEAR_FAULT is accepted (R47), a chattering input active (R80)
    let y := if !refuse then { x with fault := 0, chatLp := steady x.chatLp, chatLn := steady x.chatLn }
      else { x with fault := left, stoSince := x.stoSince || (x.st == .fault && bit x.fault 13) }
    let reset := bit x.fault 13 && !bit left 13 && decide (a < 192)
    let s0 := if reset then { s with crs := { s.crs with resets := s.crs.resets ++ [a] } } else s
    if refuse then (rState, s0.setAx a y)
    else if x.st = .disabled then (rOk, if 192 ≤ a then (s0.setAx a y).chanClear (a - 192) false else s0.setAx a y)
    else
      let off := x.driveOff || (decide (192 ≤ a) && (s.chan (a - 192)).flt.isSome)
      let z := if off then y.fromActual else y
      let s1 := s0.setAx a { z with st := .standstill, stoSince := false }
      if 192 ≤ a then (rOk, s1.chanClear (a - 192) off)
      else (rOk, s1.setLoop a { s1.loop a with faulted := false, driveOff := false })

/-- Motion in the positive or negative direction is barred by an active limit (R81). -/
def Ax.barred (x : Ax) (dir : Rat) : Bool := (decide (0 < dir) && x.lpAct) || (decide (dir < 0) && x.lnAct)

/-- The sync entries of kind 0 in the queue of an axis, by their masters (R70). -/
def Ax.masters (x : Ax) : List Nat :=
  (List.range x.count).filterMap (fun i => let e := x.slot (x.head + i); if e.isSync && e.blend == 0 then some e.msrc else none)

/-- The length of the longest chain of masters above axis `a`, over the active and queued entries of each; `n + 1` where it is longer than `n` or reaches `self` (R70). -/
def State.chainUp (s : State) (self : Nat) : Nat → Nat → Nat
  | 0, a => if a = self ∨ (s.ax a).masters ≠ [] then 1 else 0
  | n + 1, a => if a = self then n + 2 else (s.ax a).masters.foldl (fun d m => max d (1 + State.chainUp s self n m)) 0

/-- The length of the longest chain of slaves below axis `a`; `n + 1` where it is longer than `n` (R70). -/
def State.chainDown (s : State) : Nat → Nat → Nat
  | 0, a => if s.axes.any (fun (_, x) => x.masters.contains a) then 1 else 0
  | n + 1, a => s.axes.foldl (fun d (b, x) => if x.masters.contains a then max d (1 + State.chainDown s n b) else d) 0

/-- A new entry of axis `self` leaves every chain of masters of kind 0 free of cycles and no deeper than 4 (R70). -/
def State.chainOk (s : State) (self : Nat) (e : Entry) : Bool :=
  e.blend != 0 || (decide (e.msrc < 240) && decide (1 + s.chainUp self 4 e.msrc + s.chainDown 4 self ≤ 4))

/-- An entry's fields are in range for the axis (R51, R52, R58, R70), `start` being where it will start if known. Of a DWELL the model checks BLEND alone: the motion form gives V_MAX, A_MAX, D_MAX and J_MAX their ranges for TYPE 1 to 4, while no DWELL uses them (DESIGN CHOICE, log entry 36). -/
def State.entryOk (s : State) (a : Nat) (x : Ax) (e : Entry) (queued : Bool) (start : Rat) : Bool :=
  let p := x.par
  let motion := fUpTo e.aMax p.accLimit && fUpTo e.dMax p.accLimit && fUpTo e.jMax p.jerkLimit && decide (e.blend ≤ 2)
  let prev := x.slot (x.head + x.count - 1)
  match e.type with
  | 1 => motion && fUpTo e.vMax p.velLimit && (e.blend != 2 || decide ((e.tol : Rat) ≤ absR ((e.target : Rat) - start)))
  | 2 => motion && fUpTo e.vMax p.velLimit && (e.blend != 2 || decide (e.tol ≤ e.target.natAbs)) &&
      (!queued || x.count == 0 || prev.type == 1 || prev.type == 2 || prev.type == 4)
  | 3 => motion && f32Fin e.vMax && decide (absR (f32Rat e.vMax) ≤ f32Rat p.velLimit)
  | 4 => decide (e.blend ≤ 2)
  | 5 => decide (e.blend ≤ 3) && e.num != 0 && e.den != 0 && fUpTo e.aMax p.accLimit && fUpTo e.jMax p.jerkLimit && s.chainOk a e &&
      (e.blend != 1 || decide (e.msrc < 240))
  | 6 => decide (e.blend ≤ 3) && fUpTo e.aMax p.accLimit && fUpTo e.jMax p.jerkLimit && s.chainOk a e && (e.blend != 1 || decide (e.msrc < 240))
  | _ => false

/-- A REPLACE that is a reversal: the target of an ABS or REL entry lies against the direction of travel, or nearer than the axis can stop under the entry's D_MAX and J_MAX (R61). -/
def Ax.reverses (x : Ax) (e : Entry) (tgt : Rat) : Bool :=
  (e.type == 1 || e.type == 2) && decide (x.vel ≠ 0) && (let d := sgnR x.vel
    decide (d * (tgt - x.pos) ≤ 0 ∨ d * (tgt - x.pos) < d * (stopAt x.mot (f32Rat e.dMax) (f32Rat e.jMax) - x.pos)))

/-- A target that the soft limits forbid from `start` on: outside them, or, from outside, one that lies further out or beyond the other limit (R64, R65). A target still outside, but nearer to the limits than an axis that is outside already, is accepted: R65's first case names no exception, while R64 lets such an axis move toward them (DESIGN CHOICE, log entry 36). -/
def Ax.softFar (x : Ax) (start tgt : Rat) : Bool :=
  if x.softHi < start then decide (start < tgt ∨ tgt < x.softLo)
  else if start < x.softLo then decide (tgt < start ∨ x.softHi < tgt)
  else decide (tgt < x.softLo ∨ x.softHi < tgt)

/-- The direction in which a sync entry pulls an axis that stands at `start`: toward the track at the master's present value (R71, R81). -/
def State.syncDir (s : State) (e : Entry) (start : Rat) : Rat :=
  match s.masterOf s.ptStart s.env e with
  | some m => sgnR ((s.trackOf e m : Rat) - start)
  | none => 0

/-- The checks of QUEUE and REPLACE on an axis, in the order of R448; `repl` for REPLACE. The turning point of an entry with a tolerance blend (R58) exists once the entry behind it moves the other way, so it is checked with that one (DEDUCED, log entry 31). -/
def State.entryCheck (s : State) (a : Nat) (x : Ax) (e : Entry) (repl : Bool) : Nat :=
  let start : Rat := if repl ∨ 8 ≤ x.count then (x.cmdPos : Rat) else (x.push e.words).look.lastStart s.env.dt
  let tgt := e.stopAt start
  let out (p : Rat) : Bool := decide (p < x.softLo ∨ x.softHi < p)
  let turnPt := stopAt x.mot (f32Rat e.dMax) (f32Rat e.jMax)
  let rev := repl && x.reverses e tgt
  let prev := x.slot (x.head + x.count - 1)
  let prevStart : Rat := if prev.status = 2 then (prev.startPos : Rat) else x.lastStart s.env.dt
  let turned := !repl && decide (0 < x.count) && prev.turns (prev.stopAt prevStart) (prev.dir prevStart) (some e)
  let softBad : Bool := x.soft &&
    (match e.type with
     | 1 => x.softFar start tgt || (rev && out turnPt) || (turned && out start)
     | 2 => x.softFar start tgt || (rev && out turnPt) || (turned && out start)
     | 3 => (decide (x.softHi < x.pos) && decide (0 < f32Rat e.vMax)) || (decide (x.pos < x.softLo) && decide (f32Rat e.vMax < 0))
     | _ => false)
  let dir := if e.isSync then s.syncDir e start else if rev then sgnR (tgt - turnPt) else e.dir start
  if !repl ∧ 8 ≤ x.count then rFull
  else if !s.entryOk a x e (!repl) start then rParam
  else if e.type = 6 ∧ (s.camOk e.table = false ∨ (repl = false ∧ 0 < x.count ∧ prev.type = 6 ∧ s.camZero e.table ≠ s.camEnd prev.table)) then rCam
  else if (e.type = 1 ∨ e.isSync = true) ∧ x.homed = false then rPos
  else if softBad then rSoft
  else if x.barred dir then rLimit
  else rOk

/-- The axis takes entries: STANDSTILL, MOVING or SYNC (R447). -/
def Ax.takesEntries (x : Ax) : Bool := x.st == .standstill || x.st == .moving || x.st == .sync

/-- The active entry's joint has been lowered by the look-ahead below the speed it is planned for (R59). -/
def Ax.lowered (x : Ax) : Bool :=
  let e := x.first
  match e.joint with
  | none => true
  | some v => decide (jointVel e (e.stopAt (e.startPos : Rat)) (sgnR (x.goal - (x.turnAt.getD (e.startPos : Rat)))) x.behind < v)

/-- After a new entry, an active ABS or REL entry whose joint has come to exist or is lowered is planned anew toward it (R57 to R59). -/
def Ax.replan (x : Ax) (dt : Rat) : Ax :=
  if x.st = .moving ∧ x.active = true ∧ (x.first.type = 1 ∨ x.first.type = 2) ∧ x.first.blend ≠ 0 ∧ (x.count = 2 ∨ x.lowered = true) then x.planMove dt else x

/-- QUEUE on an axis (R51). -/
def State.pfQueueAx (s : State) (a : Nat) (w : List Nat) : Nat × State :=
  let x := s.ax a
  let e : Entry := ⟨w, 0, 0, 0, none⟩
  if !x.takesEntries then (rState, s)
  else
    let r := s.entryCheck a x e false
    if r ≠ rOk then (r, s)
    else
      (rOk, s.setAx a ((x.push w).look.replan s.env.dt))

/-- REPLACE on an axis (R60 to R63): the active entry ends TRUNCATED, the others CANCELLED, and the entry is active at once; a reversal is reported with its turning point. -/
def State.pfReplaceAx (s : State) (a : Nat) (w : List Nat) : Nat × State :=
  let x := s.ax a
  let e : Entry := ⟨w, 0, 0, 0, none⟩
  if !x.takesEntries then (rState, s)
  else
    let r := s.entryCheck a x e true
    if r ≠ rOk then (r, s)
    else
      let tgt := e.stopAt (x.cmdPos : Rat)
      let turnPt := stopAt x.mot (f32Rat e.dMax) (f32Rat e.jMax)
      let rev := x.reverses e tgt
      let y := { (x.flush 5 8) with ended := false, dwell := none, reversal := rev, overshoot := if rev then rne (maxR 0 (sgnR x.vel * (turnPt - (x.cmdPos : Rat)))) else x.overshoot, turnAt := if rev then some turnPt else none }
      (rOk, s.setAx a ((y.push w).activate s.env s.camOk false))

/-- The members of a group. -/
def Grp.axes (g : Grp) : List Nat := g.places.map (·.2)

/-- No entry of the group runs or waits. -/
def Grp.idle (g : Grp) : Bool := !g.active && g.count == 0

/-- The positions of a group's members. -/
def State.grpPos (s : State) (g : Grp) : List Int :=
  (List.range 8).map (fun i => match g.members.getD i none with
    | some a => (s.ax a).cmdPos
    | none => 0)

/-- Where a group entry will start: at the members' positions on an idle group; for REPLACE where the running lines come to rest; else at the end of the entries before it. -/
def State.grpStart (s : State) (g : Grp) (repl : Bool) : List Int :=
  if g.idle then s.grpPos g
  else if repl then
    let h := g.stop
    (List.range 8).map ({ h with lines := h.lines.map (fun q => { q with plan := { q.plan with el := q.plan.el + segsTime q.plan.segs } }) } : Grp).posOf
  else g.queueEnd

/-- The checks on a group entry, in the order of R448. -/
def State.grpEntryCheck (s : State) (g : Grp) (e : Entry) (repl : Bool) : Nat :=
  let lim (i : Nat) : Bool := fPos (e.gw i)
  let start := s.grpStart g repl
  let d := g.deltas e start
  if !repl ∧ 8 ≤ g.count then rFull
  else if !(e.type == 1 || e.type == 2 || e.type == 4) || !decide (e.blend ≤ 2) ||
    (e.type != 4 && !(lim 2 && lim 3 && lim 4 && lim 5 && fNonneg (e.gw 6))) then rParam
  else if g.places.any (fun (_, a) => !(s.ax a).homed) then rPos
  else if e.type = 4 then rOk
  else if g.places.any (fun (i, a) => (s.ax a).soft && (s.ax a).softFar (start.getD i 0 : Int) ((start.getD i 0 + d.getD i 0 : Int) : Rat)) then rSoft
  else if g.places.any (fun (i, a) => (s.ax a).barred (sgnR (d.getD i 0 : Rat))) then rLimit
  else rOk

/-- The group is idle: every member is in STANDSTILL (R447). -/
def State.grpIdle (s : State) (g : Grp) : Bool := g.idle && g.axes.all (fun a => (s.ax a).st == .standstill)

/-- The group runs: every member is in GROUP for it (R447). -/
def State.grpRuns (s : State) (g : Grp) : Bool := !g.idle && !g.axes.isEmpty && g.axes.all (fun a => (s.ax a).st == .group)

/-- The state of a group for QUEUE and REPLACE: idle with every member in STANDSTILL, or running with every member in GROUP (R447). A group without members takes none (DESIGN CHOICE, log entry 36). -/
def State.grpTakes (s : State) (g : Grp) : Bool :=
  !g.axes.isEmpty && (s.grpIdle g || s.grpRuns g)

/-- Every member of a group enters GROUP. -/
def State.grpEnter (s : State) (g : Grp) : State :=
  g.axes.foldl (fun t a => let x := t.ax a; t.setAx a { x with st := .group, plan := none, ended := false }) s

/-- QUEUE or REPLACE on a group (R69, R447). A REPLACE while the group runs stops it along its lines under the old entry's limits, then runs the new entry. -/
def State.pfQueueGrp (s : State) (k : Nat) (w : List Nat) (repl : Bool) : Nat × State :=
  let g := s.grp k
  let e : Entry := ⟨w, 0, 0, 0, none⟩
  if !s.grpTakes g then (rState, s)
  else
    let r := s.grpEntryCheck g e repl
    if r ≠ rOk then (r, s)
    else if g.idle then (rOk, (s.grpEnter g).setGrp k ({ g with base := s.grpPos g, pathVel := 0, ended := false, last := none }.push w))
    else if repl then (rOk, s.setGrp k ({ g.stop with waiting := true, ended := false }.push w))
    else (rOk, s.setGrp k (s.grpLook s.env (g.push w)))

/-- A group's STOP: its members pass to STOPPING and end in STANDSTILL when the path is at rest (R46, R69). A STOP that meets a group whose entry has ended at rest in this tick finds nothing to cut short: the entries behind it do not start (R76). An entry that a port has queued earlier in the tick, and that is not yet active, is cancelled with the answer NOTHING_TO_ABORT and its members stand still; the spec does not name this case (DESIGN CHOICE, log entry 31). -/
def State.grpStopAll (s : State) (k : Nat) : Nat × State :=
  let g := s.grp k
  let h := g.stop
  (if h.stopping ∨ g.dwell.isSome = true then rOk else rNothing,
   g.axes.foldl (fun u a => let x := u.ax a; u.setAx a { (if x.count = 0 then x else x.cancel) with st := if h.stopping then AxSt.stopping else AxSt.standstill, plan := none }) (s.setGrp k h))

/-- STOP on an axis (R74 to R76, R447). -/
def State.pfStopAx (s : State) (a : Nat) : Nat × State :=
  let x := s.ax a
  if x.ended then
    -- the operation ended in this tick: the ending wins (R76)
    let y := x.flush 4 8
    if x.vel = 0 then (rNothing, s.setAx a { y with st := if x.st = .disabled then AxSt.disabled else AxSt.standstill, dwell := none })
    else (rOk, s.setAx a y.cancel.startStop)
  else
    match x.st with
    | .moving => (rOk, s.setAx a x.cancel.startStop)
    | .sync => (rOk, s.setAx a x.cancel.startStop)
    | .homing => (rOk, s.setAx a { x.cancel.startStop with homing := none, doneEvt := true })
    | .group =>
      match x.grp with
      | some k => s.grpStopAll k
      | none => (rState, s)
    | .standstill => (rNothing, s)
    | .stopping => (rNothing, s)
    | _ => (rState, s)

/-- STOP on a group: it runs, or is idle with nothing to cut short; in any other state the command is refused (R447). -/
def State.pfStopGrp (s : State) (k : Nat) : Nat × State :=
  let g := s.grp k
  if s.grpIdle g then (rNothing, s)
  else if s.grpRuns g then s.grpStopAll k
  else (rState, s)

/-- A group of which a member has a fault ends: its entries leave and every other member takes its own reaction (R46, R69). -/
def State.grpFault (s : State) (k : Nat) : State :=
  let g := s.grp k
  let t := s.setGrp k { (g.flush 5 8) with lines := [], stopping := false, waiting := false, dwell := none, pathVel := 0, last := none }
  g.axes.foldl (fun u a =>
    let x := u.ax a
    if x.st = .group ∨ (x.st = .stopping ∧ x.plan.isNone = true) then
      (let w := u.setAx a x.react; if x.pulse && decide (192 ≤ a) then w.chanFreeze (a - 192) else w)
    else u) t

/-- A pulse-class axis whose reaction has just begun takes its frozen generator position (R166); a group member takes its group with it. -/
def State.afterFault (s : State) (a : Nat) (old : Ax) : State :=
  let x := s.ax a
  let began := x.faultEvt && !old.faultEvt
  let s1 := if began && x.pulse && decide (192 ≤ a) then s.chanFreeze (a - 192) else s
  if began && (old.st == .group || (old.st == .stopping && old.plan.isNone)) then
    (match x.grp with
     | some k => s1.grpFault k
     | none => s1)
  else s1

/-- ESTOP on one axis (R74 to R76): the reaction of the stop class with cause ESTOP. -/
def State.estopAx (s : State) (a : Nat) : Nat × State :=
  let x0 := s.ax a
  let x := if x0.ended then x0.flush 4 8 else x0
  -- a group whose entry has ended at rest in this tick has nothing left to cut short (R76)
  let paused := match x.grp with
    | some k => x.st == .group && (s.grp k).ended && (s.grp k).lines.isEmpty && (s.grp k).last.isNone
    | none => false
  let quiet := x.st = .standstill ∨ x.st = .faultStop ∨ x.st = .fault ∨ (x.ended = true ∧ x.vel = 0) ∨ paused = true
  if x.st = .disabled then (rState, s)
  else
    let t := s.setAx a (x.faultWith cEstop)
    (if quiet then rNothing else rOk, t.afterFault a x0)

/-- ESTOP on a group: an axis ESTOP on each enabled member (R447). The command answers OK where a member is enabled, also when each of them is at rest or in FAULT already (DESIGN CHOICE, log entry 36). -/
def State.pfEstopGrp (s : State) (k : Nat) : Nat × State :=
  let ms := (s.grp k).axes.filter (fun a => (s.ax a).enabled)
  if ms.isEmpty then (rState, s) else (rOk, ms.foldl (fun t a => (t.estopAx a).2) s)

/-- The axis supports the method of HOME_METHOD in course `crs` (R77). -/
def Ax.homeOk (x : Ax) (a crs : Nat) : Bool :=
  let d := x.par.homeDir == 1
  match x.par.homeMethod with
  | 0 => bit x.par.limPol 5 && (if d then bit x.par.limPol 3 else bit x.par.limPol 4)
  | 1 => bit x.par.limPol 5
  | 2 => decide (a < 192)
  | 3 => true
  | 4 => decide (a < 192) && x.inp.crs == crs && x.inp.absCap
  | _ => false

/-- HOME (R77, R78). -/
def State.pfHome (s : State) (a : Nat) : Nat × State :=
  let x := s.ax a
  if x.st ≠ .standstill then (rState, s)
  else if !x.homeOk a s.crs.cnt then (rParam, s)
  else
    let h : Homing := ⟨.search, x.cmdPos, none, none, 0, x.lpAct, x.lnAct⟩
    let y := { x with st := .homing, homing := some h, ended := false }
    let onLim := if x.par.homeDir = 1 then x.lpAct else x.lnAct
    if onLim = true ∧ x.par.homeMethod ≠ 0 then
      let t := s.setAx a ((y.homeFail (if x.par.homeDir = 1 then 1 else 2)).faultWith cHome)
      (rOk, t.afterFault a x)
    else if x.par.homeMethod = 4 then
      (rOk, s.setAx a (if x.inp.absValid then y.homeDone (x.inp.absPos + sx 64 x.par.homeOfs - x.actPos)
        else (y.homeFail 5).faultWith cHome))
    else
      let v := x.homeDir * f32Rat (if x.par.homeMethod ≤ 1 then x.par.homeVfast else x.par.homeVslow)
      let t := s.setAx a (y.homeMove v)
      (rOk, if 192 ≤ a then t.chanHome (a - 192) else t)

/-- RELOAD (R42, R44, R105). -/
def State.pfReload (s : State) (a : Nat) : Nat × State :=
  let x := s.ax a
  if x.st ≠ .standstill ∧ x.st ≠ .disabled then (rState, s)
  else if !s.paramsOk a then (rParam, s)
  else
    let s1 := (s.dropUpd a).copyParams a
    (rOk, if 192 ≤ a then s1.chanReload (a - 192) else s1)

/-- SET_GROUP (R68): the configuration in the group block is checked and adopted; members it omits leave. A member that does not exist or is unassigned is BAD_PARAM (DESIGN CHOICE, log entry 36). -/
def State.pfSetGroup (s : State) (k : Nat) : Nat × State :=
  let g := s.grp k
  let mem : List (Option Nat) := (List.range 8).map (fun i =>
    let m := s.load (grpBlock k + i) 1
    if m = 0xFF then none else some m)
  let scales := (List.range 8).map (fun i => s.load (grpBlock k + 8 + 4 * i) 4)
  let names := mem.filterMap id
  if !s.grpIdle g then (rState, s)
  else if names.any (fun a => !s.axisExists a) || names.eraseDups.length != names.length ||
    (List.range 8).any (fun i => (mem.getD i none).isSome && !fPos (at_ scales i)) then (rParam, s)
  else if names.any (fun a => (s.ax a).st != .standstill || ((s.ax a).grp != none && (s.ax a).grp != some k)) then (rGroup, s)
  else
    let t := g.axes.foldl (fun u a => u.setAx a { u.ax a with grp := none }) s
    let t := names.foldl (fun u a => u.setAx a { u.ax a with grp := some k }) t
    (rOk, t.setGrp k { g with members := mem, scales := scales })

/-- Apply one command (R448): its result and the state. An opcode that its target's kind lacks answers NO_SUCH_AXIS, SET_GROUP with IS_GROUP 0 as well as an axis's opcode with IS_GROUP 1: the spec names no result for either (DESIGN CHOICE, log entry 31). -/
def State.pfApply (s : State) (c : PfCmd) : Nat × State :=
  if c.op = 0 ∨ 0x0A < c.op then (rOpcode, s)
  else
    let grpOp : Bool := c.op == 3 || c.op == 4 || c.op == 5 || c.op == 6 || c.op == 0x0A
    let okTarget : Bool := if c.isGroup then grpOp && decide (c.target < 32) else c.op != 0x0A && s.axisExists c.target
    if !okTarget then (rNoAxis, s)
    else
      match c.op, c.isGroup with
      | 1, _ => s.pfEnable c.target
      | 2, _ => s.pfDisable c.target
      | 3, false => s.pfQueueAx c.target c.staging
      | 3, true => s.pfQueueGrp c.target c.staging false
      | 4, false => s.pfReplaceAx c.target c.staging
      | 4, true => s.pfQueueGrp c.target c.staging true
      | 5, false => s.pfStopAx c.target
      | 5, true => s.pfStopGrp c.target
      | 6, false => s.estopAx c.target
      | 6, true => s.pfEstopGrp c.target
      | 7, _ => s.pfClear c.target
      | 8, _ => s.pfHome c.target
      | 9, _ => s.pfReload c.target
      | _, _ => s.pfSetGroup c.target

/-- Entries that are due become active (R52): the axes, then the groups. The spec names no step of R50 in which the entry of a QUEUE on an idle axis becomes active: here that is after the last port, so a STOP on a later port of the tick finds the axis at rest, answers NOTHING_TO_ABORT, and the entry starts (DESIGN CHOICE, log entry 31). -/
def State.settleAll (s : State) : State :=
  let v := s.env
  let t := s.axNums.foldl (fun u a => u.setAx a ((u.ax a).settle v u.camOk 9)) s
  t.grpNums.foldl (fun u k => u.setGrp k (u.grpSettle v 9 (u.grp k))) t

/-- The events of the tick reach PF_DONE, PF_FAULT and PF_GRP_DONE, and the records are published (R41, R82). -/
def State.publishAll (s : State) : State :=
  let t := s.axNums.foldl (fun u a =>
    let x := s.ax a
    let u1 := if x.doneEvt then u.orFld (R.PF_DONE_DONE (a / 32)) (2 ^ (a % 32)) else u
    let u2 := if x.faultEvt then u1.orFld (R.PF_FAULT_FAULT (a / 32)) (2 ^ (a % 32)) else u1
    (u2.setAx a { x with doneEvt := false, faultEvt := false, ended := false }).poke (x.publish a)) s
  t.grpNums.foldl (fun u k =>
    let g := t.grp k
    let u1 := if g.doneEvt then u.orFld R.PF_GRP_DONE_GRP_DONE (2 ^ k) else u
    (u1.setGrp k { g with doneEvt := false, ended := false }).poke (g.publish k)) t

/-- A command on port `n` is answered: RESULT with the course, and GO clears (R49). -/
def State.pfAnswer (s : State) (n : Nat) (r : Nat) : State :=
  let t := ((s.set (R.PF_CMD_STAT_RESULT n) r).set (R.PF_CMD_STAT_COURSE n) s.crs.cnt).setFlag (R.PF_CMD_OP_GO n) false
  { t with pfAns := setBit t.pfAns n true }

/-- The events of R251 that the change of an axis makes: it enters FAULT_STOP or STANDSTILL, a homing run ends, REVERSAL is set; an entry with DONE_EVT has noted its own as it left. -/
def axEvents (x y : Ax) : List Nat :=
  (if y.st == .faultStop && x.st != .faultStop then [0] else []) ++ (if y.st == .standstill && x.st != .standstill then [1] else []) ++
  (if x.homing.isSome && y.homing.isNone then [3] else []) ++ (if y.reversal && !x.reversal then [4] else [])

/-- Every axis notes the events that its change since `old` makes (R251). -/
def State.noteEvents (s old : State) : State :=
  s.axNums.foldl (fun u a => let x := u.ax a; u.setAx a { x with evts := x.evts ++ axEvents (old.ax a) x }) s

/-- One command taken on port `n`, with what it makes active, outside a tick's other work. -/
def State.pfRun (s : State) (n : Nat) (c : PfCmd) : State :=
  let r := s.pfApply c
  ((r.2.settleAll.noteEvents s).publishAll).pfAnswer n r.1

end Sys2Proof.Machine
end

