-- ==== Sys2Proof/Machine/Tick.lean ====
section
/-! DEFINITION. The profile tick (R50): one course of the profile engines over every axis, the sampled commands, and the set-points of the next course (R30, R73, R118). -/
namespace Sys2Proof.Machine

/-- A free value of this tick for axis `a`. -/
def Env.for_ (v : Env) (free a : Nat) : Env := { v with draw := Config.freeNat (free + a) }

/-- The depth of a slave in its chain of masters: 0 for an axis that follows none (R70). -/
def State.depth (s : State) : Nat → Nat → Nat
  | 0, _ => 0
  | n + 1, a =>
    let x := s.ax a
    if x.st = .sync ∧ x.active = true then
      (if x.first.blend = 0 then 1 + State.depth s n x.first.msrc else 1)
    else 0

/-- Step 2 for one axis: advance, and form the set-point; a homing run that ends shifts the set-point before it too (R77). -/
def State.stepAx (s : State) (pt : Nat → Option Int) (v : Env) (a : Nat) : State :=
  let x : Ax := s.ax a
  let w := v.for_ s.free a
  let grouped : Bool := match x.grp with
    | some k => (s.grp k).active && (x.st == AxSt.group || x.st == AxSt.stopping)
    | none => false
  if grouped then s.setAx a x.dwellTick
  else
  let y : Ax := s.advance pt w a (s.homeStall a) x
  (s.setAx a (if y.st = .group ∨ y.st = .disabled then y else (y.setPoint (x.cmdPos + (y.ofs - x.ofs)) w.draw).endEntry)).stallDwell a

/-- Step 2 for one group: its members take their places on the lines, and are at rest when the last entry has ended (R46, R69). -/
def State.stepGrp (s : State) (v : Env) (k : Nat) : State :=
  let g0 := s.grp k
  if !g0.active then s
  else
    let g := s.grpAdvance v g0
    let past := !g.active && g.count == 0
    g.places.foldl (fun t (i, a) =>
      let x := t.ax a
      if x.st ≠ .group ∧ x.st ≠ .stopping then t
      else
        let p := g.posOf i
        let m := match g.last with
          | some q => memberMot 0 (q.deltas.getD i 0) q.len ⟨0, g.pathVel, 0⟩
          | none => let w := g.motOf i; ⟨0, w.1, w.2⟩
        t.setAx a { x with pos := (p : Rat), prevPos := x.cmdPos, cmdPos := p, vel := if past then 0 else m.v, acc := if past then 0 else m.a, st := if past then AxSt.standstill else x.st })
      (s.setGrp k g)

/-- Step 2 for every axis and group: masters before their slaves (R50, R70). -/
def State.advanceAll (s : State) (pt : Nat → Option Int) (v : Env) : State :=
  let keys := s.axNums
  let t := keys.foldl (fun u a => if s.depth 6 a = 0 then u.stepAx pt v a else u) s
  let t := s.grpNums.foldl (fun u k => u.stepGrp v k) t
  [1, 2, 3, 4, 5].foldl (fun u d => keys.foldl (fun w a => if s.depth 6 a = d then w.stepAx pt v a else w) u) t

/-- Step 3 for every axis. -/
def State.faultAll (s : State) : State :=
  s.axNums.foldl (fun u a =>
    let x := u.ax a
    (u.setAx a x.faultStep).afterFault a x) s

/-- Step 4: the commands sampled at the course start, PF_CMD0 first (R49, R50). A port written since waits for the next course start. -/
def State.portsAll (s : State) : State :=
  s.pfSampled.foldl (fun u (n, c) =>
    if u.flag (R.PF_CMD_OP_GO n) then
      let r := u.pfApply c
      r.2.pfAnswer n r.1
    else u) s

/-- The ports sampled at the course start, with the copies of their staging entries (R49). -/
def State.samplePorts (s : State) : State :=
  { s with pfSampled := [0, 1, 2, 3].filterMap (fun n =>
      if s.flag (R.PF_CMD_OP_GO n) then
        let t := s.get (R.PF_CMD_OP_TARGET n)
        let g := s.flag (R.PF_CMD_OP_IS_GROUP n)
        some (n, ⟨s.get (R.PF_CMD_OP_OPCODE n), t, g, s.stage g t⟩)
      else none) }

/-- CTRL of the set-point record (R98, R118); a live update sets PARAM_NEW there when it takes effect. -/
def Ax.ctrl (x : Ax) : Nat :=
  let off := !x.enabled || x.driveOff
  let hard := match x.homing with
    | some h => x.par.homeMethod == 3 && h.step == .search
    | none => false
  b2n (!off) + 2 * b2n x.initCtl + 4 * b2n x.paramNew + 8 * b2n off + 16 * b2n hard + 32 * b2n (hard && x.par.homeDir == 1)

/-- The set-point record of an axis for course `c` (R118). -/
def Ax.spRecord (x : Ax) (c base : Nat) : List (Nat × BitVec 8) :=
  let hard := bit x.ctrl 4
  cells base (ux 64 (x.cmdPos - x.ofs)) 8 ++ cells (base + 8) (f32OfRat x.vel) 4 ++ cells (base + 12) (f32OfRat x.acc) 4 ++
  cells (base + 16) c 4 ++ cells (base + 20) x.ctrl 4 ++ cells (base + 24) (if hard then x.par.homeTorque else f32One) 4 ++ cells (base + 28) 0 4

/-- Step 5 for one axis: STOP_POS, the set-point record of the next course unless the engines are late, the published shared record (R48, R73, R118). -/
def State.writeSp (s : State) (late : Bool) (casPos a : Nat) : State :=
  let x := s.ax a
  let c := s.crs.cnt + 1
  let y := if x.st = .disabled then x else { x with stopPos := x.stopPosR.floor, crsLo := c % 2 ^ 32 }
  let w :=
    if late then []
    else
      match s.axSlot a with
      | some (n, sl) => y.spRecord c (spArea n sl c)
      | none => []
  let pub :=
    -- a disabled axis leaves the slot to an enabled one that shares it (R44, R73)
    if bit y.par.pubCfg 0 && y.copied && (y.enabled || !s.pubClash a y.par) then
      let b := sharedRec casPos (bits y.par.pubCfg 1 5)
      cells b (ux 64 y.cmdPos) 8 ++ cells (b + 8) (f32OfRat y.vel) 4 ++ cells (b + 12) (c % 65536 + b2n y.enabled * 65536) 4
    else []
  let s1 := (s.setAx a (if late then y else { y with initCtl := false, paramNew := false })).poke (w ++ pub)
  if 192 ≤ a then s1.chanTick (a - 192) late else s1

/-- Step 4 on the standby member: the commands of the mirror, in port order (R310). -/
def State.mirrorAll (s : State) (m : List (Nat × PfCmd)) : State := m.foldl (fun u c => (u.pfApply c.2).2) s

/-- Steps 1 to 3 of the profile tick: inputs are latched, every profile advances, faults take their reactions (R50). -/
def State.profileFirst (s : State) (pt : Nat → Option Int) : State :=
  let v := s.env
  let s1 := s.axNums.foldl (fun u a => u.setAx a ((u.ax a).latch v)) s
  { ((s1.advanceAll pt v).faultAll.noteEvents s) with free := s.free + 256 }

/-- Steps 4 and 5: the commands, the port's or those of the mirror `mir` (R310), and the set-points of the next course. `late` says that the engines do not finish the set-points by the sync gap (R30). -/
def State.profileRest (s : State) (late : Bool) (casPos : Nat) (mir : Option (List (Nat × PfCmd))) : State :=
  let s4 := (match mir with | none => s.portsAll | some m => s.mirrorAll m).settleAll
  let s5 := s4.axNums.foldl (fun u a => u.writeSp late casPos a) (s4.noteEvents s)
  s5.publishAll

/-- The profile tick of the present course (R50). -/
def State.profileTick (s : State) (pt : Nat → Option Int) (late : Bool) (casPos : Nat) : State := (s.profileFirst pt).profileRest late casPos none

/-- The substitute record of R30 for slot `sl` of engine `n`, when the record of the next course is missing. -/
def State.substCells (s : State) (n sl : Nat) : List (Nat × BitVec 8) :=
  let c := s.crs.cnt
  let new := spArea n sl (c + 1)
  let old := spArea n sl c
  if s.load (new + 16) 4 = (c + 1) % 2 ^ 32 then []
  else
    -- the area of the next course still holds the record before the previous one
    let p1 := sx 64 (s.load old 8)
    let p0 := sx 64 (s.load new 8)
    let ctrl := s.load (old + 20) 4
    cells new (ux 64 (p1 + (p1 - p0))) 8 ++ cells (new + 8) (s.load (old + 8) 8) 8 ++ cells (new + 16) (c + 1) 4 ++
    cells (new + 20) (setBits ctrl 1 2 0) 4 ++ cells (new + 24) (s.load (old + 24) 4) 4 ++ cells (new + 28) 0 4

/-- Every substitute of this sync gap (R30). -/
def State.substAll (s : State) : List (Nat × BitVec 8) :=
  (List.range 12).flatMap (fun n => (List.range ((s.eng n).axes.length)).flatMap (fun sl => s.substCells n sl))

end Sys2Proof.Machine
end

