-- ==== Sys2Proof/Machine/Ring.lean ====
section
/-! DEFINITION. Bondline: bond tables, nominal instants, the receive checks, links, messages of the head, and what the device builds to send (R171 to R214). -/
namespace Sys2Proof.Machine

/-! Entries of a bond table (R192). -/

/-- START, in byte times. -/
def BEnt.start (e : BEnt) : Nat := bits e.w0 0 20
/-- TYPE. -/
def BEnt.type (e : BEnt) : Nat := bits e.w0 20 4
/-- OWNER. -/
def BEnt.owner (e : BEnt) : Nat := bits e.w0 24 6
/-- SPARE. -/
def BEnt.spare (e : BEnt) : Bool := bit e.w0 30
/-- USED. -/
def BEnt.used (e : BEnt) : Bool := bit e.w0 31
/-- LEN. -/
def BEnt.len (e : BEnt) : Nat := bits e.w1 0 12
/-- EVERY. -/
def BEnt.every (e : BEnt) : Nat := bits e.w1 12 4
/-- PHASE. -/
def BEnt.phase (e : BEnt) : Nat := bits e.w1 16 8
/-- MAP_FIRST. -/
def BEnt.mapFirst (e : BEnt) : Nat := bits e.w2 0 12
/-- MAP_COUNT. -/
def BEnt.mapCount (e : BEnt) : Nat := bits e.w2 16 8
/-- The entry with SPARE set or cleared. -/
def BEnt.setSpare (e : BEnt) (b : Bool) : BEnt := { e with w0 := setBit e.w0 30 b }
/-- The entry's four words as 16 bytes. -/
def BEnt.bytes (e : BEnt) : List Nat := leBytes e.w0 4 ++ leBytes e.w1 4 ++ leBytes e.w2 4 ++ leBytes e.w3 4

/-- The map elements of an entry. -/
def Ring.els (r : Ring) (e : BEnt) : List MapEl := ((r.map.drop e.mapFirst).take e.mapCount).map mapEl

/-- The schedule in force on ring `k`. -/
def State.bsched (s : State) (k : Nat) : Option BSched := (s.ring k).scheds.getD (s.get R.BOND_CRS_STAT_SCHED_CUR) none

/-- The entry of an index in the schedule in force. -/
def State.bent (s : State) (k i : Nat) : Option BEnt :=
  match s.bsched k with
  | none => none
  | some b => b.ents[i]?

/-- The join window of ring `k` is open in this course (R209). -/
def State.joinOpen (s : State) (k : Nat) : Bool := s.flag (R.RING_STAT_JOIN_OPEN k)

/-- The entry is sent in the present course (R192, R209). -/
def State.sentNow (s : State) (k : Nat) (e : BEnt) : Bool :=
  e.used && !e.spare &&
  (if e.type = 7 then s.joinOpen k else s.crs.cnt % 2 ^ e.every == e.phase)

/-! Byte times and nominal instants (R172, R195, R199), in 1/16 ns. -/

/-- Byte times as 1/16 ns: 8 ns each at 1 Gbit/s, 3.2 ns at 2.5 Gbit/s. -/
def State.bt16 (s : State) (k n : Nat) : Nat := if s.flag (R.RING_CFG_RATE k) then n * 256 / 5 else n * 128

/-- The delay of the device from the head in a sense; 0 when it heads. -/
def State.selfDly (s : State) (k : Nat) (west : Bool) : Nat :=
  if s.heads then 0 else if west then s.get (R.RING_HEAD_DLY_W_D k) else s.get (R.RING_HEAD_DLY_E_D k)

/-- The loop delay that R199 uses at this receiver: at the head its own measurement, elsewhere the published LOOP; 0 while unknown. -/
def State.loopFor (s : State) (k : Nat) (west : Bool) : Nat :=
  if s.heads then (if west then (s.ring k).loopW else (s.ring k).loopE)
  else if west then s.get (R.RING_LOOP_W_LOOP k) else s.get (R.RING_LOOP_E_LOOP k)

/-- The nominal arrival, in 1/16 ns after course start, of a copy in a sense from a source with delay `dx`; none where no copy is expected (R199). -/
def State.nominal (s : State) (k start : Nat) (west : Bool) (dx : Nat) : Option Nat :=
  let d : Int := (s.selfDly k west : Int) - (dx : Int)
  let l := s.loopFor k west
  if s.flag (R.RING_CFG_TOPO k) || l == 0 then (if 0 < d then some (s.bt16 k start + d.toNat) else none)
  else some (s.bt16 k start + (d % (l : Int)).toNat)

/-- The delays of a JOIN: none for a sense without a copy (R210). -/
def joinDly (v : Nat) : Option Nat := if v = 0xFFFFFFFF then none else some v

/-- The delay of a source from the head in a sense: the head's is 0, a node's is what it reported. -/
def Ring.srcDly (r : Ring) (a : Nat) (west : Bool) : Option Nat :=
  if a < 2 then some 0
  else match r.node a with
    | some n => joinDly (if west then n.dlyW else n.dlyE)
    | none => none

/-! Epochs (R185). -/

/-- e1 is lower than e2; epochs that cannot be compared count as lower. -/
def epLower (e1 e2 : Nat) : Bool :=
  let d := (e2 + 65536 - e1 % 65536) % 65536
  decide (1 ≤ d ∧ d ≤ 32768)

/-- e1 is higher than e2: comparable, and e2 is lower than it. -/
def epHigher (e1 e2 : Nat) : Bool :=
  let d := (e1 + 65536 - e2 % 65536) % 65536
  decide (1 ≤ d ∧ d ≤ 32767)

/-! Bricks (R181, R182). -/

/-- The bytes of a copy as numbers. -/
def Copy.nats (c : Copy) : List Nat := c.bytes.map BitVec.toNat

/-- The header of R182 from its first twelve bytes. -/
def hdrOf (b : List Nat) : Hdr :=
  { type := bits (at_ b 0) 0 4, sched := bits (at_ b 0) 4 2, west := bit (at_ b 0) 6, alert := bit (at_ b 0) 7,
    src := bits (at_ b 1) 0 6, ringId := bits (at_ b 1) 6 2, course := leAt b 2 2, epoch := leAt b 4 2,
    len := leAt b 6 2, brick := leAt b 8 2 }

/-- The twelve header bytes, HCRC included. -/
def Hdr.bytes (h : Hdr) : List Nat :=
  let b := [h.type % 16 + h.sched % 4 * 16 + b2n h.west * 64 + b2n h.alert * 128, h.src % 64 + h.ringId % 4 * 64] ++
    leBytes h.course 2 ++ leBytes h.epoch 2 ++ leBytes h.len 2 ++ leBytes h.brick 2
  b ++ leBytes (crc16 b) 2

/-- A whole brick: header, payload and CRC-32. -/
def brickBytes (h : Hdr) (p : List Nat) : List Nat :=
  let b := h.bytes ++ p
  b ++ leBytes (crc32 b) 4

/-- The payload of a copy. -/
def Copy.payload (c : Copy) : List Nat := slice c.nats 12 (hdrOf c.nats).len

/-- Check 1 of R184: twelve header bytes, HCRC correct. -/
def Copy.hcrcOk (c : Copy) : Bool :=
  let b := c.nats
  decide (12 ≤ b.length) && crc16 (b.take 10) == leAt b 10 2

/-- A TYPE of R183. -/
def typeOk (t : Nat) : Bool := decide (1 ≤ t ∧ t ≤ 9) || t == 15

/-- Check 2 of R184. -/
def Copy.hdrOk (c : Copy) : Bool :=
  let h := hdrOf c.nats
  typeOk h.type && h.ringId == c.ring.val && decide (h.len ≤ 2048) && decide (h.brick < 1024)

/-- Check 3 of R184. -/
def Copy.endOk (c : Copy) : Bool := c.term == .t && decide (c.nats.length = (hdrOf c.nats).len + 16)

/-- Check 4 of R184. -/
def Copy.crcOk (c : Copy) : Bool :=
  let b := c.nats
  let n := (hdrOf b).len + 12
  crc32 (b.take n) == leAt b n 4

/-- The course time of a copy's arrival, in ns. -/
def State.crsTime (s : State) (t : Nat) : Int := (t : Int) - (s.crs.start : Int)

/-- What identifies a copy, for counting it once (R177). -/
def Copy.key (c : Copy) : Nat := (hdrOf c.nats).brick * 2 + b2n (hdrOf c.nats).west + 2048 * (hdrOf c.nats).course

/-- Invalid code groups and disparity errors of a port are counted (R171, R217). -/
def State.countCodes (s : State) (k : Nat) (west : Bool) (n : Nat) : State :=
  let f := if west then R.RING_CODE_CNT_W k else R.RING_CODE_CNT_E k
  s.set f (min (2 ^ f.w - 1) (s.get f + n))

/-- Count a CRC-32 failure of a copy once, whether it is received or forwarded (R177, R184). -/
def State.countCrc (s : State) (c : Copy) : State :=
  let r := s.ring c.ring
  if r.crcSeen.contains c.key then s
  else (s.count (R.RING_CRC_CNT_CRC c.ring)).setRing c.ring { r with crcSeen := c.key :: r.crcSeen }

/-- A failure of check 1 or 4 in the first 200 byte times of a starting device's first course is not clean (R202). -/
def State.dirty (s : State) (c : Copy) : State :=
  if s.get R.BOND_START_STATE = 2 ∧ s.crsTime c.at_ * 16 ≤ (s.bt16 c.ring 200 : Int) then { s with bond := { s.bond with clean := false } } else s

/-- Checks 1 to 4 of R184, which apply to every copy; a copy that passes has been heard (R201, R202). -/
def State.rxFrame (s : State) (c : Copy) : State × Bool :=
  let k := c.ring.val
  let h := hdrOf c.nats
  if !c.hcrcOk then ((s.count (R.RING_CRC_CNT_HCRC k)).dirty c, false)
  else if !c.hdrOk then (s.count (R.RING_DISC_CNT_HDR k), false)
  else if !c.endOk then (s.count (R.RING_DISC_CNT_HDR k), false)
  else if !c.crcOk then ((s.countCrc c).dirty c, false)
  else ({ s with bond := { s.bond with heardAny := true, clean := s.bond.clean && !(s.get R.BOND_START_STATE == 2 && h.type == 1 && h.src != s.selfAddr) } }, true)

/-- A message joins the head's queue, once. -/
def Ring.say (r : Ring) (m : Mg) : Ring := if r.mq.contains m then r else { r with mq := r.mq ++ [m] }

/-- The head answers a brick of an unclaimed source with OFF_RING (R184, R208). -/
def State.offAnswer (s : State) (k src : Nat) : State :=
  if s.heads && decide (2 ≤ src) then (s.setRing k ((s.ring k).say ⟨1, src, []⟩)).setFlag (R.RING_STAT_OFF_SENT k) true else s

/-- Set or clear SPARE in every entry of an address, in every schedule (R208, R210, R211). A JOIN entry has no owner. -/
def Ring.spareAll (r : Ring) (a : Nat) (b : Bool) : Ring :=
  { r with scheds := r.scheds.map (fun o => o.map (fun d => { d with ents := d.ents.map (fun e => if e.owner = a ∧ e.type ≠ 7 then e.setSpare b else e) })) }

/-- A node is ordered off the ring (R208). -/
def State.orderOff (s : State) (k a : Nat) : State :=
  let r := ((s.ring k).spareAll a true).updNode a (fun n => { n with claimed := false, off := true, uid := n.claimUid, ackAt := none, seen := false, edgeRun := 0, lossRun := 0 })
  (s.setRing k (r.say ⟨1, a, []⟩)).setFlag (R.RING_STAT_OFF_SENT k) true

/-- The expected SRC of an entry (R184 check 5). -/
def State.expSrc (s : State) (k : Nat) (e : BEnt) : Nat :=
  if e.type = 7 then 0x3F
  else if e.owner = 0 then (if s.heads then s.selfAddr else s.get (R.RING_HEAD_SRC k))
  else e.owner

/-- The schedule is in the image. -/
def State.schedIn (s : State) (j : Nat) : Bool := (s.crs.scheds.getD j none).isSome

/-- Check 5 for a REFERENCE (R450). -/
def State.refOk (s : State) (h : Hdr) (p : List Nat) : Bool :=
  let rank := bits (at_ p 26) 2 2
  h.brick == 0 && h.len == 32 && h.course == leAt p 8 2 && s.schedIn h.sched &&
  ((rank == 0 && h.src == 0) || (rank == 1 && h.src == 1) || (decide (2 ≤ rank) && decide (2 ≤ h.src))) &&
  (!(s.heads || s.follows) || (h.course == s.crs.cnt % 65536 && h.sched == s.get R.BOND_CRS_STAT_SCHED_CUR))

/-- Check 5 for every other brick. -/
def State.placeOk (s : State) (k : Nat) (h : Hdr) : Bool :=
  h.course == s.crs.cnt % 65536 && h.sched == s.get R.BOND_CRS_STAT_SCHED_CUR &&
  (match s.bent k h.brick with
   | none => false
   | some e => s.sentNow k e && h.len == e.len && h.src == s.expSrc k e)

/-- Check 6. -/
def State.claimOk (s : State) (k : Nat) (h : Hdr) : Bool :=
  h.type == 1 || h.type == 7 || decide (h.src < 2) ||
  (match (s.ring k).node h.src with | some n => n.claimed | none => false)

/-- A brick of the head: a REFERENCE, or one whose source is a member. -/
def Hdr.ofHead (h : Hdr) : Bool := h.type == 1 || decide (h.src < 2)

/-- The arrival offset in whole ns against the nominal arrival; none where R199 gives no nominal arrival. The head's delay is 0, a backup timekeeper's too while it heads (R198, R203). -/
def State.offset (s : State) (k : Nat) (c : Copy) (h : Hdr) (p : List Nat) : Option Int :=
  let dx :=
    if h.type = 7 then joinDly (leAt p (if h.west then 12 else 8) 4)
    else if h.ofHead || (s.follows && h.src == s.get (R.RING_HEAD_SRC k)) then some 0
    else (s.ring k).srcDly h.src h.west
  let start := match s.bent k h.brick with | some e => e.start | none => 0
  match dx with
  | none => none
  | some d => (s.nominal k start h.west d).map (fun n => (s.crsTime c.at_ * 16 - (n : Int)) / 16)

/-- A signed 16-bit value, saturating (R217). -/
def sat16 (x : Int) : Int := max (-32768) (min 32767 x)

/-- Change the node that sent a brick: none sends a JOIN, whose SRC 0x3F is no address (R182). -/
def Ring.updSrc (r : Ring) (h : Hdr) (f : Node → Node) : Ring := if h.type = 7 then r else r.updNode h.src f

/-- Keep the last offset of a source in a sense (R206). -/
def State.keepOffset (s : State) (k : Nat) (h : Hdr) (o : Int) : State :=
  s.setRing k ((s.ring k).updSrc h (fun n => if h.west then { n with ofsW := sat16 o, drift := decide (40 < o.natAbs) } else { n with ofsE := sat16 o, drift := decide (40 < o.natAbs) }))

/-- Check 7 failed: the edge fault is counted, and the third in a row orders the node off (R206, R208). -/
def State.edgeFault (s : State) (k : Nat) (h : Hdr) : State :=
  let s1 := (s.count (R.RING_EDGE_CNT_COUNT k)).setRing k ((s.ring k).updSrc h (fun n => { n with edge := min 255 (n.edge + 1), edgeRun := n.edgeRun + 1 }))
  if s.heads && h.type != 7 && ((s1.ring k).nodes.any (fun n => n.addr == h.src && decide (3 ≤ n.edgeRun))) then s1.orderOff k h.src else s1

/-- A discarded brick joins this course's set (R214). -/
def State.addBad (s : State) (k i : Nat) : State :=
  let r := s.ring k
  s.setRing k (if r.bad.contains i then r else { r with bad := i :: r.bad })

/-- The highest epoch accepted, and EPOCH_AHEAD at the keystone's holder (R185). -/
def State.takeEpoch (s : State) (k : Nat) (h : Hdr) : State :=
  let s1 := if h.ofHead && epHigher h.epoch (s.get (R.RING_HEAD_EPOCH_MAX k)) then s.set (R.RING_HEAD_EPOCH_MAX k) h.epoch else s
  if (s.heads || s.mtr.holder) && epHigher h.epoch (s.get R.MTR_EPOCH_EPOCH) then s1.setFlag (R.RING_STAT_EPOCH_AHEAD k) true else s1

/-- A brick has been accepted from a source: it is in this course's set, and the source's runs end (R175, R206 to R208). -/
def State.accept (s : State) (k : Nat) (h : Hdr) (o : Option Int) : State :=
  let r := s.ring k
  let late := match o with | some x => decide (40 < x.natAbs) | none => false
  let r1 := ({ r with acc := h.brick :: r.acc, headRun := if h.ofHead then 0 else r.headRun }).updSrc h (fun n =>
    { n with seenNow := true, lossRun := 0, edgeRun := 0, seen := n.seen || (match n.ackAt with | some c => decide (c + 2 ≤ s.crs.cnt) | none => false), drifts := if late then min 255 (n.drifts + 1) else n.drifts })
  let s1 := s.setRing k r1
  (if late then s1.setFlag (R.RING_STAT_DRIFT k) true else s1).takeEpoch k h

/-- The result of the receive checks on a copy: the state after them, and whether the copy is accepted, or is the second copy of an accepted brick. -/
inductive Rx where
  | drop
  | again
  | accept
  deriving DecidableEq, Repr

/-- The receive checks 5 to 8 of R184 and what they count (R175, R184, R206); a device that neither heads nor follows has no course to time a REFERENCE by (R450). A second copy of a brick accepted in this course is counted nowhere; it leaves its offset. -/
def State.rxJudge (s : State) (c : Copy) : State × Rx :=
  let k := c.ring.val
  let h := hdrOf c.nats
  let p := c.payload
  let dup := (s.ring k).acc.contains h.brick && h.course == s.crs.cnt % 65536
  let ok5 := if h.type = 1 then s.refOk h p else s.placeOk k h
  if dup && !(ok5 && s.claimOk k h) then (s, .drop)
  else if !ok5 then ((s.count (R.RING_DISC_CNT_HDR k)).addBad k h.brick, .drop)
  else if !s.claimOk k h then (((s.count (R.RING_DISC_CNT_HDR k)).addBad k h.brick).offAnswer k h.src, .drop)
  else
    let free := h.type == 1 && !(s.heads || s.follows)
    let off := if free then none else s.offset k c h p
    if !free && off.isNone then (s, .drop)
    else
      let s1 := match off with | some o => s.keepOffset k h o | none => s
      if dup then (s1, .again)
      else if (match off with | some o => decide (60 < o.natAbs) | none => false) then ((s1.edgeFault k h).addBad k h.brick, .drop)
      else if h.ofHead && epLower h.epoch (s.get (R.RING_HEAD_EPOCH_MAX k)) then ((s1.count (R.RING_DISC_CNT_EPOCH k)).addBad k h.brick, .drop)
      else (s1.accept k h off, .accept)

/-- The whole of R184 for a copy whose row expects one of the TYPEs `want`: a copy of another defined TYPE is another row's. -/
def State.receive (s : State) (c : Copy) (want : Nat → Bool) : State × Rx :=
  let h := hdrOf c.nats
  if c.hcrcOk && typeOk h.type && !want h.type then (s, .drop)
  else
    let r := (s.countCodes c.ring c.onWest c.codes).rxFrame c
    if r.2 then r.1.rxJudge c else (r.1, .drop)

/-! Links (R171, R197, R212, R213). -/

/-- A link is down: BREAK is set as the port goes down (R172, R212). -/
def State.linkDown (s : State) (k : Nat) (west : Bool) : State :=
  let r := s.ring k
  let s1 := s.setRing k (r.setPort west { r.port west with sync := false, fwd := false, fresh := false, req := none, resp := none })
  (s1.setFlag (R.RING_STAT_BREAK k) (s.flag (R.RING_STAT_BREAK k) || (r.port west).sync)).setFlag (if west then R.RING_STAT_W_SYNC k else R.RING_STAT_E_SYNC k) false

/-- A link has synchronised: a new measurement is due (R197, R213). -/
def State.linkSync (s : State) (k : Nat) (west : Bool) : State :=
  let r := s.ring k
  (s.setRing k (r.setPort west { r.port west with sync := true, fresh := false, fwd := false, req := none, resp := none })).setFlag
    (if west then R.RING_STAT_W_SYNC k else R.RING_STAT_E_SYNC k) true

/-- Forwarding resumes once the link is synchronised and newly measured (R213). -/
def State.forwardResume (s : State) (k : Nat) (west : Bool) : State :=
  let r := s.ring k
  let p := r.port west
  if p.sync && p.fresh then s.setRing k (r.setPort west { p with fwd := true }) else s

/-- The REQUEST of R197 is due on a port in this sync gap. -/
def State.ltDue (s : State) (p : Port) : Bool := p.sync && (s.crs.cnt % 256 == 254 || !p.fresh || !p.meas)

/-- A REQUEST leaves at time `t1` (R197), unless the device has just been inserted and sends nothing of its own (R180). -/
def State.ltSend (s : State) (k : Nat) (west : Bool) (t1 : Nat) : State × List Out :=
  let r := s.ring k
  let p := r.port west
  if s.ltDue p && !r.quiet then
    (s.setRing k { r.setPort west { p with req := some (r.ltSeq, t1) } with ltSeq := (r.ltSeq + 1) % 65536 }, [.lt k west 1 r.ltSeq 0])
  else (s, [])

/-- A REQUEST has arrived at time `t2` (R197). -/
def State.ltRequest (s : State) (k : Nat) (west : Bool) (seq t2 : Nat) : State :=
  let r := s.ring k
  let p := r.port west
  if p.sync then s.setRing k (r.setPort west { p with resp := some (seq, t2) }) else s

/-- The RESPONSEs owed on a ring leave at time `t3` (R197); within the silence after insertion they wait for the next gap (R180). -/
def State.ltAnswers (s : State) (k t3 : Nat) : State × List Out :=
  let r := s.ring k
  let out (west : Bool) : List Out := match (r.port west).resp with
    | some (q, t2) => [.lt k west 2 q ((t3 - t2) * 16 % 2 ^ 32)]
    | none => []
  if r.quiet then (s, [])
  else (s.setRing k { r with east := { r.east with resp := none }, west := { r.west with resp := none } }, out false ++ out true)

/-- A number halved or divided by `d`, the spec not saying how the remainder rounds: one of the two neighbours (log entry 2). -/
def State.divFree (s : State) (x : Int) (d : Nat) : Int :=
  if x % (d : Int) = 0 then x / (d : Int) else x / (d : Int) + (Config.freeNat s.free % 2 : Nat)

/-- A RESPONSE has arrived at time `t4` with value t3 − t2 (R197). -/
def State.ltResponse (s : State) (k : Nat) (west : Bool) (seq value t4 : Nat) : State :=
  let r := s.ring k
  let p := r.port west
  match p.req with
  | some (q, t1) =>
    if q = seq ∧ p.sync = true then
      let m := s.divFree (((t4 : Int) - (t1 : Int)) * 16 - (value : Int)) 2
      let d : Int := if p.meas then (p.dly : Int) + { s with free := s.free + 1 }.divFree (m - (p.dly : Int)) 8 else m
      let v := ux 24 d
      { (s.setRing k (r.setPort west { p with meas := true, dly := v, fresh := true, req := none })).set (if west then R.RING_LINK_W_DLY k else R.RING_LINK_E_DLY k) v with free := s.free + 2 }
    else s
  | none => s

/-! What the head sends (R186, R190, R210). -/

/-- The header of an own brick in a sense. -/
def State.ownHdr (s : State) (k type len brick : Nat) (west : Bool) : Hdr :=
  { type := type, sched := s.get R.BOND_CRS_STAT_SCHED_CUR, west := west, alert := false, src := s.selfAddr, ringId := k,
    course := s.crs.cnt % 65536, epoch := s.get R.MTR_EPOCH_EPOCH, len := len, brick := brick }

/-- Both copies of an own brick (R174). -/
def State.sendBoth (s : State) (k type brick : Nat) (p : List Nat) : List Out :=
  [.brick k (brickBytes (s.ownHdr k type p.length brick false) p), .brick k (brickBytes (s.ownHdr k type p.length brick true) p)]

/-- The REFERENCE payload of a sense (R186). -/
def State.refPayload (s : State) (k : Nat) (west : Bool) : List Nat :=
  let left := s.get R.BOND_CRS_STAT_SW_LEFT
  leBytes s.crs.start 8 ++ leBytes s.crs.cnt 8 ++ leBytes 0 4 ++
  leBytes (s.get (if west then R.RING_LOOP_W_LOOP k else R.RING_LOOP_E_LOOP k)) 4 ++
  [s.crs.swTo.getD 0 + 4 * b2n s.crs.swTo.isSome, left, b2n (s.joinOpen k) + 4 * s.get R.BOND_START_RANK, 0] ++ leBytes 0 4

/-- The REFERENCE bricks of a ring (R186). -/
def State.references (s : State) (k : Nat) : List Out :=
  [.brick k (brickBytes (s.ownHdr k 1 32 0 false) (s.refPayload k false)), .brick k (brickBytes (s.ownHdr k 1 32 0 true) (s.refPayload k true))]

/-- The payload of one MGMT message (R190). -/
def mgBytes (op dest seq : Nat) (data : List Nat) (len : Nat) : List Nat := fitTo ([op, dest] ++ leBytes seq 2 ++ data) len

/-- The axes of a node with its ring, in ascending OFFSET of their feedback records in the schedule in force (R190). -/
def State.nodeAxes (s : State) (k a : Nat) : List Nat :=
  match s.bsched k with
  | none => []
  | some b =>
    let els := b.ents.flatMap (fun e => if e.used && e.type == 2 then ((s.ring k).els e).filter (fun m => m.kind == 0 && m.node == a) else [])
    let rec ins (m : MapEl) : List MapEl → List MapEl
      | [] => [m]
      | x :: r => if m.ofs ≤ x.ofs then m :: x :: r else x :: ins m r
    (els.foldr ins []).map MapEl.item

/-- A DRIVE_RESET that is due on ring `k`: the node and the mask of its axes (R190). -/
def State.driveReset (s : State) (k : Nat) : Option (Nat × Nat × List Nat) :=
  (s.ring k).nodes.findSome? (fun n =>
    let ax := s.nodeAxes k n.addr
    let m := (List.range 4).foldl (fun m i => if s.crs.resets.contains (ax.getD i 240) then m + 2 ^ i else m) 0
    if m = 0 then none else some (n.addr, m, ax))

/-- The bytes a record of a KIND takes; a segment's length comes from the segment map. -/
def recLen (segLen : Nat → Nat) (m : MapEl) : Nat :=
  if m.kind = 0 then 20 else if m.kind = 1 then 16 else if m.kind = 2 then 12 else segLen m.item

/-- The table items of an address: its own entries, MGMT first, then the head entries that carry records for it, each with the offset and length of its slice (R210). -/
def Ring.items (r : Ring) (segLen : Nat → Nat) (a : Nat) : List (List Nat) :=
  let own (mg : Bool) := (List.range 4).flatMap (fun j => match r.scheds.getD j none with
    | none => []
    | some b => (b.ents.zipIdx).filterMap (fun (e, i) =>
        if e.used && e.owner == a && e.type != 7 && ((e.type == 8) == mg) then some ([j, 0] ++ leBytes i 2 ++ (e.setSpare false).bytes ++ leBytes 0 4) else none))
  let head := (List.range 4).flatMap (fun j => match r.scheds.getD j none with
    | none => []
    | some b => (b.ents.zipIdx).filterMap (fun (e, i) =>
        let els := (r.els e).filter (fun m => m.node == a)
        if e.used && e.owner == 0 && !els.isEmpty then
          let lo := els.foldl (fun x m => min x m.ofs) 4095
          let hi := els.foldl (fun x m => max x (m.ofs + recLen segLen m)) 0
          some ([j, 1] ++ leBytes i 2 ++ e.bytes ++ leBytes (lo % 4096 + (hi - lo) % 4096 * 4096) 4)
        else none))
  own true ++ own false ++ head

/-- A claim of a node by a JOIN: the descriptor is taken (R210). -/
def State.claim (s : State) (k : Nat) (j : JoinMsg) (a : Nat) : State :=
  s.setRing k ((s.ring k).updNode a (fun n =>
    { n with claimed := true, claimUid := j.uid, off := false, dlyE := j.dlyE, dlyW := j.dlyW, resid := j.resid, rank := j.rank, claimAt := s.crs.cnt, ackAt := none, due := 0, seen := false, edgeRun := 0, lossRun := 0 }))

/-- The table items of a node of ring `k`. -/
def State.tableOf (s : State) (k a : Nat) : List (List Nat) := (s.ring k).items (s.segLen k) a

/-- The CLAIM of a node has been sent: its entries are no longer spare, its table items follow, and the 256 courses of R211 begin (R210, R211). -/
def State.claimSent (s : State) (k a : Nat) : State :=
  let r := ((s.ring k).spareAll a false).updNode a (fun n => { n with claimAt := s.crs.cnt })
  s.setRing k { r with mq := r.mq ++ (s.tableOf k a).map (fun d => ⟨5, a, d⟩) }

/-- The descriptor a JOIN matches (R210). -/
def Ring.matchJoin (r : Ring) (uid kind : Nat) : Option Nat :=
  match r.nodes.find? (fun n => n.uid == uid && n.uid != 0 && !n.claimed) with
  | some n => some n.addr
  | none => (r.nodes.find? (fun n => n.uid == 0 && n.kind == kind && !n.claimed)).map Node.addr

/-- A claim whose CLAIM has been sent times out (R211). -/
def State.claimTimeout (s : State) (k a : Nat) : State :=
  let r := s.ring k
  match r.node a with
  | none => s
  | some n =>
    let out := match n.ackAt with
      | none => decide (n.claimAt + 256 ≤ s.crs.cnt)
      | some c => !n.seen && decide (c + 10 ≤ s.crs.cnt) && decide (3 ≤ n.due)
    if s.heads && n.claimed && out && !(r.claims.any (fun x => x.2.1 == a)) then
      (s.setRing k ((r.spareAll a true).updNode a (fun m => { m with claimed := false, claimUid := m.uid, ackAt := none, seen := false }))).count (R.RING_JOIN_CNT_TIMEOUTS k)
    else s

/-- The third loss in a row is a squall, counted once; the head then orders a node off (R207, R208). -/
def State.squall (s : State) (k src run : Nat) : State :=
  if run = 3 then
    let s1 := (s.count (R.RING_LOST_CNT_SQUALLS k)).setFlag (R.RING_STAT_SQUALL k) true
    if s.heads && decide (2 ≤ src) then s1.orderOff k src else s1
  else s

/-- A brick of another source is lost (R175, R200, R207). -/
def State.brickLost (s : State) (k i : Nat) : State :=
  let r := s.ring k
  match s.bent k i with
  | none => s
  | some e =>
    if !s.sentNow k e || e.type = 7 || r.acc.contains i || (e.owner == 0 && s.heads) || s.get R.BOND_START_STATE < 3 then s
    else if e.owner < 2 then
      let s1 := ((s.addBad k i).count (R.RING_LOST_CNT_LOST k))
      let s2 := s1.setRing k { s1.ring k with headRun := r.headRun + 1 }
      (if i = 0 then s2.set (R.RING_STAT_STATE k) 6 else s2).squall k 0 (r.headRun + 1)
    else
      match r.node e.owner with
      | none => s
      | some n =>
        let judged := n.claimed && (match n.ackAt with | some c => decide (c + 2 ≤ s.crs.cnt) | none => false)
        if !judged then s
        else
          let s1 := ((s.addBad k i).count (R.RING_LOST_CNT_LOST k))
          let run := if n.seen then n.lossRun + 1 else 0
          (s1.setRing k ((s1.ring k).updNode e.owner (fun m => { m with lost := min 65535 (m.lost + 1), lossRun := run, due := if m.seen then m.due else m.due + 1 }))).squall k e.owner run

/-! Checks of the RINGS section (R193). -/

/-- The periods of R32, in ns. -/
def periodOk (p : Nat) : Bool := [31250, 62500, 125000, 250000, 500000, 1000000].contains p

/-- The entries are in ascending order, and none overlaps the next with its guard interval (R176, R193). -/
def entsApart : List BEnt → Bool
  | a :: b :: r => decide (a.start + 50 + a.len ≤ b.start) && entsApart (b :: r)
  | _ => true

/-- A schedule of a ring passes the checks of R193; `rate` is RATE, `bt` byte times in 1/16 ns. -/
def schedOk (rate : Nat) (map : List Nat) (segLen : Nat → Nat) (b : BSched) : Bool :=
  let bt (n : Nat) : Nat := if rate = 1 then n * 256 / 5 else n * 128
  let used := b.ents.filter BEnt.used
  periodOk b.period && decide (500 ≤ b.ts) && decide (b.ts < b.ta) && decide (b.ta + 500 ≤ b.gap) &&
  decide (b.gap * 16 + bt 165 ≤ b.period * 16) && decide (1 ≤ b.ents.length ∧ b.ents.length ≤ 1024) &&
  (match b.ents with | e :: _ => e.used && e.type == 1 && e.start == 0 && e.len == 32 | [] => false) &&
  entsApart used &&
  used.all (fun e =>
    decide (e.len ≤ 2048) && decide (e.every ≤ 8) && decide (e.phase < 2 ^ e.every) && decide (e.mapCount ≤ 128) &&
    typeOk e.type && e.owner != 1 && (e.type != 7 || e.owner == 0x3F) && decide (bt (e.start + 50 + e.len) ≤ b.gap * 16) &&
    ((map.drop e.mapFirst).take e.mapCount).all (fun w => (decide (2 ≤ (mapEl w).kind) || decide ((mapEl w).item < 192)) && decide ((mapEl w).ofs + recLen segLen (mapEl w) ≤ e.len)))

end Sys2Proof.Machine
end

