-- ==== Sys2Proof/Machine/Pim.lean ====
section
/-! DEFINITION. The process image manager: points, records, quality and age, segments of I/O bricks, and the output log (R218 to R236). -/
namespace Sys2Proof.Machine

/-- The member sends outputs and takes work: an unpaired device, or the holder of the keystone (R230, R297). -/
def State.leads (s : State) : Bool := !s.mtr.paired || s.mtr.holder

/-- A record refreshed with a value in the present course; its words are sound again (R405). -/
def State.refresh (s : State) (p type v : Nat) : State :=
  let w := normPt type v
  let s1 := { s with pim := { s.pim with recs := Store.put none s.pim.recs p (some ⟨w, qualOf type w, s.crs.cnt⟩) }, tst := s.tst.heal [(0x20000000 + 8 * p, 0), (0x20000004 + 8 * p, 0)] }
  if qualOf type w = 14 then s1.count R.PIM_NONFIN_CNT_COUNT else s1

/-- The requester's number among the latches. -/
def Req.id : Req → Nat
  | .core _ => 0
  | .dma => 1

/-- A read of a VALUE latches the second word for its requester (R233). -/
def State.ptReadValue (s : State) (q : Req) (p : Nat) : Nat × State :=
  (s.ptValue p, { s with pim := { s.pim with latch := Store.put none s.pim.latch q.id (some (p, s.ptSecond p)) } })

/-- A read of a second word uses the requester's latch for that record up, or forms the word now (R233). -/
def State.ptReadSecond (s : State) (q : Req) (p : Nat) : Nat × State :=
  match Store.get none s.pim.latch q.id with
  | some (p', w) =>
    if p' = p then (w, { s with pim := { s.pim with latch := Store.put none s.pim.latch q.id none } }) else (s.ptSecond p, s)
  | none => (s.ptSecond p, s)

/-- Log an accepted output write at the keystone's holder; writes beyond the 2048th of a course are not logged (R234, R235). -/
def State.logOut (s : State) (p v : Nat) : State :=
  let n := s.pim.writes + 1
  let s1 := { s with pim := { s.pim with writes := n, log := if s.mtr.paired && decide (n ≤ 2048) then s.pim.log ++ [(p, v)] else s.pim.log } }
  if s.mtr.paired && n == 2049 then (s1.setFlag R.PIM_STAT_LOG_OVF true).count R.PIM_LOG_OVF_CNT else s1

/-- A core or DMA write to the VALUE of a point (R220, R231, R232, R234). -/
def State.ptWrite (s : State) (p v : Nat) : State × Bus :=
  match s.rng p with
  | none => (s.count R.PIM_WR_CNT_REJ, .error)
  | some r =>
    if r.dir = 0 then (s.count R.PIM_WR_CNT_REJ, .error)
    else if r.dir = 1 ∧ s.leads = false then (s.count R.PIM_WR_CNT_SHADOW, .done)
    else
      let s1 := s.refresh p r.type v
      (if r.dir = 1 then s1.logOut p (normPt r.type v) else s1, .done)

/-- The number of a requester among those of PIM_REQn (R239). -/
def Req.pimNo : Req → Nat
  | .core _ => 4
  | .dma => 5

/-! Segments (R227, R228). -/

/-- The value of a place in a payload, the segment starting at `ofs`. -/
def placeGet (pay : List Nat) (ofs t b : Nat) : Nat :=
  if t = 0 then (at_ pay (ofs + b / 8) / 2 ^ (b % 8)) % 2 else leAt pay (ofs + b / 8) (typeBytes t)

/-- A payload with a place written. -/
def placePut (pay : List Nat) (ofs t b v : Nat) : List Nat :=
  if t = 0 then pay.set (ofs + b / 8) (setBit (at_ pay (ofs + b / 8)) (b % 8) (v % 2 == 1))
  else putAt pay (ofs + b / 8) (leBytes v (typeBytes t))

/-- An accepted IO_IN copy refreshes every point of its segments (R229). -/
def State.ioIn (s : State) (k : Nat) (e : BEnt) (pay : List Nat) : State :=
  ((s.ring k).els e).foldl (fun u m =>
    if m.kind ≠ 3 then u
    else match u.pseg k m.item with
      | none => u
      | some g => ((u.places g.count g.first 0).1.foldl (fun w (p, t, b) => w.refresh p t (placeGet pay m.ofs t b)) u).serve k g.count) s

/-- The payload of an IO_OUT brick from the output points as they stand (R230). -/
def State.ioOut (s : State) (k : Nat) (e : BEnt) : List Nat :=
  ((s.ring k).els e).foldl (fun pay m =>
    if m.kind ≠ 3 then pay
    else match s.pseg k m.item with
      | none => pay
      | some g => (s.places g.count g.first 0).1.foldl (fun w (p, t, b) => placePut w m.ofs t b (s.ptValue p)) pay)
    (List.replicate e.len 0)

/-- The output points that an IO_OUT entry carries. -/
def State.outCount (s : State) (k : Nat) (e : BEnt) : Nat :=
  (((s.ring k).els e).map (fun m => if m.kind = 3 then (match s.pseg k m.item with | some g => g.count | none => 0) else 0)).sum

/-- The end of a course for the log: LAST, and a new log (R235, R239). -/
def State.pimCourse (s : State) : State :=
  { s.set R.PIM_LOG_LAST (min 4095 s.pim.writes) with pim := { s.pim with log := [], writes := 0 } }

/-- Records take their reset values (R221). -/
def State.pimReset (s : State) : State := { s with pim := { s.pim with recs := [], latch := [], log := [], writes := 0, start := [], prev := [] } }

/-! Checks of the POINTS section (R219, R226, R227). -/

/-- The ranges ascend without overlap, and every field is valid, the INIT 0 of an input among them (R219). -/
def rangesOk : List Rng → Bool
  | [] => true
  | r :: l =>
    decide (1 ≤ r.count ∧ r.first + r.count ≤ 262144) && decide (r.type ≤ 5 ∧ r.dir ≤ 2 ∧ r.cls ≤ 4) && (r.dir != 0 || r.init == 0) &&
    (match l with | q :: _ => decide (r.first + r.count ≤ q.first) | [] => true) && rangesOk l

/-- A segment map covers points of its own DIR only (R227). -/
def State.psegOk (s : State) (g : PSeg) : Bool :=
  decide (1 ≤ g.count ∧ g.count ≤ 256) &&
  (List.range g.count).all (fun i => match s.rng (g.first + i) with | some r => r.dir == g.dir | none => false)

/-- The KIND 3 elements of an entry agree with its TYPE, and carry at most 256 points (R227). -/
def State.entSegsOk (s : State) (k : Nat) (e : BEnt) : Bool :=
  let els := ((s.ring k).els e).filter (fun m => m.kind == 3)
  els.all (fun m => match s.pseg k m.item with
    | some g => (e.type == 4 && g.dir == 0) || (e.type == 5 && g.dir == 1)
    | none => false) &&
  decide ((els.map (fun m => match s.pseg k m.item with | some g => g.count | none => 0)).sum ≤ 256)

/-- How many input segments of a schedule carry a point, and whether each is sent often enough for the class (R226). -/
def State.carriers (s : State) (j p : Nat) : List Nat :=
  [0, 1, 2, 3].flatMap (fun k => match (s.ring k).scheds.getD j none with
    | none => []
    | some b => b.ents.flatMap (fun e =>
        if e.used && e.type == 4 then ((s.ring k).els e).filterMap (fun m => match m.kind, s.pseg k m.item with
          | 3, some g => if g.first ≤ p ∧ p < g.first + g.count then some (2 ^ e.every) else none
          | _, _ => none)
        else []))

/-- The POINTS section passes its checks. -/
def State.pointsOk (s : State) : Bool :=
  decide (s.pim.ranges.length ≤ 4096) && rangesOk s.pim.ranges && s.pim.segs.all (fun (_, o) => match o with | some g => s.psegOk g | none => true) &&
  [0, 1, 2, 3].all (fun k => (s.ring k).scheds.all (fun o => match o with | some b => b.ents.all (fun e => !e.used || s.entSegsOk k e) | none => true)) &&
  s.pim.ranges.all (fun r => r.dir != 0 || (List.range r.count).all (fun i => s.schedNums.all (fun j =>
    match s.crs.scheds.getD j none, s.carriers j (r.first + i) with
    | some d, [n] => decide (n ≤ classP r.cls d.period)
    | _, _ => false)))

/-! Meanings. -/

/-- What an access of the process image by a requester can change. -/
def pimDo (t s : State) (b : Bus) : Host.Outcome State Fault Refusal :=
  .next { s with pim := t.pim, tst := t.tst, flds := t.flds, bus := b, outs := [] }

/-- POINT_WRITE: a write of a VALUE, by a core or by DMA alike. -/
def execPointWrite (q : Req) (p : Fin 262144) (v : BitVec 32) (s : State) : Host.Outcome State Fault Refusal :=
  s.atMem (0x20000000 + 8 * p.val) false (pimDo ((s.serve q.pimNo 1).ptWrite p v.toNat).1 s (s.ptWrite p v.toNat).2)

/-- POINT_VALUE_READ. -/
def execPointValueRead (q : Req) (p : Fin 262144) (s : State) : Host.Outcome State Fault Refusal :=
  s.atMem (0x20000000 + 8 * p.val) true (pimDo ((s.ptReadValue q p).2.serve q.pimNo 1) s (.data (s.ptReadValue q p).1))

/-- POINT_STATUS_READ. -/
def execPointStatusRead (q : Req) (p : Fin 262144) (s : State) : Host.Outcome State Fault Refusal :=
  s.atMem (0x20000004 + 8 * p.val) true (pimDo ((s.ptReadSecond q p).2.serve q.pimNo 1) s (.data (s.ptReadSecond q p).1))

/-- IO_OUT_SNAPSHOT: the output points of an IO_OUT entry are read for its next brick (R230). -/
def execIoOutSnapshot (k : Fin 4) (i : Fin 1024) (s : State) : Host.Outcome State Fault Refusal :=
  let t := match s.bent k i with
    | some e => if e.type = 5 ∧ e.owner = 0 then (s.setRing k { s.ring k with snap := Store.put [] (s.ring k).snap i (s.ioOut k e) }).serve k (s.outCount k e) else s
    | none => s
  .next { s with rings := t.rings, pim := t.pim, bus := .none, outs := [] }

/-- One record of a resynchronisation pass or of the output log, applied at the standby to an output point; an output that was never written takes its reset value, and a stored value that is not finite is counted (R222, R235). -/
def State.resyncRec (s : State) (x : OutRec) : State :=
  match s.rng x.point with
  | some r =>
    if r.dir = 1 then
      let w := normPt r.type x.value
      let t := { s with pim := { s.pim with recs := Store.put none s.pim.recs x.point (x.course.map (fun c => ⟨w, qualOf r.type w, c⟩)) } }
      if x.course.isSome ∧ qualOf r.type w = 14 then t.count R.PIM_NONFIN_CNT_COUNT else t
    else s
  | none => s

/-- Every output record, in identifier order: what the holder's pass sends (R235). -/
def State.outRecs (s : State) : List OutRec :=
  s.pim.ranges.flatMap (fun r => if r.dir = 1 then (List.range r.count).map (fun i => ⟨r.first + i, (s.ptRec r (r.first + i)).1, (s.ptRec r (r.first + i)).2.2⟩) else [])

/-- OUTPUT_RESYNC_PASS: the holder sends every output record in identifier order; a standby in RESYNC applies the records given, and `last` ends the pass (R235). OUT_SYNC is set by the next copy of a course without overflow. -/
def execOutputResyncPass (recs : List OutRec) (last : Bool) (s : State) : Host.Outcome State Fault Refusal :=
  if s.mtr.paired && !s.mtr.holder && s.flag R.PIM_STAT_RESYNC then
    let t := (recs.foldl State.resyncRec s).serve 7 recs.length
    .next { s with pim := { t.pim with passDone := t.pim.passDone || last }, flds := t.flds, bus := .none, outs := [] }
  else
    let send := s.mtr.paired && s.mtr.holder
    .next { s with pim := (if send then s.serve 7 s.outRecs.length else s).pim, bus := .none, outs := if send then [.resync s.outRecs] else [] }

end Sys2Proof.Machine
end

