-- ==== Sys2Proof/Machine/Cap.lean ====
section
/-! DEFINITION. The capture engine: sources, rows, triggers, masks and segments (R240 to R262). -/
namespace Sys2Proof.Machine

/-- No history. -/
def CHist.init : CHist := ⟨false, false, none⟩

/-- A condition that is never met. -/
def CTrig.none_ : CTrig := ⟨0, 0, false, 0, 0, 0, 0⟩

/-- A set in IDLE. -/
def CapSet.init : CapSet :=
  { st := 0, mode := 0, clk := false, qual := false, comb := 0, maskAct := false, strDma := 0, chans := [], pre := 0, post := 0, segLen := 1, segs := 1, base := 0, size := 0, ta := CTrig.none_, tb := CTrig.none_, rowb := 0, tick := 1, t0 := 0, c0 := 0, every := 1, n := 0, ns := 0, pushed := none, seg := 0, stored := 0, trigAt := none, tInst := 0, preReal := 0, postN := 0, early := false, casc := false, viol := false, mark := none, ha := CHist.init, hb := CHist.init, aMet := none, fresh := true, evts := [], total := 0, closed := 0, drained := 0, doneCrs := none, missT := none, force := false, rearm := 0 }

/-- Set `m`. -/
def State.cset (s : State) (m : Nat) : CapSet := (Store.get none s.cap.sets m).getD CapSet.init

/-- Replace set `m`; its state shows in CAP_SETm_STAT. -/
def State.setCset (s : State) (m : Nat) (c : CapSet) : State :=
  { s with cap := { s.cap with sets := Store.put none s.cap.sets m (some c) } }.set (R.CAP_SET_STAT_STATE m) c.st

/-- The set records: FILLING, ARMED, POST, REARM or STREAMING. -/
def CapSet.open_ (c : CapSet) : Bool := decide (1 ≤ c.st ∧ c.st ≤ 5)

/-- The state as it reads: REARM ends by itself after its 1 µs (R256). -/
def CapSet.stNow (c : CapSet) (now : Nat) : Nat := if c.st = 4 ∧ c.rearm ≤ now then (if c.pre = 0 then 2 else 1) else c.st

/-- The set is in IDLE, DONE or STOPPED. -/
def CapSet.idle (c : CapSet) : Bool := !c.open_

/-! Sources (R243). -/

/-- The format of an axis signal: 0 S64, 1 FP32, 2 U32. -/
def sigFmt (sig : Nat) : Nat := if sig = 1 ∨ sig = 2 ∨ sig = 5 then 0 else if sig = 0xB ∨ sig = 0xC ∨ sig = 0xD then 2 else 1

/-- The node that feeds a network axis. -/
def State.axNode (s : State) (a : Nat) : Option Node :=
  [0, 1, 2, 3].findSome? (fun k =>
    (((s.ring k).map.map mapEl).find? (fun m => m.kind == 0 && m.item == a)).bind (fun m => (s.ring k).node m.node))

/-- The value of an axis signal in the present course (R243). -/
def State.axSignal (s : State) (a sig : Nat) : Nat :=
  let f := (Store.get none s.cap.inForce a).getD (0, 0, 0)
  let rec0 := axBlock a + 0xF00
  let fb := match s.axSlot a with
    | some (n, sl) => leData n + sl * 0x100 + s.crs.cnt % 2 * 0x20
    | none => 0
  match sig with
  | 1 => ux 64 f.1
  | 2 => ux 64 (s.ax a).actPos
  | 3 => f.2.1
  | 4 => f.2.2
  | 5 => s.load (rec0 + 8) 8
  | 6 => s.load (rec0 + 20) 4
  | 7 => s.load (rec0 + 24) 4
  | 8 => s.load (rec0 + 28) 4
  | 9 => s.load (rec0 + 36) 4
  | 0xA => s.load (fb + 8) 4
  | 0xB => s.load (fb + 12) 4
  | 0xC => (s.ax a).st.code
  | _ => s.get (R.STP_STAT_SLOPE_AVG (a - 192))

/-- A point's value as FP32, or NaN when it is not GOOD. -/
def State.ptF32 (s : State) (p : Nat) : Nat :=
  if s.ptQual p % 4 ≠ 0 then 0x7FC00000
  else
    let v := s.ptValue p
    match s.ptType p with
    | 5 => v
    | 2 => f32OfInt (sx 32 v)
    | 4 => f32OfInt (sx 32 v)
    | _ => f32OfInt (v : Int)

/-- A corrected conversion as volts: code × 1.2 / 4096 (R243). -/
def adcVolts (code : Nat) : Nat := f32OfRat ((code : Rat) * 12 / 40960)

/-- The level of a trigger pin at an instant, from its edges. -/
def State.pinAt (s : State) (m t : Nat) : Bool :=
  match s.cap.edges.find? (fun e => e.1 == m && decide (e.2.1 ≤ t)) with
  | some e => e.2.2
  | none =>
    match s.cap.edges.reverse.find? (fun e => e.1 == m) with
    | some e => !e.2.2
    | none => s.cap.pins.getD m false

/-- An axis signal code applies to an axis (R243). -/
def State.sigOk (s : State) (a sig : Nat) : Bool :=
  decide (1 ≤ sig ∧ sig ≤ 0xD) &&
  (if 5 ≤ sig ∧ sig ≤ 0xB then decide (a < 192) else if sig = 0xD then decide (192 ≤ a) && !s.flag (R.STP_CFG_MODE (a - 192)) else true)

/-! Arming (R244, R245, R246, R250). -/

/-- A trigger condition from the registers. -/
def State.ctrig (s : State) (m : Nat) (second : Bool) : CTrig :=
  if second then ⟨s.get (R.CAP_SET_TRIGB_KIND m), s.get (R.CAP_SET_TRIGB_CH m), s.flag (R.CAP_SET_TRIGB_PIN_FALL m), s.get (R.CAP_SET_TRIGB_AXIS m), s.get (R.CAP_SET_TRIGB_EVT m), s.get (R.CAP_SET_B_P1_P m), s.get (R.CAP_SET_B_P2_P m)⟩
  else ⟨s.get (R.CAP_SET_TRIGA_KIND m), s.get (R.CAP_SET_TRIGA_CH m), s.flag (R.CAP_SET_TRIGA_PIN_FALL m), s.get (R.CAP_SET_TRIGA_AXIS m), s.get (R.CAP_SET_TRIGA_EVT m), s.get (R.CAP_SET_A_P1_P m), s.get (R.CAP_SET_A_P2_P m)⟩

/-- AUTO of a channel: the arrival offset of the axis's node in the sense of its last feedback, else 0 (R245). -/
def State.capAuto (s : State) (kind item : Nat) : Int :=
  if kind = 1 ∧ item < 192 then
    match s.axNode item with
    | some n => if n.fbWest then n.ofsW else n.ofsE
    | none => 0
  else 0

/-- q in units of 1/256 row: tag minus grid instant plus D over T, ties to even (R246). -/
def State.capQ (s : State) (kind sig : Nat) (d : Int) (tick : Nat) : Int :=
  let tag : Int := if kind = 1 ∧ sig = 9 then (s.get R.BOND_CRS_TA_TA_NS : Int) - (s.get R.BOND_CRS_TS_TS_NS : Int) else 0
  if kind = 3 then 0 else rne (((tag + d) * 256 : Int) / (tick : Rat))

/-- A channel as read at arming. -/
def State.cch (s : State) (c tick : Nat) : CCh :=
  let kind := s.get (R.CAP_CH_SRC_KIND c)
  let item := s.get (R.CAP_CH_SRC_ITEM c)
  let sig := s.get (R.CAP_CH_SRC_SIG c)
  let trim := sx 24 (s.get (R.CAP_CH_TRIM_TRIM c))
  let auto := s.capAuto kind item
  { c := c, kind := kind, item := item, sig := sig, trim := trim, auto := auto, q := s.capQ kind sig (auto + trim) tick,
    addr := s.get (R.CAP_CH_MASK_ADDR_ADDR c), len := s.get (R.CAP_CH_MASK_CFG_LEN c), cyc := s.flag (R.CAP_CH_MASK_CFG_CYCLIC c),
    fmt := if kind = 1 then sigFmt sig else if kind = 4 then 2 else 1, xs := [], y := none, now := none }

/-- The bytes of a value. -/
def CCh.width (x : CCh) : Nat := if x.fmt = 0 then 8 else 4

/-- The end of a row's channels from offset `o` (R248). -/
def rowEnd : List CCh → Nat → Nat
  | [], o => (o + 7) / 8 * 8
  | x :: r, o => rowEnd r ((if x.fmt = 0 then (o + 7) / 8 * 8 else o) + x.width)

/-- The length of a segment: header, rows, rounded up to 64 bytes (R248). -/
def CapSet.segBytes (c : CapSet) : Nat := (64 + c.segLen * c.rowb + 63) / 64 * 64

/-- The set as its configuration registers give it, at the start of the present course. -/
def State.csetRead (s : State) (m : Nat) : CapSet :=
  let clk := s.flag (R.CAP_SET_CFG_CLK m)
  let per := s.get (R.CAP_SET_PERIOD_PER m)
  let every := per + 1
  let tick := if clk then per * 4 else every * s.get R.BOND_CRS_PERIOD_PERIOD_NS
  let chs := ((List.range 32).filter (fun c => bit (s.get (R.CAP_SET_CHANS_CHANS m)) c && s.get (R.CAP_CH_SRC_KIND c) != 0)).map (fun c => s.cch c (max 1 tick))
  { CapSet.init with st := (s.cset m).st, missT := (s.cset m).missT, mode := s.get (R.CAP_SET_CFG_MODE m), clk := clk, qual := s.flag (R.CAP_SET_CFG_TRIG_QUAL m), comb := s.get (R.CAP_SET_CFG_COMB m), maskAct := s.flag (R.CAP_SET_CFG_MASK_ACT m), strDma := s.get (R.CAP_SET_CFG_STR_DMA m), chans := chs, pre := s.get (R.CAP_SET_PRE_PRE m), post := s.get (R.CAP_SET_POST_POST m), segLen := s.get (R.CAP_SET_SEGLEN_SEG_LEN m), segs := s.get (R.CAP_SET_SEGS_SEGS m), base := s.get (R.CAP_SET_BASE_BASE m), size := s.get (R.CAP_SET_SIZE_SIZE m), ta := s.ctrig m false, tb := s.ctrig m true, rowb := rowEnd chs 0, tick := max 1 tick, every := every, c0 := s.crs.cnt, t0 := if clk then s.crs.start else s.crs.start + s.get R.BOND_CRS_TS_TS_NS }

/-- The other sets that are not IDLE. -/
def State.otherSets (s : State) (m : Nat) : List CapSet :=
  (List.range 8).filterMap (fun j => if j ≠ m ∧ (s.cset j).st ≠ 0 then some (s.cset j) else none)

/-- A condition's fields are valid (code 6). -/
def CTrig.ok (t : CTrig) (c : CapSet) : Bool :=
  decide (t.kind ≤ 11) &&
  (!(decide (1 ≤ t.kind ∧ t.kind ≤ 7) || t.kind == 9) || c.chans.any (fun x => x.c == t.ch)) &&
  (t.kind != 10 || decide (t.ch ≤ 3)) && (t.kind != 8 || decide (t.axis ≤ 239)) &&
  (!(decide (3 ≤ t.kind ∧ t.kind ≤ 5)) || !(f32Neg t.p2 && !f32Zero t.p2)) &&
  (!(t.kind == 6 || t.kind == 7) || !f32Lt t.p2 t.p1)

/-- The captured inputs of monitoring ADC `j` in some sets, each once (R162, R247). -/
def adcInputs (cs : List CapSet) (j : Nat) : List Nat :=
  (cs.flatMap (fun c => c.chans.filterMap (fun x => if x.kind = 3 ∧ x.item / 8 = j then some x.item else none))).eraseDups

/-- Some of these fast sets breaks R247: its SPER is below m µs for an ADC whose captured inputs, over all of them, are m. -/
def adcBreach (cs : List CapSet) : Bool :=
  (List.range 12).any (fun j => cs.any (fun c => !(adcInputs [c] j).isEmpty && decide (c.tick < 1000 * (adcInputs cs j).length)))

/-- The first failing check of R250, codes 1 to 8; MODE 3 gives code 8 whatever else fails (R264). Code 7 counts the STR_DMA of streaming sets alone, and both conditions are checked whatever COMB (DESIGN CHOICE, log entry 39). -/
def State.armCode (s : State) (m : Nat) (c : CapSet) : Nat :=
  let stream := c.mode == 2
  let others := s.otherSets m
  let lo := c.base
  let hi := c.base + c.size
  if c.mode == 3 then 8
  else if !stream && (c.post == 0 || decide (c.segLen < c.pre + c.post)) then 1
  else if decide (c.size < c.segs * c.segBytes) || decide (0x400000 < hi) || c.base % 64 != 0 ||
      others.any (fun o => decide (lo < o.base + o.size) && decide (o.base < hi)) then 2
  else if c.chans.isEmpty || (List.range 8).any (fun j => j != m && s.get (R.CAP_SET_CHANS_CHANS j) &&& s.get (R.CAP_SET_CHANS_CHANS m) != 0) || c.chans.any (fun x =>
      (match x.kind with
       | 1 => c.clk || !s.axisExists x.item || !s.sigOk x.item x.sig
       | 2 => c.clk || (s.rng x.item).isNone
       | 3 => !c.clk || decide (96 ≤ x.item)
       | 4 => !c.clk || decide (4 ≤ x.item)
       | _ => true)) then 3
  else if c.chans.any (fun x => decide (16 * 256 < x.q.natAbs)) then 4
  else if c.chans.any (fun x => x.len != 0 && (x.fmt == 0 || x.addr % 8 != 0 || decide (x.addr < 0x10000000) || decide (0x10200000 < x.addr + 8 * x.len) || decide (4096 < x.len) || (c.maskAct && !x.cyc))) then 5
  else if !(c.ta.ok c) || !(c.tb.ok c) then 6
  else if stream && (decide (c.segs < 2) || others.any (fun o => o.mode == 2 && o.strDma == c.strDma)) then 7
  else if (if c.clk then decide (c.tick < 500 ∨ 1000000 < c.tick) else decide (65536 < c.every)) ||
      (c.clk && adcBreach (c :: others.filter (fun o => o.open_ && o.clk))) ||
      decide (c.segs < 1 ∨ 4096 < c.segs) || (c.mode == 0 && c.segs != 1) then 8
  else 0

/-- The set has a trigger condition. -/
def CapSet.hasTrig (c : CapSet) : Bool := c.ta.kind != 0 || (c.comb != 0 && c.tb.kind != 0)

/-- ARM is sampled (R250). -/
def State.capArm (s : State) (m : Nat) : State :=
  let s0 := s.setFlag (R.CAP_SET_CTRL_ARM m) false
  let bad (code : Nat) : State := ((s0.setFlag (R.CAP_SET_STAT_ARM_ERR m) true).set (R.CAP_SET_STAT_ARM_CODE m) code)
  if !(s.cset m).idle then bad 9
  else
    let c := s.csetRead m
    let code := s.armCode m c
    if code ≠ 0 then bad code
    else
      let st := if c.mode = 2 ∧ c.hasTrig = false then 5 else if c.pre = 0 then 2 else 1
      let s1 := c.chans.foldl (fun u x => (u.set (R.CAP_CH_AUTO_AUTO x.c) (ux 24 x.auto)).set (R.CAP_CH_Q_Q x.c) (ux 14 x.q)) s0
      (s1.set (R.CAP_SET_SEGCNT_COUNT m) 0).setCset m { c with st := st }

/-! Row values (R246, R248). -/

/-- A finite or infinite pattern on a common integer scale; infinities lie beyond every finite value. -/
def f32Ord (x : Nat) : Int := if f32Inf x then (if f32Neg x then -(2 ^ 300) else 2 ^ 300) else f32Int x

/-- xb + f (xa − xb) in FP32, formed exactly and rounded once (DESIGN CHOICE, log entry 39: R246 names no roundings within it); a NaN or opposite infinities give NaN. -/
def lerpF32 (xb xa : Nat) (f : Rat) : Nat :=
  if f32NaN xa || f32NaN xb then 0x7FC00000
  else if f32Inf xa && f32Inf xb then (if xa = xb then xa else 0x7FC00000)
  else if f32Inf xa then xa
  else if f32Inf xb then xb
  else f32OfRat (f32Rat xb + (f32Rat xa - f32Rat xb) * f)

/-- The value between two raw samples: weight `f` on the earlier one (R246). -/
def lerp (fmt later earlier : Nat) (f : Rat) : Nat :=
  match fmt with
  | 0 => ux 64 (sx 64 later + rne (((sx 64 earlier - sx 64 later : Int) : Rat) * f))
  | 2 => if 1 ≤ 2 * f then earlier else later
  | _ => lerpF32 later earlier f

/-- The conversions of an ADC input, newest first. -/
def State.convsOf (s : State) (item : Nat) : List (Nat × Nat) := s.cap.convs.filterMap (fun x => if x.1 = item then some x.2 else none)

/-- The value of an ADC channel at an instant: between the two conversions whose true instants bracket it; none until the later one has come. A missing earlier one leaves the value free. -/
def State.adcRow (s : State) (x : CCh) (t : Nat) : Option Nat :=
  let cs : List (Int × Nat) := (s.convsOf x.item).map (fun c => ((c.1 : Int) + x.auto + x.trim, c.2))
  match cs.reverse.find? (fun c => decide ((t : Int) ≤ c.1)) with
  | none => none
  | some b =>
    if b.1 = (t : Int) then some b.2
    else match cs.find? (fun c => decide (c.1 < (t : Int))) with
      | none => some (Config.freeNat s.free % 2 ^ 32)
      | some a => some (lerpF32 a.2 b.2 (((t : Int) - a.1 : Rat) / ((b.1 - a.1 : Int) : Rat)))

/-- Raw sample `j` of a regular source; none before the first sample was taken, whose value is then free. -/
def State.rawAt (s : State) (c : CapSet) (x : CCh) (j : Int) : Nat :=
  if x.kind = 4 then b2n (s.pinAt x.item ((c.t0 : Int) + j * (c.tick : Int)).toNat)
  else if j < 0 then Config.freeNat s.free % 2 ^ 32
  else x.xs.getD (c.ns - 1 - j.toNat) (Config.freeNat s.free % 2 ^ 32)

/-- The value of a channel in row `c.n`; none while its later bracketing sample is missing. -/
def State.rowVal (s : State) (c : CapSet) (x : CCh) : Option Nat :=
  let t := c.t0 + c.n * c.tick
  if x.kind = 3 then s.adcRow x t
  else
    let i := x.q / 256
    let f : Rat := (x.q % 256 : Int) / 256
    let j : Int := (c.n : Int) - i
    let have_ : Bool := if x.kind = 4 then decide ((c.t0 : Int) + j * (c.tick : Int) ≤ (s.now : Int)) else decide (j < (c.ns : Int))
    if !have_ then none
    else if x.q % 256 = 0 then some (s.rawAt c x j)
    else some (lerp x.fmt (s.rawAt c x j) (s.rawAt c x (j - 1)) f)

/-- The bytes of a row's values from offset `o` (R248). -/
def rowBytes : List (CCh × Nat) → Nat → List Nat
  | [], o => List.replicate ((o + 7) / 8 * 8 - o) 0
  | (x, v) :: r, o =>
    let o' := if x.fmt = 0 then (o + 7) / 8 * 8 else o
    List.replicate (o' - o) 0 ++ leBytes v x.width ++ rowBytes r (o' + x.width)

/-- A value as FP32 for conditions and masks (R252). -/
def CCh.f32 (x : CCh) (v : Nat) : Nat := if x.fmt = 0 then f32OfInt (sx 64 v) else if x.fmt = 2 then f32OfInt (v : Int) else v

/-! Triggers (R251 to R253). -/

/-- The instant at which the line between two rows crosses a threshold (R253). -/
def crossing (t : Nat) (tick : Nat) (p : Int) (y0 : Option Nat) (y1 : Nat) : Nat :=
  match y0 with
  | some a =>
    if f32Fin a && f32Fin y1 && f32Ord a != f32Ord y1 then
      (rne ((t : Rat) - tick + (tick : Rat) * ((p - f32Ord a : Int) : Rat) / ((f32Ord y1 - f32Ord a : Int) : Rat))).toNat
    else t
  | none => t

/-- A level condition on row value `y` after `y0`: its instant when it is met. -/
def levelMet (above : Bool) (p1 : Nat) (y0 : Option Nat) (y t tick : Nat) : Option Nat :=
  let p := f32Ord p1
  let met (v : Nat) : Bool := !f32NaN v && !f32NaN p1 && (if above then decide (p < f32Ord v) else decide (f32Ord v < p))
  if met y then
    some (if (match y0 with | some a => !met a | none => false) then crossing t tick p y0 y else t)
  else none

/-- Conditions of kinds 3 to 7 on a row: the history after it, and the instant when met. -/
def histMet (k p1 p2 : Nat) (h : CHist) (y0 : Option Nat) (y t tick : Nat) : CHist × Option Nat :=
  if f32NaN y || f32NaN p1 || f32NaN p2 then (CHist.init, none)
  else
    let a := f32Ord p1
    let b := f32Ord p2
    let v := f32Ord y
    let rise := h.low && decide (a ≤ v)
    let fall := h.high && decide (v ≤ a)
    let inside := decide (a ≤ v ∧ v ≤ b)
    let h' : CHist := ⟨(h.low && !rise) || decide (v ≤ a - b), (h.high && !fall) || decide (a + b ≤ v), some inside⟩
    let bound : Int := match y0 with
      | some z => if inside then (if f32Ord z < a then a else b) else (if b < v then b else a)
      | none => a
    let hit := match k with
      | 3 => rise
      | 4 => fall
      | 5 => rise || fall
      | 6 => inside && h.inside == some false
      | _ => !inside && h.inside == some true
    -- the row before failed the threshold that this row meets (R253)
    let failed := decide (6 ≤ k) || (match y0 with | some z => if rise then decide (f32Ord z < a) else decide (a < f32Ord z) | none => false)
    (h', if hit then some (if failed then crossing t tick (if k ≤ 5 then a else bound) y0 y else t) else none)

/-- An event of kind 8, 10 or 11 that a condition takes at or before `t`; for a course set an axis event belongs to the row's own course. -/
def CapSet.evtMet (c : CapSet) (g : CTrig) (t : Nat) : Option Nat :=
  (c.evts.find? (fun e => e.kind == g.kind && decide (e.t ≤ t) &&
    (match g.kind with
     | 8 => e.src == g.axis && e.sel == g.evt && (c.clk || e.t == t)
     | 10 => e.src == g.ch && e.sel == (if g.fall then 0 else 1)
     | _ => true))).map CEvt.t

/-- One condition on a row: its history after the row, and its instant when met. `viol` are the channels that violate their masks with MASK_ACT = 1. -/
def CapSet.condMet (c : CapSet) (g : CTrig) (h : CHist) (vals : List (CCh × Nat)) (viol : List Nat) (t : Nat) : CHist × Option Nat :=
  match vals.find? (fun x => x.1.c == g.ch) with
  | some (x, v) =>
    let y := x.f32 v
    let y0 := if c.fresh then none else x.y
    match g.kind with
    | 1 => (h, levelMet true g.p1 y0 y t c.tick)
    | 2 => (h, levelMet false g.p1 y0 y t c.tick)
    | 8 => (h, c.evtMet g t)
    | 9 => (h, if viol.contains g.ch then some t else none)
    | 10 => (h, c.evtMet g t)
    | 11 => (h, c.evtMet g t)
    | 0 => (h, none)
    | k => histMet k g.p1 g.p2 h y0 y t c.tick
  | none => (h, if 8 ≤ g.kind ∧ g.kind ≠ 9 then c.evtMet g t else none)

/-- The combination of two conditions (R251, R253): whether it is met and at which instant; `aMet` is A's occurrence so far. -/
def combMet (comb : Nat) (a b aMet : Option Nat) : Option Nat :=
  match comb with
  | 0 => a
  | 1 => match a, b with | some x, some y => some (min x y) | some x, none => some x | none, o => o
  | 2 => match a, b with | some x, some y => some (max x y) | _, _ => none
  | _ => match aMet.or a, b with | some _, some y => some y | _, _ => none

/-! Segments (R248, R249, R254 to R260). -/

/-- The address of segment `sg` of a set. -/
def CapSet.segAddr (c : CapSet) (sg : Nat) : Nat := 0x40000000 + c.base + sg * c.segBytes

/-- The present course in the grid: where it does not go on evenly from the last entry, it is a new one. Earlier entries are kept while a fast set records. -/
def State.noteGrid (s : State) : State :=
  let p := s.get R.BOND_CRS_PERIOD_PERIOD_NS
  let e := (s.crs.cnt, s.crs.start, p)
  let even := match s.cap.grids with | (c0, t0, p0) :: _ => p0 == p && decide (c0 ≤ s.crs.cnt) && t0 + (s.crs.cnt - c0) * p0 == s.crs.start | [] => false
  let busy := (List.range 8).any (fun m => (s.cset m).open_ && (s.cset m).clk)
  if !busy then { s with cap := { s.cap with grids := [e] } } else if even then s else { s with cap := { s.cap with grids := e :: s.cap.grids } }

/-- The course of an instant, by the grid that was in force then (R249). -/
def State.crsOf (s : State) (t : Nat) : Nat :=
  match s.cap.grids.find? (fun e => decide (e.2.1 ≤ t)) with
  | some (c0, t0, p) => c0 + (t - t0) / max 1 p
  | none => match s.cap.grids.getLast? with
    | some (c0, t0, p) => c0 - ceilDiv (t0 - t) (max 1 p)
    | none => s.crs.cnt

/-- The rows a closing segment holds: their number, and the index of the oldest. -/
def CapSet.extent (c : CapSet) : Nat × Nat :=
  match c.trigAt with
  | some g => if c.mode = 2 ∧ 0 < c.closed then (c.stored, 0) else (c.stored - (g - c.preReal), g - c.preReal)
  | none => (min c.stored c.segLen, c.stored - min c.stored c.segLen)

/-- The 64-byte header of a segment (R249); `flags` is its FLAGS byte. MARK_CH reads 0xFF where no mark stands (DESIGN CHOICE, log entry 39). -/
def State.capHeader (s : State) (c : CapSet) (flags : Nat) (ovf : Bool) : List (Nat × BitVec 8) :=
  let (rows, first) := c.extent
  let head := c.trigAt.isSome && (c.mode != 2 || c.closed == 0)
  let t := c.t0 + (c.n - rows) * c.tick
  let crs := if c.clk then s.crsOf t else c.c0 + (c.n - rows) * c.every
  let trow := match c.trigAt with | some g => if head then g - first else 0xFFFFFFFF | none => 0xFFFFFFFF
  let mrow := if ovf then rows else match c.mark with | some (r, _) => if r < first then 0xFFFFFFFF else r - first | none => 0xFFFFFFFF
  let mch := if ovf then 0xFF else match c.mark with | some (_, h) => h | none => 0xFF
  let a := c.segAddr c.seg
  cells a (if head then c.tInst else 0) 8 ++ cells (a + 8) t 8 ++ cells (a + 16) crs 8 ++ cells (a + 24) c.tick 4 ++
  cells (a + 28) rows 4 ++ cells (a + 32) (first % max 1 c.segLen) 4 ++ cells (a + 36) (if head then c.preReal else 0) 4 ++
  cells (a + 40) mrow 4 ++ cells (a + 44) mch 1 ++
  cells (a + 45) (b2n head + 2 * b2n (head && c.early) + 4 * b2n c.viol + 8 * b2n ovf + 128 * b2n (head && c.casc) + flags) 1 ++
  cells (a + 46) c.seg 2 ++ cells (a + 48) c.rowb 4 ++ cells (a + 52) trow 4 ++ cells (a + 56) 0 8

/-- Close the segment under way with its header; SEGCNT advances, and a streaming block asks for its DMA channel (R249, R258). -/
def State.capClose (s : State) (m flags : Nat) (ovf : Bool) : State :=
  let c := s.cset m
  let s1 := s.poke (s.capHeader c flags ovf)
  let s2 := s1.set (R.CAP_SET_SEGCNT_COUNT m) (s1.get (R.CAP_SET_SEGCNT_COUNT m) + 1)
  let s3 := if c.mode = 2 then { s2 with cap := { s2.cap with reqs := s2.cap.reqs ++ [m] } } else s2
  s3.setCset m { c with closed := c.closed + 1 }

/-- The set enters DONE (6) or STOPPED (7). -/
def State.capEnd (s : State) (m st : Nat) : State :=
  ((s.setFlag (R.CAP_SET_CTRL_FORCE m) false).setCset m { s.cset m with st := st, evts := [], force := false }).orFld R.CAP_STAT_DONE (2 ^ m)

/-- A new segment begins in FILLING. -/
def CapSet.next (c : CapSet) : CapSet :=
  { c with st := if c.pre = 0 then 2 else 1, seg := c.seg + 1, stored := 0, trigAt := none, tInst := 0, preReal := 0, postN := 0, early := false, casc := false, viol := false, mark := none, ha := CHist.init, hb := CHist.init, aMet := none, fresh := true }

/-- A segment is complete (R254, R256). -/
def State.capComplete (s : State) (m : Nat) : State :=
  let s1 := s.capClose m 0 false
  let c : CapSet := { s1.cset m with doneCrs := some s.crs.cnt }
  if c.mode = 1 ∧ c.seg + 1 < c.segs then s1.setCset m { c with st := 4, rearm := s.now + 1000 } else (s1.setCset m c).capEnd m 6

/-- An event reaches the sets whose conditions name its kind. One whose instant falls in the 1 µs of REARM is missed and counts, where it would trigger by itself; one of the POST before is neither acted on nor counted (R256). -/
def State.capEvent (s : State) (e : CEvt) : State :=
  (List.range 8).foldl (fun u m =>
    let c := u.cset m
    let names (g : CTrig) : Bool := g.kind == e.kind && (match e.kind with | 8 => g.axis == e.src && g.evt == e.sel | 10 => g.ch == e.src && (e.sel == 0) == g.fall | _ => true)
    if !(c.open_ && (names c.ta || names c.tb)) then u
    else if c.st = 4 ∧ e.t + 1000 < c.rearm then u
    else if c.st = 4 ∧ e.t < c.rearm then
      if !((c.comb ≤ 1 && names c.ta) || (c.comb == 1 && names c.tb)) then u else
      let u1 := u.count (R.CAP_SET_MISS_CNT_MISSED_TRIG m)
      u1.setCset m { c with missT := c.missT.or (some e.t) }
    else if c.st = 3 then u
    else u.setCset m { c with evts := c.evts ++ [e] }) s

/-- A cascade trigger event reaches the capture engine, from another stop or as the own one (R261, R354). -/
def State.casTrig (s : State) (t sender : Nat) : State :=
  let u := (s.setFlag R.CAP_CASC_IN_SEEN true).set R.CAP_CASC_IN_POS sender
  ({ u with cap := { u.cap with cascT := t % 2 ^ 64 } }).capEvent ⟨11, 0, 0, t % 2 ^ 64⟩

/-- The set's trigger is sent as a cascade event, to the other stops by a HOLDER and to the own sets at once (R261, R349, R354). -/
def State.sendTrig (s : State) (m t : Nat) : State :=
  let pos := s.get R.CAS_CFG_POS
  let u := s.casTrig t pos
  if s.flag R.CAS_CFG_EN && (!s.mtr.paired || s.mtr.holder) then u.casAsk 4 0xFF (leBytes t 8 ++ [pos, m, 0, 0]) else u

/-- The set triggers at an instant, `back` rows before the row just stored (R253 to R255, R261, R262). -/
def State.capTrigger (s : State) (m inst : Nat) (early casc : Bool) (back : Nat) : State :=
  let c := s.cset m
  let g := c.stored - 1 - back
  let held := min g (c.segLen - 1 - back)
  let d := { c with trigAt := some g, tInst := inst, preReal := min c.pre held, postN := back + 1, early := early || decide (min c.pre held < c.pre), casc := casc, st := if c.st = 5 then 5 else 3 }
  let s1 := (s.setCset m d).orFld R.CAP_STAT_TRIG (2 ^ m)
  let s2 := if s1.flag R.CAP_CASC_OUT_EN && s1.get R.CAP_CASC_OUT_SET == m then s1.sendTrig m inst else s1
  let pin (u : State) (i : Nat) (en st : Fld) : State :=
    if u.flag en && u.get st == m then { u with cap := { u.cap with pulses := Store.put 0 u.cap.pulses i (u.now + 1000) } }.emit (.trigOut i true) else u
  pin (pin (pin (pin s2 0 R.CAP_TRIGOUT_EN0 R.CAP_TRIGOUT_SET0) 1 R.CAP_TRIGOUT_EN1 R.CAP_TRIGOUT_SET1) 2 R.CAP_TRIGOUT_EN2 R.CAP_TRIGOUT_SET2) 3 R.CAP_TRIGOUT_EN3 R.CAP_TRIGOUT_SET3

/-- The channels whose masks a row violates, in ascending order (R257): `fromTrig` counts the rows from the trigger row on. -/
def State.capViols (s : State) (c : CapSet) (vals : List (CCh × Nat)) (fromTrig : Option Nat) : List Nat :=
  (vals.filter (fun (x, v) =>
    let j : Option Nat := if x.len = 0 then none else if x.cyc then some (c.total % x.len) else match fromTrig with | some k => if k < x.len then some k else none | none => none
    match j with
    | none => false
    | some j =>
      let y := x.f32 v
      let hi := s.load (x.addr + 8 * j) 4
      let lo := s.load (x.addr + 8 * j + 4) 4
      !f32Fin y || (!f32NaN hi && decide (f32Ord hi < f32Ord y)) || (!f32NaN lo && decide (f32Ord y < f32Ord lo)))).map (fun x => x.1.c)

/-- The course's sample of a channel of a course set stands: the profile tick has run, and the loop whose signal it is has; a point's was taken at the sample instant (R245, R246). -/
def State.capReady (s : State) (x : CCh) : Bool :=
  if x.kind = 1 then s.crs.tick.isNone && (!(decide (5 ≤ x.sig ∧ x.sig ≤ 9)) || s.load (axBlock x.item + 0xF04) 4 == s.crs.cnt % 2 ^ 32) else x.now.isSome

/-- The present course is one of a course set's grid (R244). -/
def State.onGrid (s : State) (c : CapSet) : Bool := !c.clk && decide (c.c0 ≤ s.crs.cnt) && (s.crs.cnt - c.c0) % max 1 c.every == 0

/-- Every channel's sample of the course stands, and the profile tick has run where a condition awaits its events (R245, R251). -/
def State.capStands (s : State) (c : CapSet) : Bool := c.chans.all s.capReady && ((c.ta.kind != 8 && c.tb.kind != 8) || s.crs.tick.isNone)

/-- A raw sample of the course is taken for a course set, once per grid course (R244): when every channel's stands, or at the course's end (`last`). -/
def State.capPush (s : State) (m : Nat) (last : Bool) : State :=
  let c := s.cset m
  if c.open_ && (last || s.capStands c) && s.onGrid c && c.pushed != some s.crs.cnt then
    s.setCset m { c with ns := c.ns + 1, pushed := some s.crs.cnt, chans := c.chans.map (fun x => { x with now := none, xs := ((if x.kind = 1 then s.axSignal x.item x.sig else x.now.getD (s.ptF32 x.item)) :: x.xs).take (40 + (c.ns - c.n)) }) }
  else s

/-- SAMPLE_INSTANT for capture: the process points of the course sets whose grid this course is on are read at the grid instant (R245). -/
def State.capInstant (s : State) : State :=
  (List.range 8).foldl (fun u m =>
    let c := u.cset m
    if c.open_ && u.onGrid c && c.chans.any (fun x => x.kind == 2) then
      (u.setCset m { c with chans := c.chans.map (fun x => if x.kind = 2 then { x with now := some (u.ptF32 x.item) } else x) }).serve 6 (c.chans.filter (fun x => x.kind == 2)).length
    else u) s

/-- Store a row's bytes in the segment under way. -/
def State.capStore (s : State) (m : Nat) (vals : List (CCh × Nat)) : State :=
  let c := s.cset m
  let a := c.segAddr c.seg + 64 + (c.stored % max 1 c.segLen) * c.rowb
  let b := rowBytes vals 0
  let cellsOf := (b.zipIdx).map (fun (v, i) => (a + i, BitVec.ofNat 8 v))
  (s.poke cellsOf).setCset m { c with stored := c.stored + 1 }

/-- After a row has been stored in POST or STREAMING: the segment, block or record may be complete (R254, R258). -/
def State.capFull (s : State) (m : Nat) : State :=
  let c := s.cset m
  if c.mode ≠ 2 then (if c.st = 3 ∧ c.post ≤ c.postN then s.capComplete m else s)
  else if c.st ≠ 5 ∧ c.st ≠ 3 then s
  else if c.trigAt.isSome ∧ c.post ≠ 0 ∧ c.post ≤ c.postN then
    let s1 := s.capClose m 0 false
    (s1.setCset m { s1.cset m with doneCrs := some s.crs.cnt }).capEnd m 6
  else if c.segLen ≤ c.extent.1 then
    let s1 := s.capClose m 0 false
    let d := s1.cset m
    s1.setCset m { d with seg := (d.seg + 1) % max 1 d.segs, stored := 0, mark := none }
  else s

/-- An edge that a row at `t` has to judge may still be part of a pulse shorter than 20 ns (R253). -/
def State.pinsWait (s : State) (c : CapSet) (t : Nat) : Bool :=
  s.cap.pend.any (fun e => decide (e.2.1 ≤ t) && ((c.ta.kind == 10 && c.ta.ch == e.1) || (c.tb.kind == 10 && c.tb.ch == e.1) || c.chans.any (fun x => x.kind == 4 && x.item == e.1)))

/-- The condition of kind 9 that has met, by the channel it names (R257). -/
def CapSet.maskMet (c : CapSet) (ra rb : Option Nat) : Option Nat :=
  if c.ta.kind = 9 ∧ ra.isSome = true then some c.ta.ch else if c.comb ≠ 0 ∧ c.tb.kind = 9 ∧ rb.isSome = true then some c.tb.ch else none

/-- A trigger of a row whose instant falls in the REARM before this segment is ignored, and counted with the first such instant; one in the POST before it is not counted either (R256). -/
def State.capMissed (s : State) (m inst : Nat) : State :=
  let c := s.cset m
  if inst + 1000 < c.rearm then s else (s.count (R.CAP_SET_MISS_CNT_MISSED_TRIG m)).setCset m { c with missT := c.missT.or (some inst) }

/-- The next row of a set is formed, stored and judged, once its bracketing samples have arrived (R246 to R258). A row whose instant falls in REARM is the next segment's, and FORCE waits for the first row after REARM (DESIGN CHOICE, log entry 50). -/
def State.capForm (s : State) (m : Nat) : State :=
  let c0 := s.cset m
  if !c0.open_ then s
  else
    let c := if c0.st = 4 then c0.next else c0
    let t := c.t0 + c.n * c.tick
    let vals := c.chans.filterMap (fun x => (s.rowVal c x).map (fun v => (x, v)))
    if decide (vals.length ≠ c.chans.length) || s.pinsWait c t then s
    else if (c.st = 5 ∨ (c.st = 3 ∧ c.mode = 2)) ∧ c.stored = 0 ∧ c.segs ≤ c.closed - c.drained ∧ 0 < c.closed then
      -- the next row would fall in a block not yet drained (R258): the block before it is marked
      let last := { c with seg := (c.seg + c.segs - 1) % max 1 c.segs, stored := c.segLen }
      ((s.poke (s.capHeader { last with closed := c.closed - 1 } 0 true)).setFlag (R.CAP_SET_STAT_OVF m) true).capEnd m 7
    else
      let before := c.stored
      let st := if c.st = 1 ∧ c.pre ≤ before then 2 else c.st
      let viols := s.capViols c vals (match c.trigAt with | some _ => some c.postN | none => none)
      let v1 := if c.maskAct then viols else []
      let ra := c.condMet c.ta c.ha vals v1 t
      let rb := c.condMet c.tb c.hb vals v1 t
      let force := c.force && decide (c.rearm ≤ t)
      let inst := if force then some t else combMet c.comb ra.2 rb.2 c.aMet
      let cascMet : Bool := !force && ((c.ta.kind == 11 && ra.2.isSome) || (c.comb != 0 && c.tb.kind == 11 && rb.2.isSome))
      let back := if cascMet then (match inst with | some i => (t - i) / max 1 c.tick | none => 0) else 0
      -- the mark of a violation that triggers nothing stands while its row is held
      let kept := match c.mark with | some (r, h) => if before - r < c.segLen then some (r, h) else none | none => none
      let d : CapSet := { c with st := st, n := c.n + 1, total := c.total + 1, ha := ra.1, hb := rb.1, aMet := c.aMet.or ra.2, fresh := false, evts := c.evts.filter (fun e => decide (t < e.t)), postN := if c.trigAt.isSome then c.postN + 1 else c.postN, chans := c.chans.map (fun x => { x with y := (vals.find? (fun p => p.1.c == x.c)).map (fun p => p.1.f32 p.2) }), mark := if c.maskAct then kept.or (viols.head?.map (fun h => (before, h))) else c.mark }
      let sf := if force then s.setFlag (R.CAP_SET_CTRL_FORCE m) false else s
      let s1 := (sf.setCset m { d with force := c.force && !force }).capStore m vals
      let armed (u : State) : State := if d.st = 1 ∧ d.pre ≤ before + 1 then u.setCset m { u.cset m with st := 2 } else u
      let s2 :=
        match inst with
        | none => armed s1
        | some i =>
          if d.trigAt.isSome ∨ (d.st ≠ 1 ∧ d.st ≠ 2 ∧ d.st ≠ 5) then s1
          else if i < c.rearm then armed (s1.capMissed m i)
          else if d.st = 1 ∧ d.qual = true then armed (s1.count (R.CAP_SET_MISS_CNT_EARLY_IGN m))
          else
            let u := s1.capTrigger m i (d.st == 1) cascMet (min back before)
            match (if force then none else c.maskMet ra.2 rb.2) with
            | some h => u.setCset m { u.cset m with mark := some (before, h) }
            | none => u
      -- the mask of the trigger row itself applies from the trigger row on (R257)
      let e := s2.cset m
      let stop := if c.maskAct then none else if !viols.isEmpty then viols.head? else if c.trigAt.isNone && e.trigAt.isSome then (s.capViols c vals (some 0)).head? else none
      match stop with
      | some h =>
        let s3 := s2.setCset m { e with viol := true, mark := some (before, h) }
        ((s3.capClose m 0 false).setFlag (R.CAP_SET_STAT_VIOL m) true).capEnd m 7
      | none => s2.capFull m

/-- Edges of the trigger pins that 20 ns have passed since are no short pulses: they count, and reach the pin conditions (R243, R251, R253). Edges are kept while a set may want the level. -/
def State.settlePins (s : State) (now : Nat) : State :=
  let busy := (List.range 8).any (fun k => (s.cset k).open_)
  (s.cap.pend.filter (fun e => decide (e.2.1 + 20 ≤ now))).foldl (fun u (m, t, high) =>
    { u with cap := { u.cap with pins := u.cap.pins.set m high, edges := if busy then (m, t, high) :: u.cap.edges else [] } }.capEvent ⟨10, m, b2n high, t⟩)
    { s with cap := { s.cap with pend := s.cap.pend.filter (fun e => decide (now < e.2.1 + 20)) } }

/-- CAPTURE_ROW of a set: what has come by now is taken, and the next row formed. -/
def State.capRow (s : State) (m : Nat) : State := ((s.settlePins s.now).capPush m false).capForm m

/-- FLAGS bits of a record ended early: ABORTED, SCHED_END, TSTEP. -/
def fAborted : Nat := 16
/-- SCHED_END. -/
def fSchedEnd : Nat := 32
/-- TSTEP. -/
def fTstep : Nat := 64

/-- ABORT is sampled (R259). -/
def State.capAbort (s : State) (m : Nat) : State :=
  let s0 := s.setFlag (R.CAP_SET_CTRL_ABORT m) false
  let c := s0.cset m
  if c.doneCrs = some (s.crs.cnt - 1) ∨ c.doneCrs = some s.crs.cnt then s0.setFlag (R.CAP_SET_STAT_NTA m) true
  else if c.open_ then (((if c.st = 4 then s0 else s0.capClose m fAborted false)).setFlag (R.CAP_SET_STAT_ABORTED m) true).capEnd m 7
  else s0

/-- A set on a new grid from the present course, whose start moves by `by_` ns (R260). -/
def State.capRegrid (s : State) (c : CapSet) (by_ : Int) : CapSet :=
  let start := ((s.crs.start : Int) + by_).toNat
  let tick := if c.clk then c.tick else max 1 (c.every * s.get R.BOND_CRS_PERIOD_PERIOD_NS)
  { c.next with tick := tick, n := 0, ns := 0, pushed := none, c0 := s.crs.cnt, rearm := 0, t0 := if c.clk then start else start + s.get R.BOND_CRS_TS_TS_NS, chans := c.chans.map (fun x => { x with xs := [], y := none, now := none, q := s.capQ x.kind x.sig (x.auto + x.trim) tick }) }

/-- The rows of a course set whose samples have arrived are stored (R246). -/
def State.capFlush (s : State) (m : Nat) : State :=
  let c := s.cset m
  if c.open_ && !c.clk then (List.range (c.ns - c.n + 17)).foldl (fun u _ => u.capForm m) s else s

/-- A schedule switch, or a step of device time, ends the open record after its last row (R260). A segmented set that has closed its last segment so is DONE, as R254 has it (DESIGN CHOICE, log entry 39); one in REARM has none open. -/
def State.capBreak (s : State) (m flags : Nat) (by_ : Int) : State :=
  let t := s.capFlush m
  let c := t.cset m
  if !c.open_ then t
  else
    let s1 := if c.st = 4 then t else t.capClose m flags false
    let d := s1.cset m
    if d.mode = 1 ∧ d.seg + 1 < d.segs then s1.setCset m (s.capRegrid d by_) else s1.capEnd m (if d.mode = 1 then 6 else 7)

/-- Every set at a schedule switch: course sets only. -/
def State.capSwitch (s : State) : State := (List.range 8).foldl (fun u m => if (u.cset m).clk then u else u.capBreak m fSchedEnd 0) s

/-- Every set at a step of device time by `by_` ns. -/
def State.capTstep (s : State) (by_ : Int) : State := (List.range 8).foldl (fun u m => u.capBreak m fTstep by_) s

/-- A device-time stamp moved by a step. -/
def moved (by_ : Int) (t : Nat) : Nat := ((t : Int) + by_).toNat

/-- The capture engine's stamps move with device time. -/
def Cap.move (c : Cap) (by_ : Int) : Cap :=
  { c with edges := c.edges.map (fun e => (e.1, moved by_ e.2.1, e.2.2)), pend := c.pend.map (fun e => (e.1, moved by_ e.2.1, e.2.2)), convs := c.convs.map (fun e => (e.1, moved by_ e.2.1, e.2.2)), pulses := c.pulses.map (fun e => (e.1, max 1 (moved by_ e.2))) }

/-- A port's time stamps of a link measurement under way. -/
def Port.move (p : Port) (by_ : Int) : Port := { p with req := p.req.map (fun x => (x.1, moved by_ x.2)), resp := p.resp.map (fun x => (x.1, moved by_ x.2)) }

/-- A ring's. -/
def Ring.move (r : Ring) (by_ : Int) : Ring := { r with east := r.east.move by_, west := r.west.move by_ }

/-- The cascade's, and the times until which its ports are busy. -/
def Cas.move (c : Cas) (by_ : Int) : Cas := { c with a := c.a.move by_, b := c.b.move by_, tillA := moved by_ c.tillA, tillB := moved by_ c.tillB }

/-- The host port's: ARP entries, waiting answers and the second of the echo answers (R329). -/
def Hst.move (h : Hst) (by_ : Int) : Hst :=
  { h with arp := h.arp.map (fun x => (x.1, x.2.1, moved by_ x.2.2)), waits := h.waits.map (fun w => { w with until_ := moved by_ w.until_ }), echoAt := moved by_ h.echoAt }

/-- The PTP client's: the stamps t2 and t3 of the exchanges under way, the last Sync, and the last offset, from which the step is taken (R343, R345). -/
def Tim.move (t : Tim) (by_ : Int) : Tim :=
  { t with sync := t.sync.map (fun x => (x.1, x.2.1 + by_, x.2.2)), pair := t.pair.map (fun x => (x.1, x.2 + by_)), dreq := t.dreq.map (fun x => (x.1, x.2 + by_)), last := t.last.map (fun x => (x.1 + by_, moved by_ x.2)), syncAt := moved by_ t.syncAt }

/-- A chatter watch's. -/
def Chat.move (c : Chat) (by_ : Int) : Chat := { c with changes := c.changes.map (moved by_), last := moved by_ c.last }

/-- The pair's: the last weather report and the journal clients' last commands. -/
def Mtr.move (m : Mtr) (by_ : Int) : Mtr :=
  { m with wxAt := moved by_ m.wxAt, jnl := { m.jnl with cls := m.jnl.cls.map (fun x => (x.1, x.2.map (fun c => { c with last := moved by_ c.last }))) } }

/-- Device time is stepped by `d` ns, one of the steps of R338: captures close with TSTEP on the old time base, the course grid keeps its place on the new one with every stamp the device holds, and the step counts (R260, R338, R346, R362). On a root it advances STEP_SEQ. -/
def State.stepTime (s : State) (d : Int) : State :=
  let t := s.capTstep d
  let u : State := { t with now := moved d t.now, crs := { t.crs with start := moved d t.crs.start, actAt := moved d t.crs.actAt }, pwr := { t.pwr with wdtEnd := moved d t.pwr.wdtEnd }, tst := { t.tst with endAt := moved d t.tst.endAt }, cap := t.cap.move d,
                            rings := t.rings.map (fun r => (r.1, r.2.move d)), hst := t.hst.move d, tim := t.tim.move d, mtr := t.mtr.move d,
                            axes := t.axes.map (fun x => (x.1, { x.2 with chatLp := x.2.chatLp.move d, chatLn := x.2.chatLn.move d })),
                            cas := if t.flag R.CAS_CFG_ROOT then { t.cas.move d with stepSeq := (t.cas.stepSeq + 1) % 256 } else t.cas.move d }
  (u.count R.TIM_STEP_CNT_COUNT).noteGrid

/-- A DMA read of a block's last byte on channel `ch` drains the oldest block (R258). -/
def State.capDrain (s : State) (ch addr n : Nat) : State :=
  (List.range 8).foldl (fun u m =>
    let c := u.cset m
    let last := c.segAddr (c.drained % max 1 c.segs) + c.segBytes - 1
    if c.mode = 2 ∧ c.st ≠ 0 ∧ c.strDma = ch ∧ c.drained < c.closed ∧ addr ≤ last ∧ last < addr + n then u.setCset m { c with drained := c.drained + 1 } else u) s

/-- The course start as CAP sees it (R244): samples of the course that ends, then ARM, ABORT and FORCE. FORCE stays set until the next row of a set that records; on any other set it is acted on at once, without an effect. -/
def State.capSample (s0 : State) : State :=
  let s := s0.noteGrid.settlePins s0.now
  (List.range 8).foldl (fun u m =>
    let u1 := if u.flag (R.CAP_SET_CTRL_ABORT m) then u.capAbort m else u
    let u2 := if u1.flag (R.CAP_SET_CTRL_ARM m) then u1.capArm m else u1
    if !u2.flag (R.CAP_SET_CTRL_FORCE m) then u2
    else if (u2.cset m).open_ then u2.setCset m { u2.cset m with force := true }
    else u2.setFlag (R.CAP_SET_CTRL_FORCE m) false) s

/-- The samples of the course that ends are taken (R244). -/
def State.capPushAll (s : State) : State := (List.range 8).foldl (fun u m => u.capPush m true) s

/-- Positions, velocities and accelerations in force for captured axes in the course that starts (R243). -/
def State.capInForce (s : State) : State :=
  let axs := (List.range 8).flatMap (fun m => if (s.cset m).open_ then (s.cset m).chans.filterMap (fun x => if x.kind = 1 then some x.item else none) else [])
  { s with cap := { s.cap with inForce := axs.foldl (fun l a => Store.put none l a (some ((s.ax a).cmdPos, f32OfRat (s.ax a).vel, f32OfRat (s.ax a).acc))) [] } }

/-- The events that an axis's profile has noted reach the sets, stamped with the sample instant of their course, and are noted no longer (R251, R253). -/
def State.axisEvents (s : State) (at_ : Nat) : State :=
  s.axNums.foldl (fun u a =>
    let x := u.ax a
    if x.evts.isEmpty then u else x.evts.foldl (fun v e => v.capEvent ⟨8, a, e, at_⟩) (u.setAx a { x with evts := [] })) s

/-- The sample instant of the course before, whose lagging computation a standby carries out (R310). -/
def State.tsPrev (s : State) : Nat := s.crs.start - s.get R.BOND_CRS_PERIOD_PERIOD_NS + s.get R.BOND_CRS_TS_TS_NS

end Sys2Proof.Machine
end

