-- ==== Sys2Proof/Machine/Hold.lean ====
section
/-! DEFINITION. SAFE_HOLD and the release of the keystone on a fault that stops the line (R7, R309). -/
namespace Sys2Proof.Machine

/-- A READY standby that is no longer fit reads SYNCING, and a claim that it probes for ends with PAIR_ACT low (R298, R300, R306). -/
def Mtr.unready (m : Mtr) : Mtr :=
  if m.role = .ready then { m with role := .syncing, probing := false, pairAct := false, margin := none } else m

/-- Enter SAFE_HOLD for a cause, from RUN; in SAFE_HOLD a further cause joins (R7). On a member that leads, every enabled axis takes its fault reaction with cause SAFE_HOLD at the next tick; a member without the keystone does not claim it there. -/
def State.safeHold (s : State) (c : HoldBy) : State :=
  match s.dev with
  | .run =>
    { s with dev := .safeHold, holdBy := [c], mtr := s.mtr.unready, axes := (if !s.mtr.paired || s.mtr.holder then s.axes.map (fun (a, x) => if x.enabled then (a, { x with pend := x.pend ||| cSafeHold }) else (a, x)) else s.axes) }
  | .safeHold => { s with holdBy := if s.holdBy.contains c then s.holdBy else s.holdBy ++ [c] }
  | _ => s

/-- The peer is READY as the last weather report says (R316). -/
def State.peerReady (s : State) : Bool := s.flag R.MTR_STAT_LINK_UP && s.flag R.WX_STAT_VALID && s.flag R.WX_STAT_READY

/-- A lasting fault that stops the line (R7, R309): a HOLDER with a READY peer releases the keystone at the next course start, any other device enters SAFE_HOLD. -/
def State.stopLine (s : State) (c : HoldBy) : State :=
  if (s.dev == .run || s.dev == .safeHold) && s.mtr.paired && s.mtr.holder && s.peerReady then { s with mtr := { s.mtr with relDue := true } } else s.safeHold c

end Sys2Proof.Machine
end

