-- ==== Sys2Proof/Machine/IslTable.lean ====
section
/-! DEFINITION. The safety logic table: signals, blocks, axis functions and the result vector (R270, R283 to R288). Times are whole safety cycles of 250 µs. -/
namespace Sys2Proof.Machine

/-- Milliseconds in whole safety cycles (R269). -/
def cyc (ms : Nat) : Nat := ms * 4

/-- A block at island start. DESIGN CHOICE (log entry 57): the IN0 of an SS1 block counts as 1 before the first cycle, so that one which is 0 there starts an SS1. -/
def BlkSt.init (type : Nat) : BlkSt := ⟨false, 0, false, false, type == 0x21, false⟩

/-- A connection's table state at island start. -/
def CSt.init : CSt := ⟨0, 0, none, none, none, none, none, false, true, none, false, false, 0⟩

/-- A connection that has received nothing: its watchdog runs from the next safety cycle (R281). -/
def CRx.init (wd : Nat) : CRx := ⟨none, 0, [], cyc wd + 1, false, false⟩

/-- The table's state of connection `c`. -/
def EvSt.conn (e : EvSt) (c : Nat) : CSt := (Store.get none e.cs c).getD CSt.init

/-- The connection descriptor `c`. -/
def IslCfg.conn (g : IslCfg) (c : Nat) : Option IConn := Store.get none g.conns c

/-- The axis parameters of connection `c`. -/
def IslCfg.axisOf (g : IslCfg) (c : Nat) : Option IAxis := (g.conn c).bind IConn.axis

/-- The evaluation under way: the blocks evaluated so far, the demands, and the connections. -/
structure Ev2 where
  blks : List BlkSt
  so : Nat
  ko : Nat
  off : Nat
  cs : Store (Option CSt)
  deriving DecidableEq, Repr

/-- The table's state of connection `c` in an evaluation. -/
def Ev2.conn (e : Ev2) (c : Nat) : CSt := (Store.get none e.cs c).getD CSt.init

/-- Replace it. -/
def Ev2.setConn (e : Ev2) (c : Nat) (x : CSt) : Ev2 := { e with cs := Store.put none e.cs c (some x) }

/-- The inbound data of a connection. -/
def IslIn.data (i : IslIn) (c : Nat) : Nat := Store.get 0 i.inb c

/-- The value of a signal number (R287): blocks of lower index as of this cycle, others as of the last. -/
def sigVal (i : IslIn) (old : List BlkSt) (now : List BlkSt) (n : Nat) : Bool :=
  if n < 2 then n == 1
  else if n = 2 then i.ack
  else if n < 16 then bit i.ns (n - 8)
  else if n < 48 then bit i.si (n - 16)
  else if n < 576 then (match now[n - 64]? with | some b => b.out | none => (old.getD (n - 64) (BlkSt.init 0)).out)
  else bit (i.data ((n - 1024) / 48)) ((n - 1024) % 48)

/-- An input word: its signal, inverted if INV is set. -/
def inVal (i : IslIn) (old now : List BlkSt) (w : Nat) : Bool := sigVal i old now (bits w 0 12) != bit w 15

/-- SPOS of a connection's data. -/
def spos (d : Nat) : Int := sx 32 d

/-- A wrapping signed difference of safe positions (R283). -/
def sdiff (a b : Int) : Int := sx 32 (ux 32 (a - b))

/-- The safe speed from the records of a window of W (R283); the last value while there is only one. -/
def safeSpeed (recs : List (Nat × Int)) (w tRec : Nat) (last : Rat) : Rat :=
  match recs with
  | [] => last
  | (cn, pn) :: r =>
    match (r.filter (fun x => decide (1 ≤ (cn + 65536 - x.1) % 65536 ∧ (cn + 65536 - x.1) % 65536 ≤ w))).getLast? with
    | none => last
    | some (co, po) => (sdiff pn po : Rat) * 1000000000 / (((cn + 65536 - co) % 65536 * max 1 tRec : Nat) : Rat)

/-- TQ_EN from what stands so far (R284). The SS1 of a violation imposes STO at its instant even where an ACK has cleared the violation before, and as long as one is latched (R285). DESIGN CHOICE (log entry 57): the output of an STO block is TQ_EN as the blocks evaluated before it leave it, as a signal of lower index is (R270). -/
def CSt.torque (x : CSt) (react : Nat) (wdLat : Bool) : Bool :=
  x.stoIn && x.ss1 != some 0 && x.vss1 != some 0 && !(x.viol != 0 && react == 0) && !x.sbcF && !wdLat

/-- A monitoring block's breach: latched, its reaction started, cleared by ACK while inactive or met again (R288). -/
def CSt.judge (x : CSt) (a : IAxis) (k : Nat) (active ok ack : Bool) : CSt :=
  let lat := bit x.viol k
  if active && !ok then { x with viol := setBit x.viol k true, vss1 := if a.react = 1 ∧ x.vss1 = none then some (cyc a.tss1) else x.vss1 }
  else if lat && ack then { x with viol := setBit x.viol k false }
  else x

/-- The first of the table's axis blocks: SOS. -/
def CSt.sos (x : CSt) (a : IAxis) (d : Nat) (active ack : Bool) : CSt :=
  let ref := if active then some (x.sosRef.getD (spos d)) else none
  let ok := bit d 33 && decide ((sdiff (spos d) (ref.getD (spos d))).natAbs ≤ a.sosWin)
  { x with sosRef := ref }.judge a 0 active ok ack

/-- SLS: the limit is SLS_LIM[2 × IN2 + IN1]. -/
def CSt.sls (x : CSt) (a : IAxis) (d sel : Nat) (active ack : Bool) : CSt :=
  x.judge a 1 active (bit d 33 && decide (absR x.v ≤ ((a.sls.getD sel 0 : Nat) : Rat))) ack

/-- SLP. -/
def CSt.slp (x : CSt) (a : IAxis) (d : Nat) (active ack : Bool) : CSt :=
  x.judge a 2 active (bit d 33 && bit d 34 && decide (a.slpMin ≤ spos d) && decide (spos d ≤ a.slpMax)) ack

/-- SDI: P1 0 permits the positive direction, 1 the negative. -/
def CSt.sdi (x : CSt) (a : IAxis) (d p1 : Nat) (active ack : Bool) : CSt :=
  let p := spos d
  let e0 := x.sdiExt.getD p
  let adv := if p1 = 0 then sdiff p e0 else sdiff e0 p
  let ext := if 0 < adv then p else e0
  let back := if p1 = 0 then sdiff ext p else sdiff p ext
  { x with sdiExt := if active then some ext else none }.judge a 3 active (bit d 33 && decide (back ≤ (a.sdiTol : Int))) ack

/-- One block: its new state and what it does to the evaluation (R287). -/
def evalBlk (g : IslCfg) (i : IslIn) (rx : Store (Option CRx)) (old : List BlkSt) (e : Ev2) (k : IBlk) : Ev2 :=
  let s := old.getD e.blks.length (BlkSt.init k.type)
  let inp (n : Nat) : Bool := inVal i old e.blks (at_ k.ins n)
  let a := inp 0
  let b := inp 1
  let put (x : BlkSt) (f : Ev2 → Ev2) : Ev2 := let e' := f e; { e' with blks := e'.blks ++ [{ x with a := a, b := b }] }
  let say (o : Bool) : BlkSt := { s with out := o }
  let d := i.data k.p0
  let x := e.conn k.p0
  let lat := match Store.get none rx k.p0 with | some r => r.lat | none => false
  match k.type with
  | 0x01 => put (say (a && b && inp 2 && inp 3)) id
  | 0x02 => put (say (a || b || inp 2 || inp 3)) id
  | 0x03 => put (say (a != b)) id
  | 0x04 =>
    let t := if a = b then 0 else s.t + 1
    let none_ := !a && !b
    let l := !none_ && (s.l || decide (cyc k.p0 < t))
    let m := !none_ && (s.m || (s.a && !a) || (s.b && !b))
    put { s with t := t, l := l, m := m, out := a && b && !l && !m } id
  | 0x05 =>
    if k.p0 = 1 then put (say a) id
    else
      -- t counts the cycles of IN1 = 1, m says that IN0 was 1 throughout
      let t := if b then s.t + 1 else 0
      let m := if b then (if s.t = 0 then a else s.m && a) else false
      let go := s.b && !b && a && s.m && decide (200 ≤ s.t ∧ s.t ≤ 12000)
      put { s with t := t, m := m, out := a && (s.out || go) } id
  | 0x06 =>
    let t := if a then s.t + 1 else 0
    put { s with t := t, out := a && decide (cyc k.p0 + 1 ≤ t) } id
  | 0x07 =>
    let t := if a then cyc k.p0 else s.t - 1
    put { s with t := t, out := a || decide (0 < s.t) } id
  | 0x08 =>
    let l := !b && (a || s.l)
    put { s with l := l, out := l } id
  | 0x10 => put (say (bit i.so k.p0 && !bit i.flt k.p0)) (fun e => { e with so := setBit e.so k.p0 a })
  | 0x11 => put (say (bit i.ko k.p0 && !bit i.kf k.p0 && !bit i.flt (16 + k.p0))) (fun e => { e with ko := setBit e.ko k.p0 a })
  | 0x12 => put (say a) (fun e => e.setConn k.p0 { x with data := setBit x.data k.p1 a })
  | 0x13 => put (say a) (fun e => if a then e else { e with off := (List.range k.p1).foldl (fun m n => setBit m (k.p0 + n) true) e.off })
  | _ =>
    match g.axisOf k.p0 with
    | none => put (say false) id
    | some p =>
      match k.type with
      | 0x20 => put (say ({ x with stoIn := a }.torque p.react lat)) (fun e => e.setConn k.p0 { x with stoIn := a })
      | 0x21 =>
        let n := match x.ss1 with
          | none => if s.a && !a then some (cyc p.tss1) else none
          | some 0 => if a then none else some 0
          | some (t + 1) => some t
        put (say n.isNone) (fun e => e.setConn k.p0 { x with ss1 := n })
      | 0x22 => let y := x.sos p d (!a) i.ack; put (say (!bit y.viol 0)) (fun e => e.setConn k.p0 y)
      | 0x23 => let y := x.sls p d (b2n b + 2 * b2n (inp 2)) (!a) i.ack; put (say (!bit y.viol 1)) (fun e => e.setConn k.p0 y)
      | 0x24 => let y := x.slp p d (!a) i.ack; put (say (!bit y.viol 2)) (fun e => e.setConn k.p0 y)
      | 0x25 => let y := x.sdi p d k.p1 (!a) i.ack; put (say (!bit y.viol 3)) (fun e => e.setConn k.p0 y)
      | _ => put (say (!x.sbcF)) (fun e => e.setConn k.p0 { x with sbcIn := some a })

/-- A connection at the start of a cycle's evaluation: the safe speed, timers of a violation's SS1, fresh block inputs. -/
def CSt.begin (x : CSt) (p : Option IAxis) (recs : List (Nat × Int)) (tRec : Nat) : CSt :=
  { x with v := (match p with | some a => safeSpeed recs a.w tRec x.v | none => x.v),
           vss1 := if x.viol = 0 ∧ x.vss1 = some 0 then none else (match x.vss1 with | some (n + 1) => some n | o => o),
           stoIn := true, sbcIn := none, data := 0 }

/-- A connection at the end of the evaluation: torque permit, brake and its check (R284, R287). -/
def CSt.finish (x : CSt) (p : IAxis) (d : Nat) (lat ack : Bool) : CSt :=
  let tq := x.torque p.react lat
  let brk := tq && x.sbcIn.getD true
  let match_ := bit d 35 != brk
  let t := if x.sbcIn.isNone then none else if brk ≠ x.brk then some (cyc p.tbrk) else if match_ then none else (match x.sbcT with | some (n + 1) => some n | o => o)
  let f := (x.sbcF && !(ack && bit d 35)) || (t == some 0 && !match_)
  let tq2 := tq && !f
  { x with tq := tq2, brk := brk && !f, sbcT := t, sbcF := f, data := setBit (setBit x.data 0 tq2) 1 (brk && !f) }

/-- The result vector of a cycle (R270). -/
def islEval (g : IslCfg) (i : IslIn) (ev : EvSt) : Vec :=
  let rx := i.rx
  let recsOf (c : Nat) : List (Nat × Int) := match Store.get none rx c with | some r => r.recs | none => []
  let latOf (c : Nat) : Bool := match Store.get none rx c with | some r => r.lat | none => false
  let cs0 := g.conns.foldl (fun l (c, o) => match o with
    | some q => Store.put none l c (some ((ev.conn c).begin q.axis (recsOf c) q.tRec))
    | none => l) []
  let e := g.blocks.foldl (evalBlk g i rx ev.blks) { blks := [], so := 0, ko := 0, off := 0, cs := cs0 }
  let cs1 := g.conns.foldl (fun l (c, o) => match o with
    | some q => (match q.axis with
      | some a => Store.put none l c (some (((Store.get none l c).getD CSt.init).finish a (i.data c) (latOf c) i.ack))
      | none => l)
    | none => l) e.cs
  ⟨e.so, e.ko, e.off, ⟨e.blks, cs1⟩⟩

/-! The checks of R294. -/

/-- A signal number is defined (R287). -/
def sigOkI (blocks w : Nat) : Bool :=
  let n := bits w 0 12
  bits w 12 3 == 0 && (decide (n < 3) || decide (8 ≤ n ∧ n < 48) || decide (64 ≤ n ∧ n < 64 + max blocks 512) || decide (1024 ≤ n ∧ n < 4096))

/-- The axis parameters are in range. -/
def IAxis.ok (a : IAxis) : Bool :=
  decide (a.axis < 192) && decide (1 ≤ a.tss1 ∧ a.tss1 ≤ 30000) && decide (a.react ≤ 1) && decide (1 ≤ a.w ∧ a.w ≤ 64) &&
  decide (10 ≤ a.tbrk ∧ a.tbrk ≤ 2000) && decide (0 < a.sosWin) && a.sls.all (fun x => decide (0 < x)) && decide (a.sls.length = 4) &&
  decide (a.slpMin < a.slpMax) && decide (0 < a.sdiTol) && a.res == 0

/-- A block's type and parameters are defined (R287). -/
def IBlk.ok (g : IslCfg) (k : IBlk) : Bool :=
  k.res == 0 && k.ins.all (sigOkI 512) && decide (k.ins.length = 4) &&
  (match k.type with
   | 0x01 => true | 0x02 => true | 0x03 => true | 0x08 => true
   | 0x04 => decide (10 ≤ k.p0 ∧ k.p0 ≤ 10000)
   | 0x05 => decide (k.p0 ≤ 1)
   | 0x06 => true | 0x07 => true
   | 0x10 => decide (k.p0 < 16)
   | 0x11 => decide (k.p0 < 4)
   | 0x12 => decide (k.p0 < 64 ∧ k.p1 < 48) && (g.conn k.p0).isSome && ((g.axisOf k.p0).isNone || decide (2 ≤ k.p1))
   | 0x13 => decide (k.p0 + k.p1 ≤ 48)
   | 0x25 => (g.axisOf k.p0).isSome && decide (k.p1 ≤ 1)
   | t => decide (0x20 ≤ t ∧ t ≤ 0x26) && (g.axisOf k.p0).isSome)

/-- What a block drives: an output, a contactor, stepper channels, or a function of a connection; each at most once (R288). -/
def IBlk.drives (k : IBlk) : List (Nat × Nat) :=
  match k.type with
  | 0x10 => [(1, k.p0)]
  | 0x11 => [(2, k.p0)]
  | 0x13 => (List.range k.p1).map (fun n => (3, k.p0 + n))
  | 0x12 => []
  | t => if 0x20 ≤ t then [(t, k.p0)] else []

/-- No two elements of a list are equal. -/
def distinct (l : List (Nat × Nat)) : Bool :=
  match l with
  | [] => true
  | x :: r => !r.contains x && distinct r

/-- A block entry from its 16 bytes (R287). -/
def IBlk.ofBytes (b : List Nat) : IBlk :=
  ⟨leAt b 0 1, leAt b 1 1, [leAt b 2 2, leAt b 4 2, leAt b 6 2, leAt b 8 2], leAt b 10 2, leAt b 12 2, leAt b 14 2⟩

/-- Axis safety parameters from their 64 bytes (R289). -/
def IAxis.ofBytes (b : List Nat) : IAxis :=
  { axis := leAt b 0 2, tss1 := leAt b 2 2, react := leAt b 4 1, w := leAt b 5 1, tbrk := leAt b 6 2, sosWin := leAt b 8 4,
    sls := [leAt b 12 4, leAt b 16 4, leAt b 20 4, leAt b 24 4], slpMin := sx 32 (leAt b 28 4), slpMax := sx 32 (leAt b 32 4), sdiTol := leAt b 36 4, res := leAt b 40 24 }

/-- The section as the island reads it. -/
def IslSec.cfg (x : IslSec) : IslCfg :=
  { inps := x.inps, outs := x.outs, tpEn := x.tpEn, tpPer := x.tpPer, tpW := x.tpW, opW := x.opW, opInt := x.opInt,
    conns := x.conns.map (fun (c, o) => (c, o.map (fun q => ⟨q.seedOut, q.seedIn, q.wd, q.tRec, q.axis.map IAxis.ofBytes⟩))),
    blocks := x.blocks.map IBlk.ofBytes, recs := x.recs, crc2 := x.crc2, sigOk := x.sigOk, keyOk := x.keyOk }

/-- The trailer checks (R294, R418, R419): CRC2 over the load records, the signature, and with LOCK set the hash of its key. -/
def IslCfg.trailerOk (g : IslCfg) (lock : Bool) : Bool := crc32c g.recs == g.crc2 && g.sigOk && (g.keyOk || !lock)

/-- The section passes the checks of R294; `assigned` says which network axes the AXES section assigns, `lock` is the fuses' LOCK. -/
def IslCfg.ok (g : IslCfg) (assigned : Nat → Bool) (lock : Bool) : Bool :=
  let cs := g.conns.filterMap (fun (_, o) => o)
  let seeds := cs.flatMap (fun q => [q.seedOut, q.seedIn])
  g.trailerOk lock && decide (g.inps.length = 32) && decide (g.outs.length = 20) && decide (g.blocks.length ≤ 512) &&
  decide (10 ≤ g.tpPer ∧ g.tpPer ≤ 1000) && decide (20 ≤ g.tpW ∧ g.tpW ≤ 100) && decide (5 ≤ g.opW ∧ g.opW ≤ 80) && decide (1 ≤ g.opInt ∧ g.opInt ≤ 60) &&
  g.inps.all (fun x => decide (x.filt ≤ 500) && (match x.tp with | some j => decide (j < 8) | none => true)) &&
  (g.outs.zipIdx).all (fun (o, n) => decide (o.groups < 16) && (if n < 16 then [1, 2, 4, 8].contains o.groups else decide (20 ≤ o.tchk ∧ o.tchk ≤ 500))) &&
  seeds.all (fun x => x != 0) && distinct (seeds.map (fun x => (0, x))) &&
  g.conns.all (fun (c, o) => decide (c < 64) && (match o with
    | some q => decide (1 ≤ q.wd ∧ q.wd ≤ 100) && decide (0 < q.tRec) && decide (3 * q.tRec < q.wd * 1000000) && (match q.axis with | some a => a.ok && assigned a.axis | none => true)
    | none => true)) &&
  g.blocks.all (fun k => k.ok g) && distinct (g.blocks.flatMap IBlk.drives)

end Sys2Proof.Machine
end

