-- ==== Sys2Proof/Machine/Isl.lean ====
section
/-! DEFINITION. The safety island: states, the safety cycle, inputs and test pulses, output stages, records and watchdogs, the mailbox (R266 to R296). -/
namespace Sys2Proof.Machine

/-- The island after the reset of PD1; the checked section is kept (R294). -/
def Isl.init (cfg : Option IslCfg) : Isl :=
  { Isl.off with
    cfg := cfg
    rx := match cfg with | some g => g.conns.filterMap (fun (c, o) => o.map (fun q => (c, some (CRx.init q.wd)))) | none => [],
    ev := ⟨match cfg with | some g => g.blocks.map (fun k => BlkSt.init k.type) | none => [], []⟩ }

/-- SAF_STAT.STATE (R271): 0 OFF, 1 STARTING, 2 ACTIVE, 3 CONFIG_ERR, 4 ISL_FAULT. -/
def State.islSt (s : State) : Nat := s.get R.SAF_STAT_STATE

/-- SO and KO are driven: RUN, with drive permission, and the table in control (R268). -/
def State.outsDriven (s : State) : Bool := s.dev == .run && s.permit && s.islSt == 2

/-- The island of a member without the keystone runs in shadow (R291): its stages follow the demands as the active island's do, and drive nothing. -/
def State.islShadow (s : State) : Bool := s.shadows && s.islSt == 2

/-- TP outputs are driven (R268): RUN or SAFE_HOLD with drive permission, and STANDBY on an unpaired device that does not read PEER_ACT high (R297); off in STARTING (R271). -/
def State.tpDriven (s : State) : Bool :=
  s.islSt == 2 && ((s.dev == .run || s.dev == .safeHold) && s.permit || (s.dev == .standby && !s.mtr.paired && !s.mtr.peerAct))

/-- The mask of the numbers below `n` for which `p` holds. -/
def maskOf (n : Nat) (p : Nat → Bool) : Nat := (List.range n).foldl (fun m i => if p i then m + 2 ^ i else m) 0

/-- Stage `n`. -/
def Isl.stage (i : Isl) (n : Nat) : Stg := i.stg.getD n Stg.init

/-- Replace stage `n`. -/
def Isl.setStage (i : Isl) (n : Nat) (x : Stg) : Isl := { i with stg := i.stg.set n x }

/-- A stage is on: commanded and outside an off-pulse (R276, R277). -/
def Stg.on (x : Stg) : Bool := x.cmd && !x.pulse

/-- The SO and the KO that the table reads as on: those driven, and in shadow those that the own vector would drive (R291). -/
def State.stagesOn (s : State) : Nat × Nat :=
  if s.outsDriven || s.islShadow then (maskOf 16 (fun n => (s.isl.stage n).on), maskOf 4 (fun n => (s.isl.stage (16 + n)).on)) else (0, 0)

/-- The SO that are on, as a mask. -/
def State.soOn (s : State) : Nat := if s.outsDriven then maskOf 16 (fun n => (s.isl.stage n).on) else 0

/-- The KO that are on, as a mask. -/
def State.koOn (s : State) : Nat := if s.outsDriven then maskOf 4 (fun n => (s.isl.stage (16 + n)).on) else 0

/-- The descriptor of stage `n`. -/
def Isl.outCfg (i : Isl) (n : Nat) : IOut := match i.cfg with | some g => g.outs.getD n ⟨false, 0, 20⟩ | none => ⟨false, 0, 20⟩

/-- The disconnect groups that a latched stuck-on fault has switched off (R278). -/
def Isl.offGroups (i : Isl) : Nat := (List.range 20).foldl (fun m n => if (i.stage n).flt = 1 then m ||| (i.outCfg n).groups else m) 0

/-- A demand that no latched fault holds off (R278). -/
def Isl.allowed (i : Isl) (n : Nat) : Bool := (i.stage n).flt == 0 && (i.offGroups &&& (i.outCfg n).groups) == 0

/-- The filtered value of input `n`: 0 while its test has failed (R274). -/
def SInp.value (x : SInp) : Bool := x.filt && x.bad == 0

/-- A transient counted in SAF_DIAG. -/
def State.islTransient (s : State) : State := s.count R.SAF_DIAG_TRANS

/-- ISL_FAULT (R271, R293): outputs off, every bridge-off line asserted, the STO line raised on every network axis. -/
def State.islFault (s : State) (code : Nat) : State :=
  let s1 := (((s.set R.SAF_STAT_STATE 4).set R.SAF_STAT_ISL_CODE code).set R.STP_SAFE_OFF0_SAFE_OFF 0xFFFFFFFF).set R.STP_SAFE_OFF1_SAFE_OFF 0xFFFF
  let axs := s1.axes.map (fun (a, x) => if a < 192 then (a, { x with sto := true, ss1 := false }) else (a, { x with sto := true }))
  State.stopLine (State.repin { s1 with isl := { s1.isl with stg := List.replicate 20 Stg.init, vec := none, compared := false, tx := [] }, axes := axs } s) .island

/-- The raised bridge-off lines reach the stepper channels and their axes (R153, R286). -/
def State.bridgeLines (s : State) (off : Nat) : State :=
  let s1 := (s.set R.STP_SAFE_OFF0_SAFE_OFF off).set R.STP_SAFE_OFF1_SAFE_OFF (off / 2 ^ 32)
  State.repin { s1 with axes := s1.axes.map (fun (a, x) => if 192 ≤ a then (a, { x with sto := bit off (a - 192) }) else (a, x)) } s

/-- The demand lines of every network axis fall (R285). -/
def State.linesDown (s : State) : State := { s with axes := s.axes.map (fun (a, x) => if a < 192 then (a, { x with sto := false, ss1 := false }) else (a, x)) }

/-- The table's demands at their safe value while the island is not ACTIVE: bridge-off on the channels of STEPOFF blocks, STO on the axes of axis connections (R267); the other axes have no line. -/
def State.islPassive (s : State) : State :=
  match s.isl.cfg with
  | none => s.linesDown.bridgeLines 0
  | some g =>
    let off := g.blocks.foldl (fun m k => if k.type = 0x13 then (List.range k.p1).foldl (fun m n => setBit m (k.p0 + n) true) m else m) 0
    let axs := g.conns.filterMap (fun (_, o) => (o.bind IConn.axis).map IAxis.axis)
    axs.foldl (fun u a => u.setAx a { u.ax a with sto := true }) (s.linesDown.bridgeLines off)

/-- The axis demand lines of a compared vector (R285). -/
def State.axisLines (s : State) (ev : EvSt) : State :=
  match s.isl.cfg with
  | none => s
  | some g => g.conns.foldl (fun u (c, o) => match o.bind IConn.axis with
    | some a =>
      let x := ev.conn c
      u.setAx a.axis { u.ax a.axis with sto := !x.tq, ss1 := x.ss1.isSome || x.vss1.isSome }
    | none => u) s

/-! Output stages (R275 to R279). -/

/-- A stage is commanded off, by which the checks of a switching start (R275, R279). -/
def Stg.off (x : Stg) (n : Nat) : Stg :=
  if x.cmd then { x with cmd := false, judged := x.judged || x.pulse, chk := x.chk || decide (16 ≤ n), chkT := 0, mis := 0, settle := 4 } else x

/-- Stages whose pins are driven no longer are off from then on (R268, R275): in shadow they follow the active island's. -/
def State.dropStages (s : State) : State :=
  if s.outsDriven || s.islShadow then s else { s with isl := { s.isl with stg := s.isl.stg.zipIdx.map (fun (x, n) => x.off n) } }

/-- A lasting fault of an output latches and switches it off; a stuck-on fault takes the rest of its groups with it (R278). DESIGN CHOICE (log entry 57): the group of a contactor stuck on is every group that its descriptor names. -/
def State.outFault (s : State) (n code : Nat) : State :=
  let x := s.isl.stage n
  let i := s.isl.setStage n { x.off n with flt := code, pulse := false, retest := false, mis := 0 }
  { s with isl := { i with stg := i.stg.zipIdx.map (fun (y, m) => if i.allowed m then y else y.off m) } }

/-- The read-back of stage `n` reads on: SOFB or the stage sense; for a contactor the stage sense. -/
def Isl.readsOn (i : Isl) (n : Nat) : Bool := if n < 16 then bit i.fb n || bit i.sense n else bit i.sense n

/-- The island judges the outputs of the pins that it drives, and in shadow those that the active island drives, until a lease is not renewed (R275, R291). -/
def State.judges (s : State) : Bool := s.leads || (s.dev == .run && !s.isl.holdBlank)

/-- One judgement of an SO, once per safety cycle, from 20 µs after a switching and outside its off-pulses; one that a demand has taken over is the demanded off state (R275, R277). -/
def State.judgeOut (s : State) (n : Nat) : State :=
  let x := s.isl.stage n
  if (x.pulse && !(x.judged && !x.cmd)) || x.flt ≠ 0 || 0 < x.settle then s
  else
    let kind := if !x.cmd && s.isl.readsOn n then 1 else if x.cmd && !bit s.isl.fb n then 2 else 0
    if kind = 0 then { s with isl := s.isl.setStage n { x with mis := 0 } }
    else if x.mis = 0 then { s with isl := s.isl.setStage n { x with mis := kind } }.islTransient
    else s.outFault n kind

/-- The contactor check of R279 over one cycle: a mismatch after a switching, or after a change of KF, that lasts past T_CHK. -/
def State.judgeKo (s : State) (j : Nat) : State :=
  let x := s.isl.stage (16 + j)
  let mism := x.cmd == bit s.isl.kf j
  if !x.chk then s
  else if !mism then { s with isl := s.isl.setStage (16 + j) { x with chk := false, chkT := 0 } }
  else { s with isl := s.isl.setStage (16 + j) { x with chkT := x.chkT + 1 } }

/-- The mismatch of contactor `j` has lasted past T_CHK: it switches off and its fault latches (R279). -/
def State.kfTimeout (s : State) (j : Nat) : State :=
  let x := s.isl.stage (16 + j)
  if x.chk && x.cmd == bit s.isl.kf j && decide (cyc (s.isl.outCfg (16 + j)).tchk < x.chkT) && x.flt == 0 then
    let t := s.outFault (16 + j) 3
    { t with isl := t.isl.setStage (16 + j) { t.isl.stage (16 + j) with chk := false, chkT := 0 } }
  else s

/-- A demand takes effect on stage `n` at the start of a cycle (R270, R277 to R279). -/
def State.demand (s : State) (n : Nat) (want0 : Bool) : State :=
  let x := s.isl.stage n
  let want := want0 && s.isl.allowed n
  let on := want && (n < 16 || x.cmd || bit s.isl.kf (n - 16) || bit s.isl.resume (n - 16))
  let y := { x with cmd := on, judged := x.judged || (x.pulse && !on), chk := x.chk || (decide (16 ≤ n) && on != x.cmd), chkT := if on = x.cmd then x.chkT else 0, mis := if on = x.cmd then x.mis else 0, settle := if on = x.cmd then x.settle else 4 }
  { s with isl := s.isl.setStage n y }

/-- An off-pulse starts on stage `n` (R276): the stage is tested while it is on and driven; in shadow the pulse is the active island's (R291). -/
def State.outPulse (s : State) (n : Nat) : State :=
  let x := s.isl.stage n
  if (s.isl.outCfg n).test && (s.outsDriven || s.islShadow) && x.on then { s with isl := s.isl.setStage n { x with pulse := true, judged := false } } else s

/-- The read-back that a test judges: SOFB, and for a contactor the stage sense (R276). -/
def Isl.testOn (i : Isl) (n : Nat) : Bool := if n < 16 then bit i.fb n else bit i.sense n

/-- An off-pulse ends and its test is judged; one that a demand has taken over counts as passed if the read-back reads off, and its result stands whatever is demanded since (R276, R277). -/
def State.outPulseEnd (s : State) (n : Nat) : State :=
  let x := s.isl.stage n
  if !x.pulse then s
  else
    let y := { x with pulse := false, judged := false, settle := 4 }
    if s.isl.testOn n then { s with isl := s.isl.setStage n { y with retest := true } }
    else { s with isl := s.isl.setStage n y }

/-- The repeat of a failed test, 10 ms later: transient when it reads off, else a lasting stuck-on fault (R276). -/
def State.outRetest (s : State) (n : Nat) (readsOff : Bool) : State :=
  let x := s.isl.stage n
  if !x.retest then s
  else if readsOff then { s with isl := s.isl.setStage n { x with retest := false } }.islTransient
  else s.outFault n 1

/-! Inputs and test pulses (R272 to R274). -/

/-- The island's configuration. -/
def Isl.inCfg (i : Isl) (n : Nat) : IInp := match i.cfg with | some g => g.inps.getD n ⟨none, 0⟩ | none => ⟨none, 0⟩

/-- Input `n` is blanked: inside its TP's pulse window, or after a switch-over (R273, R292). -/
def Isl.blanked (i : Isl) (n : Nat) : Bool :=
  match (i.inCfg n).tp with
  | none => false
  | some j => (match i.win with | some w => w.tp == j | none => false) || decide (0 < i.blank) || i.holdBlank

/-- A lease has not been renewed: inputs with a TP are blanked from the last renewal on, so that the filter holds what it held then (R292). -/
def Isl.blankBack (i : Isl) : Isl :=
  if i.holdBlank then i
  else { i with holdBlank := true, inps := i.inps.zipIdx.map (fun (x, n) => match (i.inCfg n).tp, i.renewInps[n]? with | some _, some k => { x with filt := k.filt, last := k.last, run := k.run } | _, _ => x) }

/-- One sample of an input (R273). -/
def SInp.sample (x : SInp) (raw blanked : Bool) (filt : Nat) : SInp :=
  if blanked then { x with raw := raw }
  else
    let run := if raw = x.last ∧ 0 < x.run then x.run + 1 else 1
    { x with raw := raw, last := raw, run := run, filt := if filt * 10 + 1 ≤ run then raw else x.filt }

/-- A failed or passed test of an input at the pulse of TP `j` (R274): the first failure forces it to 0, the repeat decides. DESIGN CHOICE (log entry 57): the pulse that repeats a test is the next one of the TP at whose pulse it failed. -/
def State.inTest (s : State) (n j code : Nat) : State :=
  let x := s.isl.inps.getD n SInp.init
  let put (y : SInp) (u : State) : State := { u with isl := { u.isl with inps := u.isl.inps.set n y } }
  if bit (s.get R.SAF_INFLT_FLT) n then (if code ≠ 0 then put { x with passed := false } s else if x.by_ = j then put { x with passed := true } s else s)
  else if x.bad = 0 then (if code = 0 then s else put { x with bad := code, by_ := j } s)
  else if x.by_ ≠ j then s
  else if code = 0 then (put { x with bad := 0 } s).islTransient
  else (put { x with bad := code, passed := false } s).orFld R.SAF_INFLT_FLT (2 ^ n)

/-- The inputs assigned to a TP. -/
def Isl.inputsOf (i : Isl) (j : Nat) : List Nat := (List.range 32).filter (fun n => (i.inCfg n).tp == some j)

/-- The test of the TP itself (code 3): a second failure latches the TP and every input assigned to it (R272, R274). -/
def State.tpTest (s : State) (j : Nat) (bad : Bool) : State :=
  let k := s.isl.tpBad.getD j 0
  let put (v : Nat) (u : State) : State := { u with isl := { u.isl with tpBad := u.isl.tpBad.set j v } }
  if bit (s.get R.SAF_OUTFLT_TP) j then
    -- no input that the TP's fault has latched passes at a pulse at which the TP fails
    (if bad then (s.isl.inputsOf j).foldl (fun u n =>
        let x := u.isl.inps.getD n SInp.init
        if x.bad = 3 then { u with isl := { u.isl with inps := u.isl.inps.set n { x with passed := false } } } else u) (put 2 s)
      else put 3 s)
  else if !bad then (if k = 0 then s else (put 0 s).islTransient)
  else if k = 0 then put 1 s
  else
    let s1 := (put 2 s).orFld R.SAF_OUTFLT_TP (2 ^ j)
    (s.isl.inputsOf j).foldl (fun u n => { u with isl := { u.isl with inps := u.isl.inps.set n { u.isl.inps.getD n SInp.init with bad := 3, by_ := j, passed := false } } }.orFld R.SAF_INFLT_FLT (2 ^ n)) s1

/-- TP `j` starts an off-pulse (R272); in shadow the active island drives it, and this one judges the same pattern (R291). -/
def State.tpStart (s : State) (j : Nat) : State :=
  match s.isl.cfg with
  | none => s
  | some g =>
    if bit g.tpEn j && (s.tpDriven || s.islShadow) then
      { s with isl := { s.isl with win := some ⟨j, 0, none, maskOf 32 (fun n => (s.isl.inps.getD n SInp.init).raw), 0, 0xFFFFFFFF, false⟩ } }
    else s

/-- The off-pulse of TP `j` ends, and its own inputs and the TP are judged (codes 1 and 3). -/
def State.tpEnd (s : State) (j : Nat) : State :=
  match s.isl.win with
  | none => s
  | some w =>
    if w.tp ≠ j ∨ w.ended.isSome then s
    else
      let s1 := { s with isl := { s.isl with win := some { w with ended := some 0 } } }
      let s2 := (s.isl.inputsOf j).foldl (fun u n => if bit w.before n then u.inTest n j (if bit w.hiHalf n then 1 else 0) else u) s1
      s2.tpTest j w.tpHigh

/-- One sample of every input, with the levels of the TP pins (R273, R274). The window ends 100 µs after the pulse; the next sample judges the other TPs' inputs (code 2). -/
def State.siSample (s : State) (raw tp : Nat) : State :=
  let i := s.isl
  let half := match i.cfg with | some g => g.tpW / 2 | none => 0
  let inps := (List.range 32).map (fun n => (i.inps.getD n SInp.init).sample (bit raw n) (i.blanked n) (i.inCfg n).filt)
  let s1 := { s with isl := { i with inps := inps, blank := i.blank - 1 } }
  match i.win with
  | none => s1
  | some w =>
    match w.ended with
    | none =>
      let late := decide (half ≤ w.n)
      { s1 with isl := { s1.isl with win := some { w with n := w.n + 1, hiHalf := if late then w.hiHalf ||| raw else w.hiHalf, lowAll := maskOf 32 (fun n => bit w.lowAll n && !bit raw n), tpHigh := w.tpHigh || (late && bit tp w.tp) } } }
    | some e =>
      if e < 10 then { s1 with isl := { s1.isl with win := some { w with ended := some (e + 1), lowAll := maskOf 32 (fun n => bit w.lowAll n && !bit raw n) } } }
      else
        let others := (List.range 32).filter (fun n => (match (i.inCfg n).tp with | some k => k != w.tp | none => false) && bit w.before n && (bit raw n || !bit w.lowAll n))
        others.foldl (fun u n => u.inTest n w.tp (if bit w.lowAll n then 2 else 0)) { s1 with isl := { s1.isl with win := none } }

/-! Records and connections (R280, R281). -/

/-- SCRC of bytes 0 to 7 with a seed. -/
def scrc (seed : Nat) (b : List Nat) : Nat := b.foldl (fun c x => crcU 32 0x1EDC6F41 8 (c ^^^ (x % 256 * 2 ^ 24))) seed

/-- A record of a connection (R280). -/
def safetyRec (seed data cnt : Nat) : List Nat :=
  let b := leBytes data 6 ++ leBytes cnt 2
  b ++ leBytes (scrc seed b) 4

/-- A record arrives on connection `c` (R281). -/
def State.islRecord (s : State) (c : Nat) (b : List Nat) : State :=
  match s.isl.cfg with
  | none => s
  | some g =>
    match g.conn c, Store.get none s.isl.rx c with
    | some q, some r =>
      if s.islSt ≠ 2 then s
      else
        let cnt := leAt b 6 2
        let d := match r.cnt with | some k => (cnt + 65536 - k) % 65536 | none => 1
        if scrc q.seedIn (b.take 8) = leAt b 8 4 ∧ 1 ≤ d ∧ d ≤ 32767 then
          let data := leAt b 0 6
          let w := match q.axis with | some a => a.w | none => 1
          { s with isl := { s.isl with rx := Store.put none s.isl.rx c (some { r with cnt := some cnt, data := data, recs := ((cnt, spos data) :: r.recs).filter (fun x => decide ((cnt + 65536 - x.1) % 65536 ≤ w)), wd := cyc q.wd + 1, since := true }) } }
        else s.count R.SAF_DIAG_REC_IGN
    | _, _ => if s.islSt = 2 then s.count R.SAF_DIAG_REC_IGN else s

/-- The watchdog of connection `c` has run out (R281). -/
def State.wdExpire (s : State) (c : Nat) : State :=
  match Store.get none s.isl.rx c with
  | some r =>
    if r.wd = 0 ∧ r.lat = false ∧ s.islSt = 2 then
      ({ s with isl := { s.isl with rx := Store.put none s.isl.rx c (some { r with lat := true, since := false }) } }.orFld (if c < 32 then R.SAF_CONN0_WD else R.SAF_CONN1_WD) (2 ^ (c % 32)))
    else s
  | none => s

/-- One safety cycle of every watchdog. -/
def State.wdTick (s : State) : State :=
  (s.isl.rx.map (·.1)).foldl (fun u c => match Store.get none u.isl.rx c with
    | some r => ({ u with isl := { u.isl with rx := Store.put none u.isl.rx c (some { r with wd := r.wd - 1 }) } }).wdExpire c
    | none => u) s

/-- The outbound record of every connection, one per safety cycle (R281); the counter skips 0. -/
def State.islSend (s : State) (ev : EvSt) : State :=
  match s.isl.cfg with
  | none => s
  | some g =>
    if !s.leads then s
    else { s with isl := { s.isl with tx := g.conns.filterMap (fun (c, o) => o.map (fun q =>
        let n := (Store.get (0, []) s.isl.tx c).1
        let n' := if n + 1 < 65536 then n + 1 else 1
        (c, (n', safetyRec q.seedOut (ev.conn c).data n')))) } }

/-! Acknowledgement (R293). -/

/-- The latches that an ACK clears outside the table: inputs after a passing test, outputs and contactors whose condition is absent, connections with a record accepted again (R274, R278, R279, R281). -/
def State.islAck (s : State) : State :=
  let s1 := (List.range 32).foldl (fun u n =>
    let x := u.isl.inps.getD n SInp.init
    if bit (u.get R.SAF_INFLT_FLT) n && x.passed then { u with isl := { u.isl with inps := u.isl.inps.set n { x with bad := 0, passed := false } } }.set R.SAF_INFLT_FLT (setBit (u.get R.SAF_INFLT_FLT) n false)
    else u) s
  let s2 := (List.range 20).foldl (fun u n =>
    let x := u.isl.stage n
    let gone := if x.flt = 1 then !u.isl.readsOn n else if x.flt = 2 then true else if x.flt = 3 then bit u.isl.kf (n - 16) else false
    if gone then { u with isl := u.isl.setStage n { x with flt := 0, mis := 0 } } else u) s1
  let s3 := (List.range 8).foldl (fun u j => if bit (u.get R.SAF_OUTFLT_TP) j && u.isl.tpBad.getD j 0 == 3 then { u with isl := { u.isl with tpBad := u.isl.tpBad.set j 0 } }.set R.SAF_OUTFLT_TP (setBit (u.get R.SAF_OUTFLT_TP) j false) else u) s2
  (s3.isl.rx.map (·.1)).foldl (fun u c => match Store.get none u.isl.rx c with
    | some r =>
      if r.lat && r.since && decide (0 < r.wd) then
        let f := if c < 32 then R.SAF_CONN0_WD else R.SAF_CONN1_WD
        { u with isl := { u.isl with rx := Store.put none u.isl.rx c (some { r with lat := false }) } }.set f (setBit (u.get f) (c % 32) false)
      else u
    | none => u) s3

/-- The mailbox command ACK is answered (R296). -/
def State.cmdAck (s : State) : State :=
  ({ s with isl := { s.isl with ack := s.islSt == 2 } }.set R.SAF_RESP_RESULT 0).setFlag R.SAF_CMD_GO false

/-- PD1 leaves reset: its registers hold their reset values, but for the CRC of the section in force, and the island restarts from the section it holds (R271, R294, R398). -/
def State.islReset (s : State) : State :=
  let s1 := { s with isl := Isl.init s.isl.cfg, flds := s.flds.filter (fun p => blockDom (p.1 / 32) != 1 || p.1 == R.SAF_CFG_CRC_CRC.key) }
  (s1.set R.SAF_STAT_STATE 1).islPassive

/-- The mailbox command RESTART (R296): in ISL_FAULT or CONFIG_ERR it resets PD1, recorded as a safety reset. -/
def State.cmdRestart (s : State) : State :=
  if s.islSt = 3 ∨ s.islSt = 4 then
    ((((s.islReset.setFlag R.PWR_RST_CAUSE_SAFETY true).count R.PWR_RST_CNT_WARM).set R.SAF_RESP_RESULT 0).setFlag R.SAF_CMD_GO false)
  else (s.set R.SAF_RESP_RESULT 2).setFlag R.SAF_CMD_GO false

/-- The mailbox command NSREQ (R296). -/
def State.cmdNs (s : State) (arg : Nat) : State := ((s.set R.SAF_NS_NS arg).set R.SAF_RESP_RESULT 0).setFlag R.SAF_CMD_GO false

/-- GO is sampled (R296). -/
def State.mailbox (s : State) : State :=
  if !s.flag R.SAF_CMD_GO then s
  else
    let t := match s.get R.SAF_CMD_OP with
      | 1 => s.cmdAck
      | 2 => s.cmdRestart
      | 3 => s.cmdNs (s.get R.SAF_CMD_ARG)
      | _ => (s.set R.SAF_RESP_RESULT 1).setFlag R.SAF_CMD_GO false
    t.set R.SAF_RESP_CYCLE (s.get R.SAF_CYCLE_COUNT)

/-! The cycle (R270). -/

/-- A timer or a reference of the vector as a word: 0 for none. -/
def optWord (o : Option Nat) : Nat := match o with | some n => n + 1 | none => 0

/-- The words of a vector as the islands of a pair compare them (R291). -/
def Vec.words (v : Vec) : List Nat :=
  [v.so, v.ko, v.off] ++ v.ev.blks.map (fun b => b2n b.out + 2 * b2n b.l + 4 * b2n b.m + 8 * b.t) ++
  v.ev.cs.flatMap (fun (c, o) => match o with | some x => [c, x.data, x.viol, b2n x.sbcF, optWord x.ss1, optWord x.vss1, optWord x.sbcT, optWord (x.sosRef.map (ux 32)), optWord (x.sdiExt.map (ux 32))] | none => [])

/-- The compared vector takes effect (R270). -/
def State.islApply (s : State) : State :=
  match s.isl.vec with
  | none => s
  | some v =>
    if !s.isl.compared then s
    else
      let s1 := { s with isl := { s.isl with ev := v.ev, force := (v.so, v.ko, v.off), vec := none, compared := false } }
      let s2 := (List.range 20).foldl (fun u n => u.demand n ((u.outsDriven || u.islShadow) && (if n < 16 then bit v.so n else bit v.ko (n - 16)))) s1
      (((({ s2 with isl := { s2.isl with resume := maskOf 4 (fun j => bit s2.isl.resume j && !bit s2.isl.kf j && !(s2.isl.stage (16 + j)).cmd) } }).bridgeLines v.off).axisLines v.ev).islSend v.ev)

/-- The copies that the island writes at the end of a cycle (R296). -/
def State.islRegs (s : State) : State :=
  let viol := s.isl.ev.cs.foldl (fun m (c, o) => match o with | some x => if x.viol ≠ 0 ∨ x.sbcF = true then setBit m c true else m | none => m) 0
  ((((((((((s.set R.SAF_CYCLE_COUNT (s.get R.SAF_CYCLE_COUNT + 1)).set R.SAF_SI_SI (maskOf 32 (fun n => (s.isl.inps.getD n SInp.init).value))).set R.SAF_SO_ON s.soOn).set R.SAF_SO_FB s.isl.fb).set R.SAF_KO_ON s.koOn).set R.SAF_KO_KF s.isl.kf).set R.SAF_OUTFLT_SO (maskOf 16 (fun n => (s.isl.stage n).flt != 0))).set R.SAF_OUTFLT_KO (maskOf 4 (fun n => (s.isl.stage (16 + n)).flt != 0))).set R.SAF_VIOL0_VIOL viol).set R.SAF_VIOL1_VIOL (viol / 2 ^ 32)).setFlag R.SAF_STAT_FORCED_OFF (!(s.dev == .run && s.permit)) |>.setFlag R.SAF_STAT_SHADOW (!s.leads)

/-- The inputs of the cycle are latched (R270). -/
def State.islLatch (s : State) : IslIn :=
  { si := maskOf 32 (fun n => (s.isl.inps.getD n SInp.init).value), kf := s.isl.kf, so := s.stagesOn.1, ko := s.stagesOn.2,
    flt := maskOf 20 (fun n => (s.isl.stage n).flt != 0), ns := s.get R.SAF_NS_NS, ack := s.isl.ack,
    inb := s.isl.rx.filterMap (fun (c, o) => match o with | some r => if r.lat || r.data == 0 then none else some (c, r.data) | none => none),
    rx := s.isl.rx }

/-- A safety cycle starts (R270): outputs are judged, the mailbox is sampled, the compared vector takes effect, inputs are latched, and both cores evaluate the table. Outside ACTIVE the island writes its copies and answers the mailbox (R296). -/
def State.safetyCycle (s : State) : State :=
  if s.islSt = 0 then s
  else if s.islSt ≠ 2 then s.islRegs.mailbox
  else
    let s := s.dropStages
    let s1 := if s.judges then (List.range 16).foldl (fun u n => u.judgeOut n) s else s
    let s2 := if s.judges then (List.range 4).foldl (fun u j => (u.judgeKo j).kfTimeout j) s1 else s1
    let s3 := s2.wdTick.islApply.islRegs
    let s4 := s3.mailbox
    if s4.islSt ≠ 2 then s4
    else
      let i := s4.islLatch
      let s5 := if i.ack then { s4 with isl := { s4.isl with ack := false } }.islAck else s4
      match s5.isl.cfg with
      | none => s5
      | some g =>
        let v := islEval g i s5.isl.ev
        let s6 := { s5 with isl := { s5.isl with inp := i, vec := some v, compared := false } }
        if s.mtr.paired then s6.mortar (.safety (s6.get R.SAF_CYCLE_COUNT) v.words) else s6

/-- The compare unit at 200 µs (R270, R271). -/
def State.vectorCompare (s : State) (equal late : Bool) : State :=
  if s.islSt ≠ 2 ∨ s.isl.vec = none then s
  else if late then s.islFault 2
  else if equal then { s with isl := { s.isl with compared := true } }
  else s.islFault 1

/-- The section's checks and the self-test at the end of STARTING, and a periodic self-test in ACTIVE (R271, R294; DEDUCED, log entry 57: the row stands for both); in BOOT the section is not there yet (R421). A transient ECC error of island memory is counted. -/
def State.islStart (s0 : State) (t : IslTest) : State :=
  let s := if t = .transient ∧ (s0.islSt = 1 ∨ s0.islSt = 2) then s0.islTransient else s0
  if s.domUp 1 = false then s
  else if s.islSt = 2 then (match t with | .fail => s.islFault 4 | .lasting => s.islFault 5 | _ => s)
  else if s.islSt ≠ 1 ∨ s.dev = .boot then s
  else
    match s.isl.cfg with
    | none => (s.set R.SAF_STAT_STATE 3).set R.SAF_STAT_ISL_CODE 6
    | some g =>
      if t = .lasting then s.islFault 5
      else if !(g.ok (fun a => (s.ax a).assigned) (s.flag R.NVM_FUSE_LOCK)) then ((s.set R.SAF_STAT_STATE 3).set R.SAF_STAT_ISL_CODE 6).islPassive
      else if t = .fail then s.islFault 4
      else { s with isl := { Isl.init (some g) with resume := if s.shadows then 15 else 0 } }.set R.SAF_STAT_STATE 2 |>.set R.SAF_CFG_CRC_CRC g.crc2

/-! Meanings. -/

/-- What an event of the island can change: the island, its registers, the axes' demand lines, and the pins. -/
def islDo (t s : State) : Host.Outcome State Fault Refusal :=
  .next { s with isl := t.isl, axes := t.axes, chans := t.chans, mtr := t.mtr, dev := t.dev, holdBy := t.holdBy, flds := t.flds, bus := .none, outs := t.outs }

/-- SAFETY_CYCLE_START. -/
def execSafetyCycleStart (s : State) : Host.Outcome State Fault Refusal := islDo s.quiet.safetyCycle s

/-- VECTOR_COMPARE: `equal` says that the two cores' vectors agree bit for bit, `late` that a core has not delivered. -/
def execVectorCompare (equal late : Bool) (s : State) : Host.Outcome State Fault Refusal := islDo (s.quiet.vectorCompare equal late) s

/-- SI_SAMPLE: the levels of the safety inputs and of the TP pins. -/
def execSiSample (raw : BitVec 32) (tp : BitVec 8) (s : State) : Host.Outcome State Fault Refusal :=
  islDo (if s.islSt = 2 then s.quiet.siSample raw.toNat tp.toNat else s.quiet) s

/-- TEST_PULSE_START. -/
def execTestPulseStart (j : Fin 8) (s : State) : Host.Outcome State Fault Refusal := islDo (s.quiet.tpStart j) s

/-- TEST_PULSE_END. -/
def execTestPulseEnd (j : Fin 8) (s : State) : Host.Outcome State Fault Refusal := islDo (s.quiet.tpEnd j) s

/-- SOFB_SAMPLE: read-back, stage senses and contactor feedback; a change of KF starts a check (R275, R279). -/
def execSofbSample (fb : BitVec 16) (sense : BitVec 20) (kf : BitVec 4) (s : State) : Host.Outcome State Fault Refusal :=
  let i := (List.range 4).foldl (fun (i : Isl) j => if bit kf.toNat j ≠ bit i.kf j then i.setStage (16 + j) { i.stage (16 + j) with chk := true } else i) { s.isl with stg := s.dropStages.isl.stg.map (fun x => { x with settle := x.settle - 1 }) }
  .next { s with isl := { i with fb := fb.toNat, sense := sense.toNat, kf := kf.toNat }, bus := .none, outs := [] }

/-- OUTPUT_TEST_PULSE_START on stage n: SO n, or KO n − 16. -/
def execOutputTestPulseStart (n : Fin 20) (s : State) : Host.Outcome State Fault Refusal := islDo (s.quiet.outPulse n) s

/-- OUTPUT_TEST_PULSE_END. -/
def execOutputTestPulseEnd (n : Fin 20) (s : State) : Host.Outcome State Fault Refusal := islDo (s.quiet.outPulseEnd n) s

/-- OUTPUT_TEST_REPEAT: the repeated test has run; `readsOff` is its last sample. -/
def execOutputTestRepeat (n : Fin 20) (readsOff : Bool) (s : State) : Host.Outcome State Fault Refusal := islDo (s.quiet.outRetest n readsOff) s

/-- KF_CHECK_TIMEOUT. -/
def execKfCheckTimeout (j : Fin 4) (s : State) : Host.Outcome State Fault Refusal := islDo (s.quiet.kfTimeout j) s

/-- CONNECTION_WATCHDOG_EXPIRE. -/
def execConnectionWatchdogExpire (c : Fin 64) (s : State) : Host.Outcome State Fault Refusal := islDo (s.quiet.wdExpire c) s

/-- ISLAND_CLOCK_CHECK: the island clock's deviation from HSX over 1 ms, in parts per million. -/
def execIslandClockCheck (ppm : Int) (s : State) : Host.Outcome State Fault Refusal :=
  islDo (if 20000 < ppm.natAbs ∧ (s.islSt = 1 ∨ s.islSt = 2) then s.quiet.islFault 3 else s.quiet) s

/-- SS1_STO_INSTANT: an SS1 of the connection has reached its STO instant, and STO is imposed on its axis (R285). -/
def execSs1StoInstant (c : Fin 64) (s : State) : Host.Outcome State Fault Refusal :=
  let x := s.isl.ev.conn c
  let t := match s.isl.cfg.bind (fun g => g.axisOf c) with
    | some a => if x.ss1 = some 0 ∨ x.vss1 = some 0 then s.setAx a.axis { s.ax a.axis with sto := true } else s
    | none => s
  .next { s with axes := t.axes, bus := .none, outs := [] }

/-- LOGIC_TIMER_EXPIRE: the vector of the cycle under way holds the output that the elapsed timer gives; the cores evaluate the table from the latched inputs. -/
def execLogicTimerExpire (s : State) : Host.Outcome State Fault Refusal :=
  let v := match s.isl.cfg, s.isl.vec with
    | some g, some _ => some (islEval g s.isl.inp s.isl.ev)
    | _, o => o
  .next { s with isl := { s.isl with vec := v }, bus := .none, outs := [] }

/-- SBC_FAULT: the brake check of the connection has run out with BRK_CLOSED not following, which latches, takes torque and orders the brake closed (R287). -/
def execSbcFault (c : Fin 64) (s : State) : Host.Outcome State Fault Refusal :=
  let x := s.isl.ev.conn c
  let d := match Store.get none s.isl.rx c with | some r => if r.lat then 0 else r.data | none => 0
  let fault := x.sbcT == some 0 && (bit d 35 == x.brk)
  let ev := if fault then { s.isl.ev with cs := Store.put none s.isl.ev.cs c (some { x with sbcF := true, tq := false, brk := false, data := setBit (setBit x.data 0 false) 1 false }) } else s.isl.ev
  let t := match s.isl.cfg.bind (fun g => g.axisOf c) with
    | some a => if fault then s.setAx a.axis { s.ax a.axis with sto := true } else s
    | none => s
  .next { s with isl := { s.isl with ev := ev }, axes := t.axes, bus := .none, outs := [] }

/-- ISLAND_START; `test` is what the island's self-test finds. -/
def execIslandStart (test : IslTest) (s : State) : Host.Outcome State Fault Refusal := islDo (s.quiet.islStart test) s

/-- A mailbox command is written with GO; while GO reads 1 the write is ignored. The island answers it at the start of its next safety cycle (R296). -/
def State.safCmd (s : State) (op arg : Nat) : State :=
  if s.flag R.SAF_CMD_GO then s else ((s.set R.SAF_CMD_OP op).set R.SAF_CMD_ARG arg).setFlag R.SAF_CMD_GO true

/-- ACK. -/
def execAck (s : State) : Host.Outcome State Fault Refusal := s.atReg (0x800D0004) (islDo (s.quiet.safCmd 1 0) s)

/-- RESTART. -/
def execRestart (s : State) : Host.Outcome State Fault Refusal := s.atReg (0x800D0004) (islDo (s.quiet.safCmd 2 0) s)

/-- NSREQ. -/
def execNsreq (arg : BitVec 8) (s : State) : Host.Outcome State Fault Refusal := s.atReg (0x800D0004) (islDo (s.quiet.safCmd 3 arg.toNat) s)

end Sys2Proof.Machine
end

