-- ==== Sys2Proof/Machine/Cpu.lean ====
section
/-! DEFINITION. The application cores, the scheduler and the DMA engine after reset, and access to them (R364, R370, R373, R379). -/
namespace Sys2Proof.Machine

/-- A core after reset: machine mode, at the start of the boot ROM (R370; where in the boot ROM is DESIGN CHOICE, log entry 20), registers 0. -/
def Core.init : Core := ⟨List.replicate 32 0, List.replicate 32 0, 0, true, [], 0, 0, none, false, 0, none⟩

/-- A DMA channel after reset. -/
def DCh.init : DCh := ⟨none, [], 0, 0, 0⟩

/-- Core `n`. -/
def State.core (s : State) (n : Nat) : Core := Store.get Core.init s.cores n

/-- Replace core `n`. -/
def State.setCore (s : State) (n : Nat) (c : Core) : State := { s with cores := Store.put Core.init s.cores n c }

/-- Core `n` runs: AC0 after reset, the others once released (R370). -/
def State.coreRuns (s : State) (n : Nat) : Bool :=
  s.domUp 2 && s.dev != .reset && s.dev != .off && (n == 0 || bit (s.get R.SCH_CORE_RUN_RUN) (n - 1))

/-- A byte address lies in application SRAM. -/
def inSram (a : Nat) : Bool := decide (0x10000000 ≤ a ∧ a < 0x10200000)

/-- Written bytes end the reservation of every core but the writer (R367). -/
def State.unreserve (s : State) (w : List (Nat × BitVec 8)) (own : Option Nat) : State :=
  [0, 1, 2, 3].foldl (fun u i => match (u.core i).res with
    | some a => if own ≠ some i ∧ w.any (fun x => x.1 / 4 == a / 4) = true then u.setCore i { u.core i with res := none } else u
    | none => u) s

/-- A unit of the device writes bytes into application SRAM; what lies elsewhere is not written. -/
def State.sramWrite (s : State) (w : List (Nat × BitVec 8)) : State :=
  let v := w.filter (fun x => inSram x.1)
  (s.poke v).unreserve v none

/-- DMA channel `n`. -/
def State.dch (s : State) (n : Nat) : DCh := Store.get DCh.init s.dma n

/-- Replace DMA channel `n`. -/
def State.setDch (s : State) (n : Nat) (c : DCh) : State := { s with dma := Store.put DCh.init s.dma n c }

/-- A channel is WAIT_REQ, ACTIVE or HELD (R383, R384). -/
def State.dmaBusy (s : State) (n : Nat) : Bool := [1, 2, 7].contains (s.get (R.DMA_CH_STAT_STATE n))

end Sys2Proof.Machine
end

