-- ==== Sys2Proof/Machine/Dripota.lean ====
section
/-! DEFINITION. Dripota messages and how an answer leaves: the UDP port with ARP and the client table on the root, the cascade elsewhere (R329 to R337, R355). -/
namespace Sys2Proof.Machine

/-- The header and body of a Dripota message (R331). -/
def DMsg.plain (m : DMsg) : List Nat :=
  leBytes 0x4450 2 ++ [1, m.kind % 256] ++ leBytes m.client 2 ++ [m.dev % 64, m.member % 256] ++ leBytes m.seq 4 ++
  leBytes m.opcode 2 ++ [m.status % 256, m.estate % 256] ++ leBytes m.body.length 2 ++ leBytes 0 2 ++ m.body

/-- A Dripota message with its CRC-32C (R331). -/
def DMsg.bytes (m : DMsg) : List Nat := m.plain ++ leBytes (crc32c m.plain) 4

/-- The message in a UDP payload, if the checks of R333 that do not depend on the port pass. -/
def dparse (b : List Nat) : Option DMsg :=
  let len := leAt b 16 2
  if 24 ≤ b.length ∧ b.length = 24 + len ∧ leAt b 0 2 = 0x4450 ∧ at_ b 2 = 1 ∧ len ≤ 512 ∧ crc32c (b.take (20 + len)) = leAt b (20 + len) 4 then
    some { kind := at_ b 3, client := leAt b 4 2, dev := at_ b 6, member := at_ b 7, seq := leAt b 8 4, opcode := leAt b 12 2,
           status := at_ b 14, estate := at_ b 15, body := slice b 20 len }
  else none

/-- The kinds of R332 that a device receives on a port. -/
def kindOk (kind port : Nat) : Bool := port == 40961 && (kind == 1 || (decide (0x10 ≤ kind ∧ kind ≤ 0x1F)))

/-- The device is the root of its cascade: CASC_ROOT is high (R330, R347). -/
def State.root (s : State) : Bool := s.flag R.CAS_CFG_ROOT

/-- The next hop of an address: itself on the own network, else the gateway (R329). -/
def State.hop (s : State) (ip : Nat) : Nat :=
  let m := s.get R.HST_MASK_MASK
  if (ip &&& m) = (s.get R.HST_IP_IP &&& m) then ip else s.get R.HST_GW_GW

/-- The MAC address of a next hop in the cache (R329): an entry holds for 300 s. -/
def State.macOf (s : State) (hop : Nat) : Option Nat :=
  (s.hst.arp.find? (fun (i, _, t) => i == hop && decide (s.now < t + 300000000000))).map (·.2.1)

/-- The IPv4 header of what HST sends: TTL 64, DF set, the DSCP of the image (R329). -/
def State.ipHdr (s : State) : IpHdr := ⟨64, true, s.get R.HST_MAC_HI_DSCP⟩

/-- An answer to an address leaves, or waits up to 1 s while its next hop is resolved (R329). -/
def State.ipSend (s : State) (ip : Nat) (p : Pkt) : State :=
  if !s.flag R.HST_STAT_LINK then s
  else
    match s.macOf (s.hop ip) with
    | some _ => s.emit (.ip s.ipHdr p)
    | none => ({ s with hst := { s.hst with waits := s.hst.waits ++ [Wait.mk (s.hop ip) (s.now + 1000000000) p] } }).emit (.arpRequest (s.hop ip))

/-- A UDP payload leaves. -/
def State.udpSend (s : State) (ip port sport : Nat) (b : List Nat) : State := s.ipSend ip (.udp ip port sport b)

/-- A message goes to its client's entry in the client address table, from the port of its kind (R332), or is dropped and counted (R335). -/
def State.toClient (s : State) (client : Nat) (b : List Nat) : State :=
  match s.hst.clients.find? (fun c => c.1 == client) with
  | some (_, ip, port) => s.udpSend ip port (if at_ b 3 = 0x20 then 40962 else 40961) b
  | none => s.count R.HST_DROP_CNT_NOADDR

/-- A message leaves the device: to the client on the root, over the cascade to position 0 elsewhere (R335, R355). -/
def State.sendHost (s : State) (m : DMsg) : State :=
  if s.root then s.toClient m.client m.bytes
  else if s.flag R.CAS_CFG_EN then s.casAsk 3 0 m.bytes else s

/-- MEMBER of an answer (R331). -/
def State.memberByte (s : State) : Nat := s.get R.MTR_STAT_MEMBER + 2 * b2n s.mtr.paired

/-- An answer of this position (R331, R334). -/
def State.answer (s : State) (kind client seq status estate : Nat) (body : List Nat) : State :=
  s.sendHost { kind := kind, client := client, dev := s.get R.CAS_CFG_POS, member := s.memberByte, seq := seq, opcode := 0, status := status, estate := estate, body := body }

/-- The client table takes the source of a valid message: its entry comes first, and the least recently updated of more than 64 goes (R335). -/
def Hst.learn (h : Hst) (client ip port : Nat) : Hst :=
  { h with clients := ((client, ip, port) :: h.clients.filter (fun c => c.1 != client)).take 64 }

/-- The address of a slot of a firmware ring (R337). -/
def fwSlot (base i : Nat) : Nat := base / 1024 * 1024 + i % 16 * 1024

/-- A SERVICE message enters the firmware's receive ring, or is discarded with RX_OVF (R337). -/
def State.fwReceive (s : State) (ip port : Nat) (b : List Nat) : State :=
  let h := s.get R.HST_FWQ_RXPTR_HEAD
  if (h + 1) % 16 = s.get R.HST_FWQ_RXPTR_TAIL then s.setFlag R.HST_FWQ_RXPTR_RX_OVF true
  else
    let a := fwSlot (s.get R.HST_FWQ_RXBASE_BASE) h
    let hd := leBytes b.length 2 ++ leBytes port 2 ++ leBytes ip 4 ++ leBytes 40961 2 ++ leBytes 0 6
    (s.sramWrite ((hd ++ b).zipIdx.map (fun (x, i) => (a + i, BitVec.ofNat 8 x)))).set R.HST_FWQ_RXPTR_HEAD ((h + 1) % 16)

end Sys2Proof.Machine
end

