-- ==== Sys2Proof/Machine/Journal.lean ====
section
/-! DEFINITION. The journal of accepted work: entries, clients, judging, release, completion (R320 to R327, R334, R336). -/
namespace Sys2Proof.Machine

/-- The journal. -/
def State.jnl (s : State) : Jnl := s.mtr.jnl

/-- Replace the journal. -/
def State.setJnl (s : State) (j : Jnl) : State := { s with mtr := { s.mtr with jnl := j } }

/-- Entry `i`; none is FREE. -/
def Jnl.ent (j : Jnl) (i : Nat) : Option JEnt := Store.get none j.ents i

/-- Replace entry `i`. -/
def Jnl.setEnt (j : Jnl) (i : Nat) (e : Option JEnt) : Jnl := { j with ents := Store.put none j.ents i e }

/-- The bytes of an entry in the window at 0x6000_0000 (R321). -/
def JEnt.bytes (e : JEnt) : List Nat :=
  let head := leBytes e.client 2 ++ [e.st, 0] ++ leBytes e.seq 4 ++ leBytes e.acc 8 ++ leBytes e.doneC 8 ++ leBytes e.body.length 2 ++ leBytes e.result.length 2
  head ++ leBytes (crc32c (head ++ e.body ++ e.result)) 4 ++ leBytes 0 32 ++ fitTo e.body 512 ++ fitTo e.result 448

/-- A byte of the journal window. -/
def State.jnlByte (s : State) (a : Nat) : Nat :=
  match s.jnl.ent (a / 1024 % 256) with
  | some e => at_ e.bytes (a % 1024)
  | none => 0

/-- A word of entry `i` is poisoned. -/
def State.jBad (s : State) (i : Nat) : Bool := s.tst.poison.any (fun p => p.1 == 7 && p.2 / 1024 % 256 == i)

/-- Entry `i` is read: one whose check fails for good is freed, with LOST (R321, R405). -/
def State.jRead (s : State) (i : Nat) : State :=
  if s.jBad i && (s.jnl.ent i).isSome then (s.setJnl (s.jnl.setEnt i none)).setFlag R.JNL_STAT_LOST true else s

/-- Some entries are read. -/
def State.jCheck (s : State) (l : List Nat) : State := l.foldl State.jRead s

/-- Entries not FREE. -/
def Jnl.used (j : Jnl) : Nat := (j.ents.filter (fun x => x.2.isSome)).length

/-- The entries with their indices. -/
def Jnl.all (j : Jnl) : List (Nat × JEnt) := j.ents.filterMap (fun (i, o) => o.map (fun e => (i, e)))

/-- The slot of a client. -/
def Jnl.slotOf (j : Jnl) (client : Nat) : Option (Nat × JCl) :=
  j.cls.findSome? (fun (i, o) => match o with | some c => if c.client = client then some (i, c) else none | none => none)

/-- The first free client slot. -/
def Jnl.freeSlot (j : Jnl) : Option Nat := (List.range 16).find? (fun i => (Store.get none j.cls i).isNone)

/-- Change a client's slot. -/
def Jnl.updCl (j : Jnl) (client : Nat) (f : JCl → JCl) : Jnl :=
  { j with cls := j.cls.map (fun (i, o) => (i, o.map (fun c => if c.client = client then f c else c))) }

/-- Sequence number a lies before b in 32-bit serial arithmetic (R322). -/
def seqBefore (a b : Nat) : Bool := let d := (b + 2 ^ 32 - a % 2 ^ 32) % 2 ^ 32; decide (1 ≤ d ∧ d < 2 ^ 31)

/-- The oldest of some entries by a measure. -/
def oldest (m : JEnt → Nat) : List (Nat × JEnt) → Option (Nat × JEnt)
  | [] => none
  | x :: r => match oldest m r with
    | none => some x
    | some y => if m y.2 < m x.2 then some y else some x

/-- The index a new entry takes: the lowest FREE one, else that of the oldest DONE entry, which is evicted (R322). -/
def Jnl.place (j : Jnl) : Option Nat :=
  match (List.range 256).find? (fun i => (j.ent i).isNone) with
  | some i => some i
  | none => (oldest JEnt.ord (j.all.filter (fun x => x.2.st == 4))).map (·.1)

/-- The outcomes of R322, ACCEPTED and WAITING with the entry written, a duplicate with its entry. -/
inductive JOut where
  | written (i : Nat) (waiting : Bool)
  | again (i : Nat)
  | busy | window | expired | noSlot
  deriving DecidableEq, Repr

/-- The whole journal is read, its entries checked (R321). -/
def State.jScan (s : State) : State := s.jCheck (List.range 256)

/-- Judge a command of a client (R322), and write it when it is accepted; the words of its entry are sound again (R405). -/
def State.jJudge (s : State) (client seq opcode : Nat) (body : List Nat) : JOut × State :=
  let j := s.jnl
  match j.all.find? (fun x => x.2.client == client && x.2.seq == seq) with
  | some (i, _) => (.again i, s.setJnl (j.updCl client (fun c => { c with last := s.now })))
  | none =>
    let known := j.slotOf client
    match known, j.freeSlot with
    | none, none => (.noSlot, s)
    | _, fs =>
      let j1 : Jnl := match known, fs with
        | none, some k => { j with cls := Store.put none j.cls k (some ⟨client, seq, s.now⟩) }
        | _, _ => j.updCl client (fun c => { c with last := s.now })
      let next := match j1.slotOf client with | some (_, c) => c.next | none => seq
      if seqBefore seq next then (.expired, s.setJnl j1)
      else if 255 < (seq + 2 ^ 32 - next) % 2 ^ 32 then (.window, s.setJnl j1)
      else
        match j1.place with
        | none => (.busy, s.setJnl j1)
        | some i =>
          let w := seq != next
          let e : JEnt := { client := client, st := if w then 1 else 2, seq := seq, acc := s.crs.cnt, doneC := 0, body := body, result := [], opcode := opcode, ord := j1.ord, rel := 0, taken := false, ack := none, res := none }
          (.written i w, { s.setJnl { j1.setEnt i (some e) with ord := j1.ord + 1 } with tst := { s.tst with poison := s.tst.poison.filter (fun p => !(p.1 == 7 && p.2 / 1024 % 256 == i)) } })

/-- Acceptance waits for the standby's JACK: a HOLDER without SOLO (R320). -/
def State.needJack (s : State) : Bool := s.mtr.paired && s.mtr.holder && !s.flag R.MTR_STAT_SOLO

/-- The acknowledgement of entry `i` (R334). -/
def State.jAck (s : State) (e : JEnt) (status : Nat) : State := s.answer 2 e.client e.seq status e.st []

/-- A command for this position reaches the journal logic (R320, R322, R334). -/
def State.jCommand (s : State) (m : DMsg) : State :=
  let refuse (u : State) (code : Nat) : State := u.answer 4 m.client m.seq code 0 []
  if !s.leads then refuse s 6
  else if 0x8000 ≤ m.opcode ∧ ¬(0x8001 ≤ m.opcode ∧ m.opcode ≤ 0x8005) then refuse s 8
  else
    match s.jScan.jJudge m.client m.seq m.opcode m.body with
    | (.busy, t) => refuse t 2
    | (.window, t) => refuse t 3
    | (.expired, t) => refuse t 4
    | (.noSlot, t) => refuse t 5
    | (.again i, t) =>
      match t.jnl.ent i with
      | none => t
      | some e =>
        if e.st = 4 then t.answer 3 e.client e.seq 0 0 e.result
        else if e.ack.isSome then t
        else t.jAck e 0
    | (.written i w, t) =>
      match t.jnl.ent i with
      | none => t
      | some e =>
        let code := if w then 1 else 0
        let u := if t.mtr.paired then t.mortar (.journal i e) else t
        if t.needJack then u.setJnl (u.jnl.setEnt i (some { e with ack := some code })) else u.jAck e code

/-- The JACK of entry `i` lets the HOLDER acknowledge it (R320). -/
def State.jJack (s : State) (i : Nat) : State :=
  match s.jnl.ent i with
  | some e => (match e.ack with
    | some code => (s.setJnl (s.jnl.setEnt i (some { e with ack := none }))).jAck e code
    | none => s)
  | none => s

/-- With SOLO set, every acknowledgement that awaited a JACK is sent (R320). -/
def State.jSolo (s : State) : State := (s.jnl.all.map (·.1)).foldl State.jJack s

/-- One release (R323): the first entry in order of acceptance whose acceptance lies two courses back and whose number is its client's NEXT. -/
def State.jReleaseOne (s : State) : Option State :=
  let j := s.jnl
  let ok (e : JEnt) : Bool := (e.st == 1 || e.st == 2) && decide (e.acc + 2 ≤ s.crs.cnt) && (match j.slotOf e.client with | some (_, c) => c.next == e.seq | none => true)
  match oldest JEnt.ord (j.all.filter (fun x => ok x.2)) with
  | none => none
  | some (i, e) => some (s.setJnl { (j.setEnt i (some { e with st := 3, rel := j.rel })).updCl e.client (fun c => { c with next := (e.seq + 1) % 2 ^ 32 }) with rel := j.rel + 1 })

/-- Releases until none is due. -/
def State.jReleaseGo : Nat → State → State
  | 0, s => s
  | n + 1, s => match s.jReleaseOne with
    | some t => State.jReleaseGo n t
    | none => s

/-- JOURNAL_RELEASE at a course start (R323). -/
def State.jRelease (s : State) : State := s.jScan.jReleaseGo 256

/-- The oldest released entry not yet taken, of firmware or with a device opcode (R323, R336). -/
def Jnl.next (j : Jnl) (dev : Nat → Bool) : Option (Nat × JEnt) := oldest JEnt.rel (j.all.filter (fun x => x.2.st == 3 && !x.2.taken && dev x.2.opcode))

/-- The entry that JNL_NEXT names: device commands are skipped (R336). -/
def Jnl.fwNext (j : Jnl) : Option (Nat × JEnt) := j.next (fun o => decide (o < 0x8000))

/-- A write of 1 to JNL_TAKE (R323). -/
def State.jTake (s : State) : State :=
  match s.jnl.fwNext with
  | some (i, e) => s.setJnl (s.jnl.setEnt i (some { e with taken := true }))
  | none => s

/-- An entry is completed with its result during this course (R324). -/
def State.jComplete (s : State) (i : Nat) (e : JEnt) (r : List Nat) : State :=
  let e1 := { e with res := some (r, s.crs.cnt), taken := true }
  let s1 := s.setJnl (s.jnl.setEnt i (some e1))
  if s.mtr.paired then s1.mortar (.journal i e1) else s1

/-- A GO write of JNL_DONE (R324), to an entry that stands. -/
def State.jDoneAt (s : State) (i len : Nat) : State :=
  let code (c : Nat) (u : State) : State := (u.set R.JNL_ERR_RESULT c).setFlag R.JNL_DONE_GO false
  if !s.leads then code 4 s
  else match s.jnl.ent i with
    | none => code 1 s
    | some e =>
      if e.st ≠ 3 ∨ e.res.isSome = true then code 2 s
      else if 448 < len then code 3 s
      else code 0 (s.jComplete i e ((List.range len).map (fun k => (s.byte (s.get R.JNL_RES_ADDR_ADDR / 4 * 4 + k)).toNat)))

/-- A GO write of JNL_DONE: the entry is read first (R321). -/
def State.jDone (s : State) (i len : Nat) : State := (s.jRead i).jDoneAt i len

/-- An entry is DONE, committed with the copy of course `c`; its result goes to the host (R324). -/
def State.jCommit (s : State) (i c : Nat) (send : Bool) : State :=
  match s.jnl.ent i with
  | none => s
  | some e => match e.res with
    | none => s
    | some (r, _) =>
      let s1 := s.setJnl (s.jnl.setEnt i (some { e with st := 4, doneC := c, result := r, res := none }))
      if send then s1.answer 3 e.client e.seq 0 0 r else s1

/-- The entries whose completion was written in course `c` or before. -/
def Jnl.doneBy (j : Jnl) (c : Nat) : List Nat := j.all.filterMap (fun (i, e) => match e.res with | some (_, d) => if d ≤ c then some i else none | none => none)

/-- Results due at the start of a course on a device that completes alone: those written two courses back (R324). -/
def State.jCommitSolo (s : State) : State :=
  if 2 ≤ s.crs.cnt then (s.jnl.doneBy (s.crs.cnt - 2)).foldl (fun u i => u.jCommit i (s.crs.cnt - 1) true) s else s

/-- After a switch-over or a warm reset, uncommitted results are dropped, released entries are offered again, and no acknowledgement awaits a JACK (R320, R325). -/
def Jnl.revert (j : Jnl) : Jnl :=
  { j with ents := j.ents.map (fun (i, o) => (i, o.map (fun e => if e.st = 3 then { e with taken := false, res := none, ack := none } else { e with res := none, ack := none }))) }

/-- A client slot that has been idle for 60 s with only DONE entries is freed (R322). -/
def State.jExpire (s : State) (k : Nat) : State :=
  match Store.get none s.jnl.cls k with
  | some c =>
    if c.last + 60000000000 ≤ s.now ∧ s.jnl.all.all (fun x => x.2.client != c.client || x.2.st == 4) = true then
      s.setJnl { s.jnl with cls := Store.put none s.jnl.cls k none }
    else s
  | none => s

/-! Meanings. -/

/-- What an operation of the journal can change. -/
def jnlDo (t s : State) : Host.Outcome State Fault Refusal :=
  .next { s with mtr := t.mtr, hst := t.hst, cas := t.cas, flds := t.flds, bus := .none, outs := t.outs }

/-- JNL_TAKE. -/
def execJnlTake (s : State) : Host.Outcome State Fault Refusal :=
  s.atReg (0x800E0208) (jnlDo ({ s with outs := [] }).jTake s)

/-- JNL_DONE: the GO write, with INDEX and RES_LEN. While GO reads 1 the write would be ignored; GO clears in the same step. -/
def execJnlDone (i : BitVec 8) (len : BitVec 9) (s : State) : Host.Outcome State Fault Refusal :=
  s.atReg (0x800E020C) (jnlDo (((({ s with outs := [] }).set R.JNL_DONE_INDEX i.toNat).set R.JNL_DONE_RES_LEN len.toNat).jDone i.toNat len.toNat) s)

/-- CLIENT_SLOT_EXPIRE. -/
def execClientSlotExpire (k : Fin 16) (s : State) : Host.Outcome State Fault Refusal := jnlDo (({ s with outs := [] }).jExpire k) s

end Sys2Proof.Machine
end

