-- ==== Sys2Proof/Machine/Tst.lean ====
section
/-! DEFINITION. The self-test controller's runs: what starts, waits and ends (R314, R406, R407). -/
namespace Sys2Proof.Machine

/-- A run begins; a round starts with nothing covered. -/
def State.tstBegin (s : State) (k : TstRun) : State :=
  let t := { s with tst := { s.tst with run := k } }.setFlag R.TST_STAT_RUNNING (decide (k ≠ TstRun.idle))
  if k = .round then (t.set R.TST_COV_LOGIC_PCT 0).set R.TST_COV_MEM_PCT 0 else t

/-- A run is asked for: it begins, or waits behind what runs; one that already waits is not queued twice (R407). -/
def State.tstAsk (s : State) (k : TstRun) : State :=
  if s.tst.run = .idle then s.tstBegin k
  else if s.tst.waits.contains k || (k == .quick && s.tst.run == .quick) then s
  else { s with tst := { s.tst with waits := s.tst.waits ++ [k] } }

/-- The run of kind `k` has ended: its request bit clears, a round leaves its coverage (R316), and the next begins (R406, R407). -/
def State.tstEnd (s : State) (k : TstRun) : State :=
  if s.tst.run = k then
    let t := match k with
      | .round => { s with tst := { s.tst with endAt := s.now, covL := s.get R.TST_COV_LOGIC_PCT, covM := s.get R.TST_COV_MEM_PCT } }.setFlag R.TST_CTRL_ROUND (s.tst.waits.contains .round && s.flag R.TST_CTRL_ROUND)
      | .quick => s.setFlag R.TST_CTRL_QUICK (s.tst.waits.contains .quick)
      | .idle => s
    match t.tst.waits with
    | [] => t.tstBegin .idle
    | w :: r => { t with tst := { t.tst with waits := r } }.tstBegin w
  else s

/-- A word is marked poisoned, and the lasting failure is counted with its memory and address (R405). -/
def State.poisonWords (s : State) (m addr : Nat) (words : List Nat) : State :=
  let new := (words.map (fun w => (m, w))).filter (fun p => !s.tst.poison.contains p)
  ((({ s with tst := { s.tst with poison := s.tst.poison ++ new } }).count R.TST_ECC_LAST_LASTING).set R.TST_ECC_LAST_MEM m).set R.TST_ECC_ADDR_ADDR addr

/-- What a read of the word at `a` of memory `m` found (R405): a corrected or a transient error is counted, a lasting one poisons the word. -/
def State.eccRead (s : State) (m a : Nat) : EccRes → State
  | .clean => s
  | .corrected => s.count R.TST_ECC_CNT_CORRECTED
  | .transient => s.count R.TST_ECC_CNT_TRANSIENT
  | .lasting => s.poisonWords m a [a / 4 * 4]

end Sys2Proof.Machine
end

