-- ==== Sys2Proof/Machine/Pair.lean ====
section
/-! DEFINITION. Paired operation: roles, the mortar link, the keystone with its lease and fence, the state copy, digests, the weather report (R297 to R319). -/
namespace Sys2Proof.Machine

/-- The code of a role (R298). -/
def Role.code : Role → Nat
  | .alone => 0
  | .holder => 1
  | .detached => 2
  | .syncing => 3
  | .ready => 4
  | .unhealthy => 5

/-- Change the pair's record. -/
def State.updMtr (s : State) (f : Mtr → Mtr) : State := { s with mtr := f s.mtr }

/-- The mortar link is up. -/
def State.linkUp (s : State) : Bool := s.flag R.MTR_STAT_LINK_UP

/-! Roles. -/

/-- What makes a synchronised standby READY (R315). -/
def State.mayBeReady (s : State) : Bool :=
  s.mtr.jnlOk && s.flag R.PIM_STAT_OUT_SYNC && s.islSt == 2 && s.dev == .run && s.follows && !s.mtr.adopt && s.mtr.copyAt.isSome &&
  (match s.mtr.peer with | some p => p.sfc == s.mtr.sfc | none => false)

/-- SYNCING and READY as the conditions stand: a READY standby in SAFE_HOLD or without its rings reads SYNCING (R298, R315). -/
def State.judgeReady (s : State) : State :=
  match s.mtr.role with
  | .syncing => if s.mayBeReady then s.updMtr (fun m => { m with role := .ready }) else s
  | .ready => if s.dev == .run && s.follows then s else s.updMtr Mtr.unready
  | _ => s

/-- The role a member takes when it does not hold the keystone: UNHEALTHY is left only by a reset (R298). -/
def State.offRole (s : State) : Role :=
  if s.mtr.role = .unhealthy ∨ s.mtr.unfit = true then .unhealthy else if s.linkUp then .syncing else .detached

/-- IMG_DIFF (R319): the standby sets it while the two members' images differ. -/
def State.judgeImg (s : State) : State :=
  s.setFlag R.MTR_STAT_IMG_DIFF (s.shadows && (match s.mtr.peer with | some p => p.img != s.mtr.img | none => false))

/-- No resynchronisation pass is complete (R235). -/
def State.clearPass (s : State) : State := { s with pim := { s.pim with passDone := false } }

/-- A member starts to synchronise: the journal, the output records and the first copy are awaited (R315). -/
def State.startSync (s : State) : State :=
  ((s.judgeImg.updMtr (fun m => { m with jnlOk := false, bulkOn := false, adopt := true, copyAt := none, copySch := none, copyMiss := 0, misRun := 0, granted := none, renewed := none, margin := none, retry := 0 })).clearPass.setFlag R.PIM_STAT_OUT_SYNC false).setFlag R.PIM_STAT_RESYNC true

/-- The keystone is let go: the fence is expired, PAIR_ACT falls, and the member is no longer HOLDER (R300, R305, R308). -/
def State.letGo (s : State) : State :=
  if !s.mtr.holder then s
  else
    let t := (((s.updMtr (fun m => { m with role := s.offRole, fence := 0, pairAct := false, relDue := false, lastRenew := none, conflict := 0 })).count R.MTR_SO_CNT_RELEASES).setFlag R.MTR_STAT_SOLO false).setFlag R.MTR_CTRL_HANDOVER false
    State.repin t.startSync s

/-- A higher epoch makes the HOLDER give up the keystone (R308). -/
def State.epochLost (s : State) : State :=
  if s.mtr.paired && s.mtr.holder then s.letGo.setFlag R.MTR_STAT_EPOCH_LOST true else s

/-- L, the lease in courses. -/
def State.lease (s : State) : Nat := s.get R.MTR_LEASE_LEASE

/-- `n` courses in cycles of HSX, cut to whole cycles (R305). -/
def State.fenceOf (s : State) (n : Nat) : Nat := n * s.get R.BOND_CRS_PERIOD_PERIOD_NS * 25 / 1000

/-- The higher of two epochs; one that cannot be compared is lower (R185). -/
def epMax (a b : Nat) : Nat := if epHigher b a then b else a

/-- The epoch of a claim: one above the highest of the own, the peer's and those accepted on the rings (R306). -/
def State.claimEpoch (s : State) : Nat :=
  (s.ringsEn.foldl (fun e k => epMax e (s.get (R.RING_HEAD_EPOCH_MAX k))) (epMax (s.get R.MTR_EPOCH_EPOCH) (s.get R.MTR_EPOCH_PEER_EPOCH)) + 1) % 65536

/-- Adopt a schedule: its number and the times of the course registers (R33, R35). -/
def State.adoptSched (s : State) (j : Nat) : State :=
  match s.crs.scheds.getD j none with
  | some d => (((s.set R.BOND_CRS_STAT_SCHED_CUR j).set R.BOND_CRS_PERIOD_PERIOD_NS d.period).set R.BOND_CRS_TS_TS_NS d.ts).set R.BOND_CRS_TA_TA_NS d.ta
  | none => s.set R.BOND_CRS_STAT_SCHED_CUR j

/-- A new HOLDER goes on with the course counter and the schedule state that were copied to it (R32, R34, R204): the courses since the copy count down a pending switch. -/
def State.contSched (s : State) : State :=
  match s.mtr.copySch with
  | none => s
  | some k =>
    let cnt := (s.crs.cnt + 1 + (2 ^ 64 - k.lag)) % 2 ^ 64
    let e := cnt - k.crs
    let total := if k.swLeft = 0 then 17 else k.swLeft
    let t := { s with crs := { s.crs with cnt := cnt, swTo := none } }
    match k.swTo with
    | none => (t.adoptSched k.sched).set R.BOND_CRS_STAT_SW_LEFT 0
    | some j =>
      if total ≤ e then (t.adoptSched j).set R.BOND_CRS_STAT_SW_LEFT 0
      else
        let u := t.adoptSched k.sched
        ({ u with crs := { u.crs with swTo := some j } }).set R.BOND_CRS_STAT_SW_LEFT (if e = 0 then k.swLeft else total - e)

/-- The contactors whose passive interval, from the last course granted to the first one of the claim, is shorter than T_CHK (R292). A claim without a grant (R307) has none. -/
def State.mayResume (s : State) : Nat :=
  match s.mtr.granted with
  | some g => maskOf 4 (fun j => decide ((s.crs.cnt - g) * s.get R.BOND_CRS_PERIOD_PERIOD_NS < (s.isl.outCfg (16 + j)).tchk * 1000000))
  | none => 0

/-- The peer holds the keystone, as its last RENEW grants it, or its HELLO has said (R301, R304). -/
def State.peerHolds (s : State) : Bool :=
  match s.mtr.granted with
  | some g => decide (s.crs.cnt ≤ g)
  | none => (match s.mtr.peer with | some p => p.role == .holder | none => false)

/-- A cold start in which this member takes the keystone: the link is up, neither member holds it, and it is A with its self-test passed, or B beside an A whose self-test failed (R307). With the link down a member starts when PEER_ACT is low (R306). A member in SAFE_HOLD, or an UNHEALTHY one, takes nothing (R7, R298). -/
def State.mayTakeKeystone (s : State) : Bool :=
  if !s.mtr.paired || s.mtr.holder || s.dev != .run || s.offRole == .unhealthy then false
  else if s.linkUp then
    !s.peerHolds && (match s.mtr.peer with | some p => if s.flag R.MTR_STAT_MEMBER then p.role == .unhealthy else s.mtr.selfOk | none => false)
  else !s.mtr.peerAct

/-- The conflict of R308, as the level of PEER_ACT shows it. -/
def State.inConflict (s : State) : Bool := s.mtr.holder && s.mtr.pairAct && s.mtr.peerAct

/-- PEER_CONFLICT is set while PEER_ACT reads high beside the own PAIR_ACT (R308). -/
def State.seeConflict (s : State) : State := if s.inConflict then s.setFlag R.MTR_STAT_PEER_CONFLICT true else s

/-- The member becomes HOLDER (R306, R307): a new epoch, the fence loaded, PAIR_ACT high; the journal reverts (R325), the channels resume at the generator position of the course (R152), the copied schedule state goes on (R204), the island takes its own last compared vector (R292). -/
def State.takeKeystone (s : State) : State :=
  let t := (((s.updMtr (fun m => { m with role := .holder, fence := s.fenceOf s.lease, pairAct := true, probing := false, margin := none, retry := 0, relDue := false, lastRenew := none, conflict := 0, copyMiss := 0, adopt := false, end_ := none, jnl := m.jnl.revert })).set R.MTR_EPOCH_EPOCH s.claimEpoch).count R.MTR_SO_CNT_CLAIMS).setFlag R.MTR_STAT_SOLO (!s.linkUp) |>.judgeImg.seeConflict
  let t0 := t.chanNums.foldl State.chanResume { t.contSched with isl := { t.isl with blank := 10, holdBlank := false, resume := s.mayResume, stg := t.isl.stg.map (fun x => { x with cmd := false, pulse := false, mis := 0, settle := 4 }) } }
  let t1 := State.repin t0 s
  let f := match t1.isl.vec with | some v => if t1.isl.compared then (v.so, v.ko, v.off) else t1.isl.force | none => t1.isl.force
  if t1.outsDriven then (List.range 20).foldl (fun u n => u.demand n (if n < 16 then bit f.1 n else bit f.2.1 (n - 16))) t1 else t1

/-! The mortar link (R301 to R303). -/

/-- The link goes down (R303): the HOLDER sets SOLO and acknowledges from its own journal, any other member is DETACHED. Its next start has a HELLO of its own (R301). -/
def State.mortarDown (s : State) : State :=
  if !s.mtr.paired then s
  else
    let t := ((s.updMtr (fun m => { m with said := false })).setFlag R.MTR_STAT_LINK_UP false).setFlag R.JNL_STAT_SYNCED false
    if t.mtr.holder then ((t.updMtr (fun m => { m with copyMiss := 0 })).setFlag R.MTR_STAT_SOLO true).jSolo
    else t.updMtr (fun m => { m with role := if m.role = .unhealthy then .unhealthy else .detached, probing := false, pairAct := false, copyMiss := 0, evs := [], half := false, end_ := none })

/-- A frame is accepted: its CRC-32C checks and it arrives in sequence (R302). -/
def State.frameOk (s : State) (f : MtrFrm) : Bool := s.mtr.paired && s.linkUp && f.crcOk && f.seq == s.mtr.rx

/-- A frame accepted advances the sequence and is acknowledged; another is discarded (R302). -/
def State.frame (s : State) (f : MtrFrm) (act : State → State) : State :=
  if s.frameOk f then act ((s.updMtr (fun m => { m with rx := (m.rx + 1) % 65536 })).emit (.mortarAck f.seq)) else s

/-- SYS_REV. -/
def State.sysRev (s : State) : Nat := s.get R.SYS_REV_MAJOR * 65536 + s.get R.SYS_REV_MINOR

/-- The own HELLO (R301). -/
def State.hello (s : State) : Hello :=
  { sysId := s.get R.SYS_ID_DEVICE, sysRev := s.sysRev, memberB := s.flag R.MTR_STAT_MEMBER, role := s.mtr.role, epoch := s.get R.MTR_EPOCH_EPOCH, sfc := s.mtr.sfc, img := s.mtr.img, safCrc := s.get R.SAF_CFG_CRC_CRC }

/-- The own HELLO leaves, once in each start of the link (R301; log entry 94). -/
def State.sayHello (s : State) : State :=
  if !s.mtr.paired || s.mtr.said then s
  else ({ s with mtr := { s.mtr with said := true, tx := (s.mtr.tx + 1) % 65536 } }).emit (.mortar s.mtr.tx (.hello s.hello))

/-- A frame failure that lasts (R303): the link is down, and its start begins anew (R301). -/
def State.mortarLasting (s : State) : State := (((s.count R.MTR_LINK_CNT_LASTING).setFlag R.MTR_STAT_LINK_LOST true).mortarDown).sayHello

/-- Everything a synchronising standby receives (R315). -/
def State.bulk (s : State) : Bulk :=
  { ents := s.jnl.all, cls := s.jnl.cls.filterMap (fun (i, o) => o.map (fun c => (i, c))), recs := [], last := true }

/-- A HELLO arrives (R299, R301, R315, R319): the link comes up, a HOLDER transfers its journal, and any other member is SYNCING, or stays UNHEALTHY (R298). -/
def State.onHello (s : State) (f : MtrFrm) (h : Hello) : State :=
  if !s.mtr.paired || !f.crcOk then s
  else
    let s0 := (s.emit (.mortarAck f.seq)).sayHello
    if h.sysRev ≠ s.sysRev then s0.setFlag R.MTR_STAT_REV_DIFF true
    else if h.sysId ≠ s.get R.SYS_ID_DEVICE ∨ h.memberB = s.flag R.MTR_STAT_MEMBER then s0
    else
      let s1 := (((s0.updMtr (fun m => { m with peer := some h, rx := (f.seq + 1) % 65536 })).set R.MTR_EPOCH_PEER_EPOCH h.epoch).setFlag R.MTR_STAT_REV_DIFF false).judgeImg
      if s.linkUp then s1
      else
        let s2 := s1.setFlag R.MTR_STAT_LINK_UP true
        if s2.mtr.holder then s2.mortar (.bulk s2.bulk)
        else (s2.updMtr (fun m => { m with role := s2.offRole })).startSync

/-! The lease (R304 to R306). -/

/-- LEASE_RENEWAL at the start of the present course, which BOND has started whether the device heads or follows a backup timekeeper: a last renewal when a release is due, none after one (R304, R309, R318). -/
def State.renew (s : State) : State :=
  if !(s.mtr.paired && s.mtr.holder && decide (0 < s.mtr.fence) && (s.dev == .run || s.dev == .safeHold)) then s
  else if s.mtr.lastRenew.isSome then s
  else
    let e := s.get R.MTR_EPOCH_EPOCH
    if s.mtr.relDue then
      (((s.mortar (.handover s.crs.cnt)).updMtr (fun m => { m with fence := s.fenceOf 1, lastRenew := some s.crs.cnt, relDue := false }))).mortar (.renew e s.crs.cnt s.crs.cnt)
    else (s.updMtr (fun m => { m with fence := s.fenceOf s.lease })).mortar (.renew e s.crs.cnt (s.crs.cnt + s.lease - 1))

/-- A RENEW arrives: a higher epoch makes a HOLDER give up, a standby notes the grant (R304, R306, R308). -/
def State.onRenew (s : State) (epoch course granted : Nat) : State :=
  let s1 := s.set R.MTR_EPOCH_PEER_EPOCH epoch
  if s.mtr.holder then (if epHigher epoch (s.get R.MTR_EPOCH_EPOCH) then (s1.epochLost).updMtr (fun m => { m with granted := some granted, renewed := some course }) else s1)
  else { s1.updMtr (fun m => { m with granted := some granted, renewed := some course, margin := none }) with isl := { s1.isl with holdBlank := false, renewInps := s1.isl.inps } }

/-- LEASE_CHECK (R306): without a grant of the present course, it is the margin course of a READY standby; from the first course that brought no renewal, the tested inputs are blanked (R292). -/
def State.leaseCheck (s : State) : State :=
  let got := match s.mtr.granted with | some g => decide (s.crs.cnt ≤ g) | none => false
  let t := if s.mtr.role = .ready ∧ s.mtr.renewed ≠ some s.crs.cnt then { s with isl := s.isl.blankBack } else s
  if s.mtr.role = .ready ∧ s.dev = .run ∧ got = false then t.updMtr (fun m => { m with margin := some s.crs.cnt }) else t

/-- CLAIM_PROBE (R306 steps 1 and 2). -/
def State.claimProbe (s : State) : State :=
  if s.mtr.role = .ready ∧ s.dev = .run ∧ s.mtr.margin = some s.crs.cnt ∧ s.mtr.retry ≤ s.crs.cnt ∧ s.mtr.peerAct = false then
    s.updMtr (fun m => { m with pairAct := true, probing := true })
  else s

/-- The device heads its rings (R202 to R204): it is their head, its own delay is 0 (R196, R198), and it asks nobody for a handover any more. -/
def State.startHeading (s : State) : State :=
  s.ringsEn.foldl (fun u k => (((((u.setRing k { u.ring k with mq := (u.ring k).mq.filter (fun m => m.op != 3) }).set (R.RING_STAT_STATE k) 4).set (R.RING_HEAD_SRC k) s.selfAddr).set (R.RING_HEAD_RANK k) (s.get R.BOND_START_RANK)).set (R.RING_HEAD_DLY_E_D k) 0).set (R.RING_HEAD_DLY_W_D k) 0)
    (s.set R.BOND_START_STATE 3)

/-- CLAIM_CONFIRM (R306 steps 3 and 4). -/
def State.claimConfirm (s : State) : State :=
  if !s.mtr.probing then s
  else if s.mtr.peerAct then
    (s.updMtr (fun m => { m with pairAct := false, probing := false, retry := s.crs.cnt + (if s.flag R.MTR_STAT_MEMBER then 3 else 1) })).setFlag R.MTR_STAT_CLAIM_TIE true
  else s.takeKeystone.startHeading

/-- FENCE_EXPIRE (R305). -/
def State.fenceExpire (s : State) : State := if s.mtr.paired && s.mtr.holder then s.letGo else s.updMtr (fun m => { m with fence := 0 })

/-- PEER_ACT rises (R308). -/
def State.peerRise (s : State) : State := (State.repin (s.updMtr (fun m => { m with peerAct := true })) s).seeConflict

/-- PEER_ACT falls (R152, R308). -/
def State.peerFall (s : State) : State := State.repin (s.updMtr (fun m => { m with peerAct := false, conflict := 0 })) s

/-- The conflict is counted at a course start; in two courses running it is lasting, and the HOLDER enters SAFE_HOLD (R308). -/
def State.conflictTick (s : State) : State :=
  if s.inConflict then
    let t := s.seeConflict.updMtr (fun m => { m with conflict := min 2 (m.conflict + 1) })
    if t.mtr.conflict = 2 then t.safeHold .conflict else t
  else s.updMtr (fun m => { m with conflict := 0 })

/-! The state copy (R311, R312). -/

/-- The bytes of a copy: 1,024 + 512 + 240 × 36 + 192 × 112 + 48 × 16, and 8 for each write of the output log (R311). -/
def StateCopy.size (c : StateCopy) : Nat := 32448 + 8 * min 2048 c.outs.length

/-- The loss sets of the course that ends, per ring (R214). -/
def State.lossSets (s : State) : List (List Nat) := [0, 1, 2, 3].map (fun k => (s.ring k).bad)

/-- The copy of the state at the end of the present course (R311). -/
def State.copyOf (s : State) : StateCopy :=
  { crs := s.crs.cnt, sched := s.get R.BOND_CRS_STAT_SCHED_CUR, swTo := s.crs.swTo, swLeft := s.get R.BOND_CRS_STAT_SW_LEFT, epoch := s.get R.MTR_EPOCH_EPOCH, lease := s.lease, sfc := s.mtr.sfc,
    commits := if 1 ≤ s.crs.cnt then s.jnl.doneBy (s.crs.cnt - 1) else [], mirror := s.pfSampled, loss := s.lossSets, axes := s.axes, grps := s.grps, loops := s.loops, chans := s.chans,
    outs := s.pim.log, ovf := decide (s.pim.log.length < s.pim.writes) }

/-- A COPY leaves as the one before it is due: that one is complete unless it failed, and its size is shown (R303, R327). -/
def State.copyOut (s : State) (c : StateCopy) : State :=
  let s1 := if s.mtr.copyMiss = 1 then s else s.set R.MTR_COPY_BYTES s.mtr.copyLen
  (s1.updMtr (fun m => { m with copyMiss := if m.copyMiss = 1 then 2 else 0, copyLen := c.size })).mortar (.copy c)

/-- At the start of a course the HOLDER sends the copy of the course before, and what the copy before that one committed is DONE once it was complete; a device that completes alone does so at the end of the course after (R311, R324). `old` is the state at the end of the course. -/
def State.sendCopy (s old : State) : State :=
  if s.needJack then
    let s1 := if s.mtr.copyMiss ≠ 1 ∧ 3 ≤ s.crs.cnt then (s.jnl.doneBy (s.crs.cnt - 3)).foldl (fun u i => u.jCommit i (s.crs.cnt - 2) true) s else s
    s1.copyOut old.copyOf
  else if s.leads then
    let s1 := s.jCommitSolo
    if s.mtr.paired && s.linkUp then s1.copyOut old.copyOf else s1
  else s

/-- The two loss sets are equal, order apart. -/
def sameLoss (a b : List (List Nat)) : Bool :=
  [0, 1, 2, 3].all (fun k => (a.getD k []).all (fun i => (b.getD k []).contains i) && (b.getD k []).all (fun i => (a.getD k []).contains i))

/-- A course is excluded from comparison, and counted (R312). -/
def State.exclude (s : State) (c : Nat) : State :=
  if s.mtr.excl.contains c then s else (s.updMtr (fun m => { m with excl := (c :: m.excl).take 8 })).count R.MTR_DIG_CMP_EXCLUDED

/-- The output log of a copy is applied in order, with the copied course as the stamp; an overflow clears OUT_SYNC, and a whole pass followed by a course without one sets it (R234, R235). -/
def State.applyLog (s : State) (c : StateCopy) : State :=
  let s1 := (c.outs.foldl (fun u (p, v) => u.resyncRec ⟨p, v, some c.crs⟩) s).serve 7 c.outs.length
  if c.ovf then (s1.clearPass.setFlag R.PIM_STAT_OUT_SYNC false).setFlag R.PIM_STAT_RESYNC true
  else if s1.flag R.PIM_STAT_RESYNC && s1.pim.passDone then (s1.clearPass.setFlag R.PIM_STAT_OUT_SYNC true).setFlag R.PIM_STAT_RESYNC false
  else s1

/-! The standby's course (R310). -/

/-- The shared records that masters of this course are read from (R310). -/
def State.snapMasters (s : State) : State :=
  s.updMtr (fun m => { m with shared := s.mem.filter (fun (a, _) => decide (0x300F8000 ≤ a ∧ a < 0x30100000)) })

/-- The loop events kept for the course that has ended are posted in arrival order (R310). -/
def State.postKept (s : State) : State := (s.mtr.evs.foldl (fun u (n, v) => u.postEv n v) s).updMtr (fun m => { m with evs := [] })

/-- SHADOW_COURSE: at the start of a course the standby begins the tick of the course before, from the inputs of that course and the masters' snapshot, and posts that course's loop events (R310). The commands of that course come with its copy. -/
def State.shadowCourse (s : State) : State :=
  let pre := s.mem.filter (fun (a, _) => decide (0x300F8000 ≤ a ∧ a < 0x30100000))
  let s1 := (s.poke (pre.map (fun (a, _) => (a, 0)))).poke s.mtr.shared
  let s2 := ({ s1 with crs := { s1.crs with cnt := s1.crs.cnt - 1 } }).profileFirst s.ptStart
  let s3 : State := { s2 with crs := { s2.crs with cnt := s.crs.cnt }, mem := s.mem, tst := s.tst }
  (s3.postKept).updMtr (fun m => { m with half := true })

/-- The rest of the tick that SHADOW_COURSE has begun: the commands of the mirror if the copy of that course has come, and the set-points (R310, R311). -/
def State.shadowRest (s : State) : State :=
  if !s.mtr.half then s
  else
    let cmds := if s.mtr.copyAt = some (s.crs.cnt - 1) then s.mtr.mirror else []
    let s1 := ({ s with crs := { s.crs with cnt := s.crs.cnt - 1 }, pim := { s.pim with start := s.pim.prev } }).profileRest false (s.get R.CAS_CFG_POS) (some cmds)
    ({ s1 with crs := { s1.crs with cnt := s.crs.cnt }, pim := s.pim }).updMtr (fun m => { m with half := false })

/-- A generator that the HOLDER's copy shows frozen stands where it froze there, and its axis's set-point with it (R166, R311): the own tick of that course comes a course later. -/
def State.adoptFrozen (s : State) (c : StateCopy) : State :=
  c.chans.foldl (fun u (n, ch) =>
    let o := u.chan n
    if !ch.frozen || !o.frozen then u
    else
      let x := u.ax (192 + n)
      let p := ch.gen + x.ofs
      (u.setChan n { o with gen := ch.gen, src := ch.gen, dst := ch.gen }).setAx (192 + n) { x with pos := (p : Rat), cmdPos := p, prevPos := p }) s

/-- A complete copy at a member without the keystone (R310 to R312, R324): the copy of the course before brings that course's commands; with other loss sets that course is not computed. -/
def State.onCopy (s : State) (c : StateCopy) : State :=
  let diff := decide (s.crs.cnt = c.crs + 1) && !sameLoss s.mtr.lossPrev c.loss
  let s1 := (s.updMtr (fun m => { m with copyAt := some c.crs, copySch := some ⟨c.crs, s.crs.cnt - c.crs, c.sched, c.swTo, c.swLeft⟩, copyMiss := 0, mirror := c.mirror, adopt := false, end_ := if m.adopt || diff then some c else m.end_ })).set R.MTR_COPY_BYTES c.size
  let s2 := if diff then s1.exclude c.crs else s1
  let s3 := c.commits.foldl (fun u i => u.jCommit i c.crs false) ((s2.applyLog c).adoptFrozen c)
  let s4 := s3.judgeReady
  if diff then s4.updMtr (fun m => { m with half := false }) else if s.crs.cnt = c.crs + 1 then s4.shadowRest else s4

/-- A copied axis with the inputs that this member has latched itself (R310). -/
def Ax.ownInputs (x own : Ax) : Ax :=
  { x with inp := own.inp, actPos := own.actPos, actPrev := own.actPrev, lp := own.lp, ln := own.ln, hm := own.hm, chatLp := own.chatLp, chatLn := own.chatLn, ss1 := own.ss1, sto := own.sto }

/-- The copied end state is taken at a course start in place of the own one, inputs apart (R310, R312). -/
def State.takeEnd (s : State) : State :=
  match s.mtr.end_ with
  | none => s
  | some c =>
    let axs := c.axes.map (fun (a, x) => (a, x.ownInputs (s.ax a)))
    let chs := c.chans.map (fun (n, x) => let o := s.chan n; (n, { x with enc := o.enc, encA := o.encA, encB := o.encB, lp := o.lp, ln := o.ln, hm := o.hm }))
    ({ s with axes := axs, grps := c.grps, loops := c.loops, chans := chs }).exclude (c.crs + 1) |>.updMtr (fun m => { m with end_ := none })

/-- At a course start the standby judges whether the copy of the course two before is complete; two in a row that are not are a lasting failure (R303, R312). -/
def State.copyCheck (s : State) : State :=
  if (s.mtr.role = .syncing ∨ s.mtr.role = .ready ∨ s.mtr.role = .unhealthy) ∧ s.mtr.adopt = false ∧ 2 ≤ s.crs.cnt then
    match s.mtr.copyAt with
    | some c =>
      if s.crs.cnt ≤ c + 2 then s
      else
        let t := (s.exclude (s.crs.cnt - 2)).updMtr (fun m => { m with copyMiss := m.copyMiss + 1 })
        if t.mtr.copyMiss = 2 then t.mortarLasting else t
    | none => s
  else s

/-! Digests (R313). -/

/-- The own digests of a course, when every engine has closed it: value and DIG_PART. An engine that runs no loop has none. -/
def State.ownDigs (s : State) (c : Nat) : Option (List (Nat × Bool)) :=
  let e := (List.range 12).map (fun n => (s.eng n, s.flag (R.LE_ENG_STAT_DIG_PART n)))
  if e.all (fun x => x.1.axes.isEmpty || x.1.digCrs == c % 2 ^ 32) then some (e.map (fun x => (x.1.dig, x.2 || x.1.axes.isEmpty))) else none

/-- The digests of a course as they are sent: the standby marks those of a course that it excludes as partial, so that the HOLDER compares none of them (R312, R313; log entry 75). -/
def State.sentDigs (s : State) (c : Nat) (d : List (Nat × Bool)) : List (Nat × Bool) :=
  if s.shadows && s.mtr.excl.contains c then d.map (fun x => (x.1, true)) else d

/-- Judge the digests of a course against the peer's, where the course is not excluded and some engine's are whole on both sides: a mismatch, and a divergence on the second of two compared courses in a row (R312 to R314). -/
def State.digJudge (s : State) (c : Nat) (own peer : List (Nat × Bool)) : State :=
  let pairs := (own.zip peer).filter (fun (a, b) => !a.2 && !b.2)
  if s.mtr.excl.contains c || pairs.isEmpty then s
  else
    let bad := pairs.any (fun (a, b) => a.1 != b.1)
    let s1 := if s.shadows then s.count R.MTR_DIG_CMP_COMPARED else s
    if !bad then s1.updMtr (fun m => { m with misRun := 0 })
    else
      let s2 := (if s.shadows then s1.count R.MTR_DIV_CNT_MISMATCH else s1).updMtr (fun m => { m with misRun := m.misRun + 1 })
      if s2.mtr.misRun = 2 then
        let s3 := (((s2.setFlag R.MTR_STAT_DIVERGENCE true).count R.MTR_DIV_CNT_DIVERGENCES).setFlag R.MTR_STAT_TEST_RUN true).setFlag R.TST_CTRL_QUICK true
        (s3.tstAsk .quick).updMtr (fun m => { m with misRun := 0, adopt := m.adopt || s2.shadows })
      else s2

/-- Compare every course for which both sides' digests are held. -/
def State.digCompare (s : State) : State :=
  s.mtr.digs.foldl (fun u (c, d) => match u.ownDigs c with
    | some own => (u.digJudge c own d).updMtr (fun m => { m with digs := Store.drop m.digs c })
    | none => if c + 4 ≤ u.crs.cnt then u.updMtr (fun m => { m with digs := Store.drop m.digs c }) else u) s

/-- A loop event of an accepted brick: posted at once by a device that leads, kept for the next course start by the standby (R214, R310). -/
def State.loopEv (s : State) (n : Nat) (v : Ev) : State :=
  if s.shadows then s.updMtr (fun m => { m with evs := m.evs ++ [(n, v)] }) else s.postEv n v

/-! The weather report (R316) and the quick self-test (R314). -/

/-- TJ as a measurement finds it while the device is powered: a free value, 16 bits of one draw (log entry 2). -/
def State.tjNow (s : State) : Nat := if s.dev = .off then 0 else Config.freeNat s.free % 65536

/-- TJ_MAX with the present measurement taken in. -/
def State.tjMax (s : State) : Nat := if sx 16 (s.get R.PWR_TEMP_TJ_MAX) < sx 16 s.tjNow ∧ s.dev ≠ .off then s.tjNow else s.get R.PWR_TEMP_TJ_MAX

/-- The standby's report from its own registers, with the coverage of the last round and the present temperature; over what span the mean temperature is taken the spec does not say, and it is free (log entry 2). -/
def State.weather (s : State) : Weather :=
  { ready := s.mtr.role == .ready, outSync := s.flag R.PIM_STAT_OUT_SYNC, jnlSync := s.mtr.jnlOk, safeIsl := s.islSt == 2, unhealthy := s.mtr.role == .unhealthy, testRes := s.mtr.testRes, seq := s.mtr.wxSeq,
    logicPct := s.tst.covL, memPct := s.tst.covM, roundS := s.roundAge, mismatch := s.get R.MTR_DIV_CNT_MISMATCH, safeDiv := s.get R.WX_DIV_SAFE_DIV,
    corrected := s.get R.TST_ECC_CNT_CORRECTED, transient := s.get R.TST_ECC_CNT_TRANSIENT, tjMax := s.tjMax, tjAvg := Config.freeNat (s.free + 1) % 65536 }

/-- A report in the WX_ registers. -/
def State.showWx (s : State) (w : Weather) : State :=
  let s1 := ((((((((s.setFlag R.WX_STAT_VALID true).setFlag R.WX_STAT_READY w.ready).setFlag R.WX_STAT_OUT_SYNC w.outSync).setFlag R.WX_STAT_JNL_SYNC w.jnlSync).setFlag R.WX_STAT_SAFE_ISL w.safeIsl).setFlag R.WX_STAT_UNHEALTHY w.unhealthy).set R.WX_STAT_TEST_RES w.testRes).set R.WX_STAT_AGE_MS 0).set R.WX_STAT_SEQ w.seq
  let s2 := ((((((((s1.set R.WX_COV_LOGIC_PCT w.logicPct).set R.WX_COV_MEM_PCT w.memPct).set R.WX_COV_ROUND_S w.roundS).set R.WX_DIV_MISMATCH w.mismatch).set R.WX_DIV_SAFE_DIV w.safeDiv).set R.WX_ECC_CORRECTED w.corrected).set R.WX_ECC_TRANSIENT w.transient).set R.WX_TEMP_TJ_MAX w.tjMax).set R.WX_TEMP_TJ_AVG w.tjAvg
  s2.updMtr (fun m => { m with wxAt := s.now })

/-- WEATHER_SEND: a standby in SYNCING, READY or UNHEALTHY (R316). -/
def State.weatherSend (s : State) : State :=
  match s.mtr.role with
  | .syncing | .ready | .unhealthy => { ((((s.set R.PWR_TEMP_TJ_MAX s.tjMax).showWx s.weather).mortar (.weather s.weather))).updMtr (fun m => { m with wxSeq := (m.wxSeq + 1) % 65536 }) with free := s.free + 2 }
  | _ => s

/-- A report arrives at the HOLDER: a READY peer ends SOLO (R303, R316), and one whose journal is not synchronised is sent the journal (R315, R318). -/
def State.onWeather (s : State) (w : Weather) : State :=
  let s1 := s.showWx w
  if !s.mtr.holder then s1
  else if w.ready then (s1.setFlag R.MTR_STAT_SOLO false).setFlag R.JNL_STAT_SYNCED w.jnlSync
  else if w.jnlSync then s1
  else s1.mortar (.bulk s1.bulk)

/-- WEATHER_TIMEOUT (R316): no report for 3 ms. -/
def State.weatherTimeout (s : State) : State :=
  if s.mtr.wxAt + 3000000 ≤ s.now ∧ s.flag R.WX_STAT_VALID = true then s.setFlag R.WX_STAT_VALID false else s

/-- The quick self-test has ended on both members (R314): `own` and `peer` say whether each passed. -/
def State.quickEnd (s : State) (own peer : Bool) : State :=
  let s0 := s.tstEnd .quick
  let s1 := { s0 with tst := { s0.tst with lasting := s0.tst.lasting || !own } }.setFlag R.MTR_STAT_TEST_RUN false
  if s.tst.run ≠ .quick then s
  else if !s.mtr.paired then (if own then s1 else s1.safeHold .selfTest)
  else
    let ownHolds := s.mtr.holder
    let holderOk := if ownHolds then own else peer
    let standbyOk := if ownHolds then peer else own
    let s2 := s1.updMtr (fun m => { m with testRes := if holderOk && standbyOk then 1 else if holderOk then 2 else 3 })
    if ownHolds then
      if own then s2
      else if peer then (s2.updMtr (fun m => { m with unfit := true })).stopLine .selfTest
      else s2.safeHold .selfTest
    else if own then s2 else s2.updMtr (fun m => { m.unready with role := .unhealthy })

/-- A planned handover is asked for (R318, R319): refused with HO_ERR unless the peer is READY in every respect. -/
def State.askHandover (s : State) : State :=
  let ok := s.mtr.holder && s.peerReady && s.flag R.WX_STAT_OUT_SYNC && s.flag R.WX_STAT_JNL_SYNC && (match s.mtr.peer with | some p => p.sfc == s.mtr.sfc | none => false)
  if ok then (s.setFlag R.MTR_CTRL_HANDOVER true).updMtr (fun m => { m with relDue := m.lastRenew.isNone })
  else (s.setFlag R.MTR_CTRL_HANDOVER false).setFlag R.MTR_STAT_HO_ERR true

/-! Journal frames and bulk transfer at the standby (R315, R320, R324). -/

/-- A JOURNAL frame writes its entry and is answered with JACK. -/
def State.onJournal (s : State) (i : Nat) (e : JEnt) : State :=
  if s.mtr.holder then s
  else
    let j := s.jnl
    let tk := match j.ent i with | some o => o.taken && o.client == e.client && o.seq == e.seq | none => false
    let j1 := match j.slotOf e.client, j.freeSlot with
      | none, some k => { j with cls := Store.put none j.cls k (some ⟨e.client, e.seq, s.now⟩) }
      | _, _ => j.updCl e.client (fun c => { c with last := s.now })
    (s.setJnl { j1.setEnt i (some { e with taken := tk, ack := none }) with ord := max j1.ord (e.ord + 1) }).mortar (.jack i)

/-- A BULK frame carries a part of the journal and client table; other ones carry output records alone (R235, R315). -/
def Bulk.jnl (b : Bulk) : Bool := b.last || !b.ents.isEmpty || !b.cls.isEmpty

/-- A BULK frame at the standby: the journal it transfers takes the place of the member's own from the transfer's first frame on (R315). -/
def State.onBulk (s0 : State) (b : Bulk) : State :=
  if s0.mtr.holder then s0
  else
    let s := if b.jnl && !s0.mtr.bulkOn then (s0.setJnl { s0.jnl with ents := [], cls := [] }).updMtr (fun m => { m with bulkOn := true }) else s0
    let j := b.ents.foldl (fun (j : Jnl) (i, e) => { j.setEnt (i % 256) (some { e with ack := none }) with ord := max j.ord (e.ord + 1), rel := max j.rel (e.rel + 1) }) s.jnl
    let j1 := b.cls.foldl (fun (j : Jnl) (i, c) => { j with cls := Store.put none j.cls (i % 16) (some c) }) j
    let s1 := (b.recs.foldl State.resyncRec (s.setJnl j1)).serve 7 b.recs.length
    let s2 := if b.last then (s1.updMtr (fun m => { m with jnlOk := true, bulkOn := false })).setFlag R.JNL_STAT_SYNCED true else s1
    s2.judgeReady

/-- A safety vector of the peer is compared by the island in shadow; two mismatches in a row set SAFE_DIV, each further one again, and a run of them counts once (R291, R319). DESIGN CHOICE (log entry 57): the islands' cycles are not numbered alike, so that a vector is compared with the own one under way. -/
def State.onSafety (s : State) (words : List Nat) : State :=
  let same := match s.mtr.peer with | some p => p.safCrc == s.get R.SAF_CFG_CRC_CRC | none => false
  match s.isl.vec with
  | none => s
  | some v =>
    if !s.islShadow || !same then s
    else if v.words = words then { s with isl := { s.isl with shadowMis := 0 } }
    else
      let n := s.isl.shadowMis + 1
      let s1 := { s with isl := { s.isl with shadowMis := min 3 n } }
      if n < 2 then s1 else if n = 2 then (s1.setFlag R.SAF_STAT_SAFE_DIV true).count R.WX_DIV_SAFE_DIV else s1.setFlag R.SAF_STAT_SAFE_DIV true

/-! Meanings. -/

/-- What an event of the pair can change. -/
def mtrDo (t s : State) : Host.Outcome State Fault Refusal :=
  .next { s with mtr := t.mtr, pim := t.pim, isl := t.isl, crs := t.crs, rings := t.rings, chans := t.chans, axes := t.axes, dev := t.dev, holdBy := t.holdBy, hst := t.hst, cas := t.cas, tst := t.tst, free := t.free, flds := t.flds, bus := .none, outs := t.outs }

/-- RENEW. -/
def execRenew (f : MtrFrm) (epoch course granted : Nat) (s : State) : Host.Outcome State Fault Refusal :=
  mtrDo (s.quiet.frame f (fun u => if course ≤ granted then u.onRenew (epoch % 65536) course granted else u)) s

/-- JOURNAL. -/
def execJournal (f : MtrFrm) (i : Fin 256) (e : JEnt) (s : State) : Host.Outcome State Fault Refusal :=
  mtrDo (s.quiet.frame f (fun u => u.onJournal i e)) s

/-- JACK. -/
def execJack (f : MtrFrm) (i : Fin 256) (s : State) : Host.Outcome State Fault Refusal :=
  mtrDo (s.quiet.frame f (fun u => if u.mtr.holder then u.jJack i else u)) s

/-- SAFETY_FRAME. -/
def execSafetyFrame (f : MtrFrm) (_cycle : Nat) (words : List Nat) (s : State) : Host.Outcome State Fault Refusal :=
  mtrDo (s.quiet.frame f (fun u => u.onSafety words)) s

/-- DIGEST: value and DIG_PART of each engine. -/
def execDigest (f : MtrFrm) (course : Nat) (d : List (Nat × Bool)) (s : State) : Host.Outcome State Fault Refusal :=
  mtrDo (s.quiet.frame f (fun u => (u.updMtr (fun m => { m with digs := Store.put [] m.digs course d })).digCompare)) s

/-- COPY: complete at its end delimiter. -/
def execCopy (f : MtrFrm) (c : StateCopy) (s : State) : Host.Outcome State Fault Refusal :=
  let t := s.quiet.frame f (fun u => if u.mtr.holder then u else u.onCopy c)
  .next { s with mtr := t.mtr, pim := t.pim, isl := t.isl, chans := t.chans, axes := t.axes, grps := t.grps, loops := t.loops, upd := t.upd, crs := t.crs, mem := t.mem, dev := t.dev, holdBy := t.holdBy, hst := t.hst, cas := t.cas, tst := t.tst, flds := t.flds, bus := .none, outs := t.outs }

/-- WEATHER. -/
def execWeather (f : MtrFrm) (w : Weather) (s : State) : Host.Outcome State Fault Refusal :=
  mtrDo (s.quiet.frame f (fun u => if u.mtr.holder then u.onWeather w else u)) s

/-- BULK. -/
def execBulk (f : MtrFrm) (b : Bulk) (s : State) : Host.Outcome State Fault Refusal := mtrDo (s.quiet.frame f (fun u => u.onBulk b)) s

/-- HELLO. -/
def execHello (f : MtrFrm) (h : Hello) (s : State) : Host.Outcome State Fault Refusal := mtrDo (s.quiet.onHello f h) s

/-- HANDOVER_FRAME: the lease ends with the course it names (R318). -/
def execHandoverFrame (f : MtrFrm) (course : Nat) (s : State) : Host.Outcome State Fault Refusal :=
  mtrDo (s.quiet.frame f (fun u => if u.mtr.holder then u else u.updMtr (fun m => { m with granted := some course }))) s

/-- FRAME_ACK_TIMEOUT: the frame of sequence number `seq` is sent again, and `ok` says whether the second attempt is acknowledged; `copy` marks a COPY, of which two in a row are lasting (R303). -/
def execFrameAckTimeout (seq : BitVec 16) (copy ok : Bool) (s : State) : Host.Outcome State Fault Refusal :=
  let q := s.quiet
  let t :=
    if !s.mtr.paired || !s.linkUp then q
    else
      let r := q.emit (.mortarAgain seq.toNat)
      if ok then r.count R.MTR_LINK_CNT_RETRIED
      else if copy && decide (s.mtr.copyMiss = 0) then r.updMtr (fun m => { m with copyMiss := 1 })
      else r.mortarLasting
  mtrDo t s

/-- MORTAR_LINK_DOWN. -/
def execMortarLinkDown (s : State) : Host.Outcome State Fault Refusal := mtrDo (if s.linkUp then s.quiet.mortarDown else s.quiet) s

/-- WEATHER_SEND. -/
def execWeatherSend (s : State) : Host.Outcome State Fault Refusal := mtrDo s.quiet.weatherSend s

/-- WEATHER_TIMEOUT. -/
def execWeatherTimeout (s : State) : Host.Outcome State Fault Refusal := mtrDo s.quiet.weatherTimeout s

/-- FENCE_EXPIRE. -/
def execFenceExpire (s : State) : Host.Outcome State Fault Refusal := mtrDo s.quiet.fenceExpire s

/-- LEASE_CHECK. -/
def execLeaseCheck (s : State) : Host.Outcome State Fault Refusal := mtrDo s.quiet.leaseCheck s

/-- CLAIM_PROBE. -/
def execClaimProbe (s : State) : Host.Outcome State Fault Refusal := mtrDo s.quiet.claimProbe s

/-- CLAIM_CONFIRM. -/
def execClaimConfirm (s : State) : Host.Outcome State Fault Refusal := mtrDo s.quiet.claimConfirm s

/-- PEER_ACT_RISE. -/
def execPeerActRise (s : State) : Host.Outcome State Fault Refusal := mtrDo s.quiet.peerRise s

/-- PEER_ACT_FALL. -/
def execPeerActFall (s : State) : Host.Outcome State Fault Refusal := mtrDo s.quiet.peerFall s

/-- QUICK_SELF_TEST_END. -/
def execQuickSelfTestEnd (own peer : Bool) (s : State) : Host.Outcome State Fault Refusal := mtrDo (s.quiet.quickEnd own peer) s

/-- HANDOVER_REQUEST. -/
def execHandoverRequest (s : State) : Host.Outcome State Fault Refusal :=
  s.atReg (0x800E0000) (mtrDo s.quiet.askHandover s)

end Sys2Proof.Machine
end

