-- ==== Sys2Proof/Machine/DevCmd.lean ====
section
/-! DEFINITION. Device commands and what they act through: the schedule switch, SAFE_HOLD, TIME_RESTEP, HANDOVER (R7, R34, R336, R345). -/
namespace Sys2Proof.Machine

/-- A position of a cascade other than the root. -/
def State.subPosition (s : State) : Bool := s.flag R.CAS_CFG_EN && !s.root

/-- A write of 1 to SW_GO (R34). -/
def State.swGo (s : State) : State :=
  let j := s.get R.BOND_CRS_CTRL_SCHED_NEXT
  let err := s.setFlag R.BOND_CRS_STAT_SW_ERR true
  if s.crs.swTo.isSome then err
  else if s.heads && s.leads && !s.subPosition && s.schedIn j && j != s.get R.BOND_CRS_STAT_SCHED_CUR then
    { s.setFlag R.BOND_CRS_CTRL_SW_GO true with crs := { s.crs with swTo := some j, goDrop := false } }
  else { err.setFlag R.BOND_CRS_CTRL_SW_GO true with crs := { s.crs with goDrop := true } }

/-- Every axis is at rest (R446). -/
def State.allStill (s : State) : Bool := s.axes.all (fun x => x.2.atRest)

/-- The condition of a fault that made the device enter SAFE_HOLD is absent (R7). -/
def State.holdGone (s : State) : HoldBy → Bool
  | .host => true
  | .hsx => false
  | .island => s.islSt != 4
  | .conflict => !s.mtr.peerAct
  | .selfTest => false

/-- SAFE_HOLD_LEAVE and its result code (R7, R336). -/
def State.leaveHold (s : State) : Nat × State :=
  if s.dev ≠ .safeHold then (4, s)
  else if !s.allStill then (1, s)
  else if !s.holdBy.all s.holdGone then (5, s)
  else (0, { s with dev := .run, holdBy := [] })

/-- The position is marked present in CAS_PRESENT. -/
def State.present (s : State) (p : Nat) : Bool :=
  if p < 32 then bit (s.get R.CAS_PRESENT0_PRESENT) p else bit (s.get R.CAS_PRESENT1_PRESENT) (p - 32)

/-- The position showed ALL_STILL in its last STATUS. -/
def State.still (s : State) (p : Nat) : Bool :=
  if p < 32 then bit (s.get R.CAS_STILL0_STILL) p else bit (s.get R.CAS_STILL1_STILL) (p - 32)

/-- The whole cascade is at rest (R345). -/
def State.lineStill (s : State) : Bool := s.allStill && (List.range 64).all (fun p => !s.present p || s.still p)

/-- TIME_RESTEP and its result code (R345): the step is due at the next course start, with one of the first lock that is due as well. -/
def State.restep (s : State) : Nat × State :=
  if !s.root then (2, s)
  else match s.tim.last with
    | none => (3, s)
    | some (o, t) =>
      if t + 1000000000 < s.now then (3, s)
      else if !s.lineStill then (1, s)
      else (0, { s with tim := { s.tim with stepBy := some (o, (match s.tim.stepBy with | some (_, f, _) => f | none => false), true) } })

/-- The oldest released device command with an opcode is executed, and completed with its 32-bit result code (R324, R336). -/
def State.devCommand (s : State) (op : Nat) (act : State → List Nat → Nat × State) : State :=
  if !s.leads then s
  else match s.jnl.next (fun o => o == op) with
    | none => s
    | some (i, e) =>
      let r := act s e.body
      r.2.jComplete i e (leBytes r.1 4)

/-- HANDOVER as a device command (R336): 1 when refused. -/
def State.cmdHandover (s : State) : Nat × State :=
  let t := s.askHandover
  (if t.flag R.MTR_CTRL_HANDOVER then 0 else 1, t)

/-- SCHED_SWITCH as a device command (R336): 1 when the request sets SW_ERR, as one that leaves no new switch pending does. -/
def State.cmdSwitch (s : State) (b : List Nat) : Nat × State :=
  let t := (s.set R.BOND_CRS_CTRL_SCHED_NEXT (at_ b 0)).swGo
  (if s.crs.swTo.isNone && t.crs.swTo.isSome then 0 else 1, t)

/-- The journal logic executes every device command that has been released, in the order of release (R323, R336). -/
def State.deviceStep (s : State) : Option State :=
  if !s.leads then none
  else match s.jnl.next (fun o => decide (0x8001 ≤ o)) with
    | none => none
    | some (i, e) =>
      let r : Nat × State := match e.opcode with
        | 0x8001 => s.restep
        | 0x8002 => s.cmdHandover
        | 0x8003 => s.cmdSwitch e.body
        | 0x8004 => (0, s.safeHold .host)
        | _ => s.leaveHold
      some (r.2.jComplete i e (leBytes r.1 4))

/-- Until none is left. -/
def State.deviceGo : Nat → State → State
  | 0, s => s
  | n + 1, s => match s.deviceStep with
    | some t => State.deviceGo n t
    | none => s

/-! Meanings. -/

/-- What a device command can change. -/
def cmdDo (t s : State) : Host.Outcome State Fault Refusal :=
  .next { s with mtr := t.mtr, crs := t.crs, tim := t.tim, dev := t.dev, holdBy := t.holdBy, axes := t.axes, hst := t.hst, cas := t.cas, flds := t.flds, bus := .none, outs := t.outs }

/-- SW_GO. -/
def execSwGo (s : State) : Host.Outcome State Fault Refusal :=
  s.atReg (0x80030000) (cmdDo s.quiet.swGo s)

/-- TIME_RESTEP. -/
def execTimeRestep (s : State) : Host.Outcome State Fault Refusal := cmdDo (s.quiet.devCommand 0x8001 (fun u _ => u.restep)) s

/-- HANDOVER. -/
def execHandover (s : State) : Host.Outcome State Fault Refusal := cmdDo (s.quiet.devCommand 0x8002 (fun u _ => u.cmdHandover)) s

/-- SCHED_SWITCH. -/
def execSchedSwitch (s : State) : Host.Outcome State Fault Refusal := cmdDo (s.quiet.devCommand 0x8003 State.cmdSwitch) s

/-- SAFE_HOLD_ENTER. -/
def execSafeHoldEnter (s : State) : Host.Outcome State Fault Refusal := cmdDo (s.quiet.devCommand 0x8004 (fun u _ => (0, u.safeHold .host))) s

/-- SAFE_HOLD_LEAVE. -/
def execSafeHoldLeave (s : State) : Host.Outcome State Fault Refusal := cmdDo (s.quiet.devCommand 0x8005 (fun u _ => u.leaveHold)) s

end Sys2Proof.Machine
end

