-- ==== Sys2Proof/Machine/HostPort.lean ====
section
/-! DEFINITION. The host port: link, MDIO, ARP, ICMP, and the messages it takes and sends (R328 to R337). -/
namespace Sys2Proof.Machine

/-- The host port is in use (R330), from STANDBY on (R5, R403). -/
def State.hostOn (s : State) : Bool := s.flag R.HST_STAT_ACTIVE && (s.dev == .standby || s.dev == .run || s.dev == .safeHold)

/-- The host link as PHY and lane give it; a gratuitous ARP goes out each time it comes up (R328, R329). -/
def State.linkJudge (s : State) : State :=
  let up := s.hostOn && s.hst.phyUp && s.flag R.HST_STAT_SGMII_SYNC
  let t := s.setFlag R.HST_STAT_LINK up
  if up && !s.flag R.HST_STAT_LINK then t.emit .arpGratuitous else t

/-- A poll of the PHY at the address of the SYSTEM section: its Basic Status register, and whether it runs 1000 Mbit/s full duplex (R328). A firmware access defers it. -/
def State.phyPoll (s : State) (status : Nat) (gig : Bool) : State :=
  if !s.hostOn then s
  else if s.hst.busy then { s with hst := { s.hst with pollDue := some (status, gig) } }
  else (({ s with hst := { s.hst with phyUp := bit status 2 && gig, pollDue := none } }).emit (.mdio false s.hst.phy 1 0)).linkJudge

/-- A GO write of HST_MDIO. An access while one runs starts nothing. -/
def State.mdioGo (s : State) (op phy reg data : Nat) : State :=
  if s.hst.busy then s
  else
    let t := ((((s.set R.HST_MDIO_OP op).set R.HST_MDIO_PHY phy).set R.HST_MDIO_REG reg).set R.HST_MDIO_DATA data).setFlag R.HST_MDIO_GO true
    ({ t with hst := { t.hst with busy := true } }).emit (.mdio (op == 1) phy reg (if op = 1 then data else 0))

/-- An access ends; a read's result stands in DATA, and a poll that it deferred follows (R328). -/
def State.mdioEnd (s : State) (v : Nat) : State :=
  if !s.hst.busy then s
  else
    let t := { s.setFlag R.HST_MDIO_GO false with hst := { s.hst with busy := false } }
    let u := if s.get R.HST_MDIO_OP = 2 then t.set R.HST_MDIO_DATA v else t
    match u.hst.pollDue with
    | some (w, gig) => u.phyPoll w gig
    | none => u

/-- An ARP reply fills the cache, and the answers that wait for the address are sent (R329). -/
def State.arpFill (s : State) (ip mac : Nat) : State :=
  if !s.flag R.HST_STAT_LINK then s
  else
    let go := s.hst.waits.filter (fun w => w.hop == ip)
    let t : State := { s with hst := { s.hst with arp := ((ip, mac, s.now) :: s.hst.arp.filter (fun x => x.1 != ip)).take 32, waits := s.hst.waits.filter (fun w => w.hop != ip) } }
    { t with outs := t.outs ++ go.map (fun w => Out.ip s.ipHdr w.pkt) }

/-- An echo request is answered, at most 100 in a second, once its peer is resolved (R329). -/
def State.echo (s : State) (ip : Nat) (d : List Nat) : State :=
  if !s.flag R.HST_STAT_LINK || decide (512 < d.length) then s
  else
    let new := decide (s.hst.echoAt + 1000000000 ≤ s.now) || s.hst.echoes == 0
    let n := if new then 0 else s.hst.echoes
    if 100 ≤ n then s
    else ({ s with hst := { s.hst with echoAt := if new then s.now else s.hst.echoAt, echoes := n + 1 } }).ipSend ip (.echo ip d)

/-- A Dripota message reaches the root's UDP port (R333): discarded and counted, or accepted, its client's address learnt, and acted on. -/
def State.dripota (s : State) (u : Udp) (want : Nat → Bool) (act : State → DMsg → List Nat → State) : State :=
  let b := u.bytes.map BitVec.toNat
  if !(s.hostOn && s.flag R.HST_STAT_LINK && u.taken) then s
  else if u.full then s.count R.HST_DROP_CNT_FIFO
  else match dparse b with
    | none => s.count R.HST_RX_CNT_BAD
    | some m =>
      if !kindOk m.kind u.dport.toNat then s.count R.HST_RX_CNT_BAD
      else if !want m.kind then s
      else
        let t := s.count R.HST_RX_CNT_GOOD
        act { t with hst := t.hst.learn m.client u.ip.toNat u.sport.toNat } m b

/-- A COMMAND on the root: for its own position to the journal, for another over the cascade, or refused (R334, R355). -/
def State.onCommand (s : State) (m : DMsg) (b : List Nat) : State :=
  if bits m.dev 0 6 = s.get R.CAS_CFG_POS then s.jCommand m
  else if !s.leads then s.answer 4 m.client m.seq 6 0 []
  else if s.present (bits m.dev 0 6) then (s.count R.CAS_MSG_CNT_FWD).casAsk 3 (bits m.dev 0 6) b
  else (s.count R.CAS_MSG_CNT_NO_DEV).answer 4 m.client m.seq 7 0 []

/-- A SERVICE message on the root: to the firmware's receive ring, or over the cascade; one for an absent position goes nowhere, as R334 refuses commands alone (R337, R355). -/
def State.onServiceMsg (s : State) (u : Udp) (m : DMsg) (b : List Nat) : State :=
  if bits m.dev 0 6 = s.get R.CAS_CFG_POS then s.fwReceive u.ip.toNat u.sport.toNat b
  else if s.leads && s.present (bits m.dev 0 6) then (s.count R.CAS_MSG_CNT_FWD).casAsk 3 (bits m.dev 0 6) b
  else s

/-- One transmit slot is sent: the CRC-32C over header and body stands in its last four bytes (R337). A slot whose LEN lies outside 24 to 536 sends nothing, nor does a standby of another position, whose MSG frames only answer NOT_HOLDER (R349). -/
def State.txSlot (s : State) (i : Nat) : State :=
  let a := fwSlot (s.get R.HST_FWQ_TXBASE_BASE) i
  let len := s.load a 2
  if 24 ≤ len ∧ len ≤ 536 then
    let body := (List.range (len - 4)).map (fun k => (s.byte (a + 16 + k)).toNat)
    let crc := crc32c body
    let t := s.store (a + 16 + (len - 4)) crc 4
    let b := body ++ leBytes crc 4
    if s.root then t.udpSend (s.load (a + 4) 4) (s.load (a + 2) 2) (s.load (a + 8) 2) b
    else if s.flag R.CAS_CFG_EN && s.leads then t.casAsk 3 0 b else t
  else s

/-- The slots from TAIL up to HEAD are sent, and TAIL follows. -/
def State.txGo : Nat → State → State
  | 0, s => s
  | n + 1, s =>
    let t := s.get R.HST_FWQ_TXPTR_TAIL
    if t = s.get R.HST_FWQ_TXPTR_HEAD then s
    else State.txGo n ((s.txSlot t).set R.HST_FWQ_TXPTR_TAIL ((t + 1) % 16))

/-! Meanings. -/

/-- What the host port can change. -/
def hstDo (t s : State) : Host.Outcome State Fault Refusal :=
  s.live 0x800F0000 (.next { s with hst := t.hst, mtr := t.mtr, cas := t.cas, cores := t.cores, mem := t.mem, tst := t.tst, flds := t.flds, bus := .none, outs := t.outs })

/-- COMMAND. -/
def execCommand (u : Udp) (s : State) : Host.Outcome State Fault Refusal := hstDo (s.quiet.dripota u (fun k => k == 1) State.onCommand) s

/-- SERVICE. -/
def execService (u : Udp) (s : State) : Host.Outcome State Fault Refusal :=
  hstDo (s.quiet.dripota u (fun k => decide (0x10 ≤ k ∧ k ≤ 0x1F)) (fun t m b => t.onServiceMsg u m b)) s

/-- FWQ_TX_SUBMIT: firmware advances the transmit HEAD. -/
def execFwqTxSubmit (head : BitVec 4) (s : State) : Host.Outcome State Fault Refusal :=
  s.atReg (0x800F003C) (hstDo ((s.quiet.set R.HST_FWQ_TXPTR_HEAD head.toNat).txGo 16) s)

/-- HOST_LINK_CHANGE: the SGMII lane gains or loses synchronisation, with what the PHY's auto-negotiation reports (1000 Mbit/s full duplex or not). -/
def execHostLinkChange (sync gig : Bool) (s : State) : Host.Outcome State Fault Refusal :=
  let t := s.quiet.setFlag R.HST_STAT_SGMII_SYNC (sync && s.hostOn)
  hstDo ({ t with hst := { t.hst with phyUp := t.hst.phyUp && gig } }).linkJudge s

/-- PHY_POLL. -/
def execPhyPoll (status : BitVec 16) (gig : Bool) (s : State) : Host.Outcome State Fault Refusal := hstDo (s.quiet.phyPoll status.toNat gig) s

/-- MDIO_WRITE. -/
def execMdioWrite (phy reg : BitVec 5) (data : BitVec 16) (s : State) : Host.Outcome State Fault Refusal :=
  s.atReg (0x800F0020) (hstDo (s.quiet.mdioGo 1 phy.toNat reg.toNat data.toNat) s)

/-- MDIO_READ. -/
def execMdioRead (phy reg : BitVec 5) (s : State) : Host.Outcome State Fault Refusal :=
  s.atReg (0x800F0020) (hstDo (s.quiet.mdioGo 2 phy.toNat reg.toNat (s.get R.HST_MDIO_DATA)) s)

/-- MDIO_COMPLETE with the value read. -/
def execMdioComplete (v : BitVec 16) (s : State) : Host.Outcome State Fault Refusal := hstDo (s.quiet.mdioEnd v.toNat) s

/-- ARP_REQUEST for an address, from another. -/
def execArpRequest (target ip : BitVec 32) (mac : BitVec 48) (s : State) : Host.Outcome State Fault Refusal :=
  hstDo (if target.toNat = s.get R.HST_IP_IP ∧ s.flag R.HST_STAT_LINK = true then s.quiet.emit (.arpReply ip.toNat mac.toNat) else s.quiet) s

/-- ARP_REPLY. -/
def execArpReply (ip : BitVec 32) (mac : BitVec 48) (s : State) : Host.Outcome State Fault Refusal := hstDo (s.quiet.arpFill ip.toNat mac.toNat) s

/-- ARP_CACHE_EXPIRE: the entry of an address, 300 s old. -/
def execArpCacheExpire (ip : BitVec 32) (s : State) : Host.Outcome State Fault Refusal :=
  hstDo { s.quiet with hst := { s.hst with arp := s.hst.arp.filter (fun x => !(x.1 == ip.toNat && decide (x.2.2 + 300000000000 ≤ s.now))) } } s

/-- ARP_RESOLVE_TIMEOUT: answers that have waited 1 s for a next hop are dropped. -/
def execArpResolveTimeout (ip : BitVec 32) (s : State) : Host.Outcome State Fault Refusal :=
  hstDo { s.quiet with hst := { s.hst with waits := s.hst.waits.filter (fun w => !(w.hop == ip.toNat && decide (w.until_ ≤ s.now))) } } s

/-- ICMP_ECHO_REQUEST: source and data of a request that passes the checks of R329. -/
def execIcmpEchoRequest (ip : BitVec 32) (d : List (BitVec 8)) (s : State) : Host.Outcome State Fault Refusal :=
  hstDo (s.quiet.echo ip.toNat (d.map BitVec.toNat)) s

end Sys2Proof.Machine
end

