-- ==== Sys2Proof/Machine/Ptp.lean ====
section
/-! DEFINITION. Device time and its PTP client (R338 to R346). -/
namespace Sys2Proof.Machine

/-- Change the PTP client's record. -/
def State.updTim (s : State) (f : Tim → Tim) : State := { s with tim := f s.tim }

/-- TIM_STAT.STATE. -/
def State.timSt (s : State) : Nat := s.get R.TIM_STAT_STATE

/-- PTP runs on this device (R339). -/
def State.ptpOn (s : State) : Bool := s.flag R.TIM_CFG_PTP_EN && s.flag R.CAS_CFG_ROOT

/-- A message of the domain that uses nothing R340 leaves out. -/
def State.ptpOk (s : State) (p : Ptp) : Bool := s.ptpOn && !p.bad && p.domain == s.get R.TIM_CFG_DOMAIN

/-- A message of the selected master. -/
def State.ofMaster (s : State) (p : Ptp) : Bool :=
  s.ptpOk p && (match s.tim.master with | some m => m.src == p.src && m.port == p.port | none => false)

/-- A corrected receive time stamp (R341). -/
def State.rxStamp (s : State) (raw : Int) : Int := raw - 96 - (s.get R.TIM_PHY_CORR_PHY_RX_NS : Int)

/-- A corrected transmit time stamp (R341). -/
def State.txStamp (s : State) (raw : Int) : Int := raw + 72 + (s.get R.TIM_PHY_CORR_PHY_TX_NS : Int)

/-- A correctionField in whole ns. -/
def corrNs (c : Int) : Int := rne ((c : Rat) / 65536)

/-- mpd: the mean of the last 8 path delays, in ns; none before the first (R342). -/
def Tim.mpd (t : Tim) : Option Int :=
  if t.delays.isEmpty then none else some (rne ((t.delays.foldl (· + ·) 0 : Int) / (2 * t.delays.length : Nat) : Rat))

/-- JUMP_TH in ns (R344): 10 µs where the image gives none. -/
def State.jumpTh (s : State) : Nat := (if s.get R.TIM_CFG_JUMP_TH = 0 then 10 else s.get R.TIM_CFG_JUMP_TH) * 1000

/-- The last 8 offsets. -/
def last8 (l : List Int) : List Int := l.take 8

/-- Eight offsets whose spread is at most 1 µs (R342). -/
def steady (l : List Int) : Bool :=
  decide (l.length = 8) && l.all (fun a => l.all (fun b => decide ((a - b).natAbs ≤ 1000)))

/-- A rate clamped to ±200,000 ppb (R343). -/
def clampPpb (r : Rat) : Rat := if r < -200000 then -200000 else if 200000 < r then 200000 else r

/-- ADJ of a rate (R343). -/
def adjOf (r : Rat) : Int := rne (r * 17179869184 / 1000000000)

/-- An offset in LOCKED: a refusal beyond JUMP_TH, else the rate of R343 over `t` ns. -/
def State.lockedOffset (s : State) (o : Int) (t : Nat) : State :=
  if s.jumpTh < o.natAbs then
    (((s.count R.TIM_STEP_CNT_JUMPS).setFlag R.TIM_STAT_TIME_JUMP true).set R.TIM_STAT_STATE 3).updTim (fun m => { m with ofss := [], waitJump := true })
  else if t = 0 then s
  else
    let y : Rat := (o : Rat) * 1000000000 / (t : Rat)
    let ri := clampPpb (s.tim.rInt - y / 64)
    let r := clampPpb (ri - y / 4)
    (s.set R.TIM_ADJ_ADJ (ux 32 (adjOf r))).updTim (fun m => { m with rInt := ri, r := r })

/-- An offset has been measured (R342 to R344). -/
def State.onOffset (s : State) (o : Int) (t : Nat) : State :=
  let s1 := (s.set R.TIM_OFS_OFS (ux 32 (max (-(2 ^ 31)) (min (2 ^ 31 - 1) o)))).updTim (fun m => { m with last := some (o, s.now) })
  match s.timSt with
  | 1 =>
    let l := last8 (o :: s.tim.ofss)
    if steady l then
      (s1.set R.TIM_STAT_STATE 2).updTim (fun m => { m with ofss := [], stepBy := if s.flag R.TIM_STAT_STEPPED then m.stepBy else some (o, true, (match m.stepBy with | some (_, _, a) => a | none => false)) })
    else s1.updTim (fun m => { m with ofss := l })
  | 2 => s1.lockedOffset o t
  | 3 =>
    if s.jumpTh < o.natAbs then ((s1.count R.TIM_STEP_CNT_JUMPS).setFlag R.TIM_STAT_TIME_JUMP true).updTim (fun m => { m with ofss := [], waitJump := true })
    else
      let l := last8 (o :: s.tim.ofss)
      if l.length = 8 then (s1.set R.TIM_STAT_STATE 2).updTim (fun m => { m with ofss := [], waitJump := false })
      else s1.updTim (fun m => { m with ofss := l })
  | _ => s1

/-- A Sync exchange is complete: t1, t2 and the corrections (R342). -/
def State.exchange (s : State) (t1 t2 c : Int) : State :=
  let s1 := s.updTim (fun m => { m with pair := some (t1, t2 - c), sync := none, syncAt := s.now })
  match s1.tim.mpd with
  | none => s1
  | some d => s1.onOffset (t2 - t1 - d - c) (s.now - s.tim.syncAt)

/-- A Sync (R340 to R342): one step, or the first part of two. -/
def State.onSync (s : State) (p : Ptp) (t1 : Int) (two : Bool) : State :=
  if !s.ofMaster p then s
  else if two then s.updTim (fun m => { m with sync := some (p.seq, s.rxStamp p.stamp, corrNs p.corr) })
  else s.exchange t1 (s.rxStamp p.stamp) (corrNs p.corr)

/-- A Follow_Up supplies t1 (R340). -/
def State.onFollowUp (s : State) (p : Ptp) (t1 : Int) : State :=
  if !s.ofMaster p then s
  else match s.tim.sync with
    | some (q, t2, c) => if q = p.seq then s.exchange t1 t2 (c + corrNs p.corr) else s
    | none => s

/-- The client sends a Delay_Req and stamps t3 (R340, R341). -/
def State.sendDelay (s : State) (raw : Int) : State :=
  if s.ptpOn && s.tim.master.isSome then
    (s.updTim (fun m => { m with dreq := some (m.dseq, s.txStamp raw), dseq := (m.dseq + 1) % 65536 })).emit (.ip s.ipHdr (.delayReq s.tim.dseq))
  else s

/-- A Delay_Resp supplies t4 for the path delay (R342); delays are kept as the doubled sums. -/
def State.onDelayResp (s : State) (p : Ptp) (t4 : Int) : State :=
  if !s.ofMaster p then s
  else match s.tim.dreq, s.tim.pair with
    | some (q, t3), some (t1, t2) =>
      if q ≠ p.seq then s
      else
        let t := s.updTim (fun m => { m with dreq := none, delays := last8 (((t2 - t1) + (t4 - corrNs p.corr - t3)) :: m.delays) })
        t.set R.TIM_MPD_MPD (ux 32 (t.tim.mpd.getD 0))
    | _, _ => s

/-- Data set a is better than b, by the best master clock algorithm of IEEE 1588: priority 1, class, accuracy, variance, priority 2, identity; for one grandmaster fewer steps, then the lower sender. -/
def Ann.better (a b : Ann) : Bool :=
  let key (x : Ann) : List Nat := if a.gm = b.gm then [x.steps, x.src, x.port] else [x.prio1, x.cls, x.acc, x.var, x.prio2, x.gm]
  let rec lt : List Nat → List Nat → Bool
    | x :: r, y :: q => decide (x < y) || (x == y && lt r q)
    | _, _ => false
  lt (key a) (key b)

/-- The best of some data sets. -/
def bestAnn : List Ann → Option Ann
  | [] => none
  | a :: r => match bestAnn r with
    | none => some a
    | some b => if b.better a then some b else some a

/-- An Announce enters the selection: a candidate counts from its second Announce (R340, R342, R344). -/
def State.onAnnounce (s : State) (p : Ptp) (a : Ann) : State :=
  if !s.ptpOk p then s
  else
    let a : Ann := { a with src := p.src, port := p.port }
    let same (x : Ann × Nat) : Bool := x.1.src == a.src && x.1.port == a.port
    let n := match s.tim.cands.find? same with | some x => x.2 | none => 0
    let cs := ((a, min 2 (n + 1)) :: s.tim.cands.filter (fun x => !same x)).take 8
    let s1 := s.updTim (fun m => { m with cands := cs })
    match bestAnn ((cs.filter (fun x => x.2 == 2)).map (·.1)) with
    | none => s1
    | some b =>
      let cur := match s.tim.master with | some m => m.src == b.src && m.port == b.port | none => false
      let s2 := s1.updTim (fun m => { m with master := some b })
      if cur then s2
      else
        let s3 := (s2.setFlag R.TIM_STAT_MASTER_CHG true).updTim (fun m => { m with delays := [], pair := none, sync := none, dreq := none })
        if s.timSt = 0 then (s3.set R.TIM_STAT_STATE 1).updTim (fun m => { m with ofss := [] }) else s3

/-- No Sync for 10 intervals, or no Announce for 3: HOLDOVER with ADJ frozen (R344). -/
def State.holdover (s : State) (noMaster : Bool) : State :=
  let s1 := if noMaster then s.updTim (fun m => { m with master := none, cands := [] }) else s
  if s.ptpOn && (s.timSt == 1 || s.timSt == 2) then (s1.set R.TIM_STAT_STATE 3).updTim (fun m => { m with ofss := [] }) else s1

/-- TIME_STEP at a course start: the step that is due, for the first lock, for TIME_RESTEP or for both (R342, R345). -/
def State.timeStep (s : State) : State :=
  match s.tim.stepBy with
  | none => s
  | some (o, first, asked) =>
    let t := (s.stepTime (-o)).updTim (fun m => { m with stepBy := none, ofss := [] })
    let u := if first then t.setFlag R.TIM_STAT_STEPPED true else t
    if asked then ((u.set R.TIM_STAT_STATE 2).setFlag R.TIM_STAT_TIME_JUMP false).updTim (fun m => { m with waitJump := false }) else u

/-- One cycle of TIM's 250 MHz clock (R338): 4 ns + ADJ × 2^-32 ns. -/
def State.timCycle (s : State) : State :=
  let v : Int := (s.now : Int) * 4294967296 + (s.tim.frac : Int) + 17179869184 + sx 32 (s.get R.TIM_ADJ_ADJ)
  { s with now := (v / 4294967296).toNat % 2 ^ 64, tim := { s.tim with frac := (v % 4294967296).toNat } }

/-! Meanings. -/

/-- What a PTP message can change. -/
def timDo (t s : State) : Host.Outcome State Fault Refusal := .next { s with tim := t.tim, flds := t.flds, bus := .none, outs := t.outs }

/-- SYNC: `t1` is the origin time of a one-step Sync. -/
def execSync (p : Ptp) (t1 : Int) (two : Bool) (s : State) : Host.Outcome State Fault Refusal := timDo (s.quiet.onSync p t1 two) s

/-- FOLLOW_UP. -/
def execFollowUp (p : Ptp) (t1 : Int) (s : State) : Host.Outcome State Fault Refusal := timDo (s.quiet.onFollowUp p t1) s

/-- DELAY_REQ with the MAC's raw transmit time stamp. -/
def execDelayReq (raw : Int) (s : State) : Host.Outcome State Fault Refusal := timDo (s.quiet.sendDelay raw) s

/-- DELAY_RESP. -/
def execDelayResp (p : Ptp) (t4 : Int) (s : State) : Host.Outcome State Fault Refusal := timDo (s.quiet.onDelayResp p t4) s

/-- ANNOUNCE. -/
def execAnnounce (p : Ptp) (a : Ann) (s : State) : Host.Outcome State Fault Refusal := timDo (s.quiet.onAnnounce p a) s

/-- SYNC_TIMEOUT. -/
def execSyncTimeout (s : State) : Host.Outcome State Fault Refusal := timDo (s.quiet.holdover false) s

/-- ANNOUNCE_TIMEOUT. -/
def execAnnounceTimeout (s : State) : Host.Outcome State Fault Refusal := timDo (s.quiet.holdover true) s

end Sys2Proof.Machine
end

