-- ==== Sys2Proof/Machine/RingRx.lean ====
section
/-! DEFINITION. The bricks of a ring as they arrive and leave: what each TYPE does when accepted, forwarding, the bricks the device owns, service messages, losses (R174 to R214). -/
namespace Sys2Proof.Machine

/-! Arrival. -/

/-- A copy arrives for a row that expects the TYPEs `want`: the checks of R184, then `act` on an accepted copy and `again` on the second copy of an accepted brick. A brick of a head with a higher epoch takes the keystone from a HOLDER (R185, R308). A ring that is not enabled receives nothing (R173). -/
def State.rx (s : State) (c : Copy) (want : Nat → Bool) (act again : State → State) : State :=
  if !s.ringEn c.ring then s
  else
    let r := s.receive c want
    match r.2 with
    | .drop => r.1
    | .again => again r.1
    | .accept =>
      let t := act r.1
      if epHigher (hdrOf c.nats).epoch (s.get R.MTR_EPOCH_EPOCH) then t.epochLost else t

/-- The copy is a sound MGMT brick of another kind of opcode or source than a row expects: that row's, not this one's. -/
def otherMg (c : Copy) (want : Nat → Bool) : Bool :=
  c.hcrcOk && c.hdrOk && c.endOk && c.crcOk && (hdrOf c.nats).type == 8 && (!want (at_ c.payload 0) || decide ((hdrOf c.nats).src < 2))

/-- A MGMT brick of a node with an opcode that the row expects. -/
def State.rxMg (s : State) (c : Copy) (want : Nat → Bool) (act : State → State) : State :=
  if otherMg c want then s else s.rx c (fun t => t == 8) act id

/-- The entry of a brick. -/
def State.entOf (s : State) (c : Copy) : Option BEnt := s.bent c.ring (hdrOf c.nats).brick

/-- The map elements of a kind in an accepted brick. -/
def State.elsOf (s : State) (c : Copy) (kind : Nat) : List MapEl :=
  match s.entOf c with
  | some e => ((s.ring c.ring).els e).filter (fun m => m.kind == kind)
  | none => []

/-! FEEDBACK (R26, R117, R119, R187). -/

/-- The sample instant of the present course in device time. -/
def State.tsNow (s : State) : Nat := s.crs.start + s.get R.BOND_CRS_TS_TS_NS

/-- One feedback record for axis `a`, landed at `at_`: into the owning engine's slot with COURSE_LO and T_S, an axis-ready event, and the inputs the profile engines read. -/
def State.feedback (s : State) (at_ a : Nat) (rec : List Nat) : State :=
  let s1 := match s.axSlot a with
    | some (n, sl) =>
      let b := fbArea n sl s.crs.cnt
      let w := (rec ++ leBytes s.crs.cnt 4 ++ leBytes s.tsNow 8).zipIdx.map (fun (x, i) => (b + i, BitVec.ofNat 8 x))
      (({ s with crs := { s.crs with fbSeen := a :: s.crs.fbSeen } }).poke w).loopEv n ⟨sl, false, a, s.crs.cnt, s.get R.BOND_CRS_STAT_SCHED_CUR, at_⟩
    | none => s
  let x : Ax := s1.ax a
  let st := leAt rec 12 4
  let pos := sx 64 (leAt rec 0 8) + x.ofs
  let i : AxIn := { lp := bit st 3, ln := bit st 4, hm := bit st 5, index := bit st 6, indexPos := pos + sx 32 (leAt rec 16 4), absCap := bit st 7, absValid := bit st 8, absPos := sx 64 (leAt rec 0 8), drvFault := bit st 1, tqOff := bit st 2, crs := s.crs.cnt }
  s1.setAx a (x.sample i s.now pos)

/-- Insert a map element by its item number. -/
def insEl (m : MapEl) : List MapEl → List MapEl
  | [] => [m]
  | x :: r => if m.item ≤ x.item then m :: x :: r else x :: insEl m r

/-- The records of an accepted FEEDBACK brick: they land together, so their events are posted in the same engine cycle and served in the order of the axis numbers (R26). -/
def State.onFeedback (c : Copy) (s : State) : State :=
  let p := c.payload
  let t := ((s.elsOf c 0).foldr insEl []).foldl (fun u m => if m.item < 192 then u.feedback c.at_ m.item (fitTo (slice p m.ofs 20) 20) else u) s
  t.setRing c.ring ((t.ring c.ring).updNode (hdrOf c.nats).src (fun n => { n with fbWest := (hdrOf c.nats).west }))

/-! REFERENCE (R186, R196, R203, R449). -/

/-- The delay from the head of an arrived copy, 1/16 ns: CORR and the link delay of its port (R196); none where the port has no measured delay (R197). -/
def State.refDly (s : State) (c : Copy) : Option Nat :=
  let h := hdrOf c.nats
  let p := (s.ring c.ring).port (!h.west)
  if p.meas then some (leAt c.payload 16 4 + p.dly) else none

/-- What every copy of a followed head's REFERENCE gives: the delay and LOOP of its sense, the port's run, the head's time (R180, R186, R196). -/
def State.refSense (s : State) (c : Copy) : State :=
  let k := c.ring.val
  let h := hdrOf c.nats
  let p := c.payload
  let s0 := s.setRing k ((s.ring k).setPort (!h.west) { (s.ring k).port (!h.west) with refs := true })
  match s0.refDly c with
  | none => s0
  | some d =>
    let s1 := (s0.set (if h.west then R.RING_HEAD_DLY_W_D k else R.RING_HEAD_DLY_E_D k) d).set (if h.west then R.RING_LOOP_W_LOOP k else R.RING_LOOP_E_LOOP k) (leAt p 20 4)
    { s1 with bond := { s1.bond with hofs := (leAt p 0 8 : Int) + (d / 16 : Nat) - (c.at_ : Int) } }

/-- The head's time has moved by more than a microsecond: a step of the root, taken at this course start without moving the course grid (R346). -/
def State.refStep (s : State) : State :=
  if s.follows && !(s.flag R.CAS_CFG_EN && !s.root) && decide (1000 < s.bond.hofs.natAbs) && (s.ringsEn.any s.inserted) && !s.bond.stepDue then
    { s.stepTime s.bond.hofs with bond := { s.bond with hofs := 0 } }
  else s

/-- The course start in own device time, from a copy (R196): of the head's TIME once this device keeps the head's time, and it is disciplined by rate to it; before, of the arrival. A cascade position takes its time from the cascade (R201, R350). -/
def State.refTime (s : State) (c : Copy) : State :=
  if s.flag R.CAS_CFG_EN && !s.root then s
  else
    match s.refDly c with
    | none => s
    | some d =>
      if s.bond.stepDue || !(s.ringsEn.any s.inserted) then { s with crs := { s.crs with start := c.at_ - d / 16 } }
      else ({ s with crs := { s.crs with start := leAt c.payload 0 8 } }).discipline

/-- A switch announcement: a switch is pending (R33, R186), also one whose target the image lacks (R35, R449). -/
def State.refSwitch (s : State) (p : List Nat) : State :=
  let sw := at_ p 24
  if bit sw 2 then
    let j := bits sw 0 2
    let miss : Option Nat := if s.schedIn j then none else some j
    let s1 := if miss.isSome && s.bond.missing.isNone then s.setFlag R.BOND_CRS_STAT_SCHED_MISSING true else s
    ({ s1 with crs := { s1.crs with swTo := some j }, bond := { s1.bond with missing := miss } }).set R.BOND_CRS_STAT_SW_LEFT (at_ p 25)
  else ({ s with crs := { s.crs with swTo := none }, bond := { s.bond with missing := none } }).set R.BOND_CRS_STAT_SW_LEFT 0

/-- No port has had the REFERENCE of a course that begins (R180). -/
def Ring.noRefs (r : Ring) : Ring := { r with east := { r.east with refs := false }, west := { r.west with refs := false } }

/-- A course that a listening device hears begins with its first REFERENCE: what was received in the course before is judged no more (R175, R209, R450). -/
def State.newListen (s : State) (k : Nat) : State :=
  s.ringsEn.foldl (fun u i => (u.setRing i { (u.ring i).noRefs with acc := if i = k then [0] else [], bad := [], crcSeen := [] }).setFlag (R.RING_STAT_JOIN_OPEN i) false) s

/-- A REFERENCE accepted (R185, R186, R196, R202, R203). A device that listens takes its course counter, schedule and course start from it; one that follows takes the announcements; behind a backup timekeeper the member that takes the keystone at a cold start asks for the handover (R307). -/
def State.onReference (c : Copy) (s : State) : State :=
  let k := c.ring.val
  let h := hdrOf c.nats
  let p := c.payload
  let rank := bits (at_ p 26) 2 2
  match s.get R.BOND_START_STATE with
  | 1 =>
    let s0 := if s.bond.heardRef && leAt p 8 8 == s.crs.cnt then s else s.newListen k
    let s1 := s0.refSense c
    let d := (s.refDly c).getD 0
    let s2 := { s1 with bond := { s1.bond with heardRef := true }, crs := { s1.crs with cnt := leAt p 8 8, start := c.at_ - d / 16 } }
    (((s2.adoptSched h.sched).set (R.RING_HEAD_SRC k) h.src).set (R.RING_HEAD_RANK k) rank).setFlag (R.RING_STAT_JOIN_OPEN k) (bit (at_ p 26) 0)
  | 4 =>
    let s1 := (((s.refSense c).set (R.RING_HEAD_SRC k) h.src).set (R.RING_HEAD_RANK k) rank).setFlag (R.RING_STAT_JOIN_OPEN k) (bit (at_ p 26) 0)
    let s2 := s1.refSwitch p
    let s2a := if s2.inserted k then s2.set (R.RING_STAT_STATE k) 5 else if s2.get (R.RING_STAT_STATE k) = 6 then s2.set (R.RING_STAT_STATE k) 2 else s2
    let s3 := if 2 ≤ rank ∧ s2a.linkUp = true ∧ s2a.mayTakeKeystone = true then s2a.takeKeystone else s2a
    let s4 := if 2 ≤ rank ∧ s3.leads = true ∧ bit (at_ p 26) 1 = false then s3.setRing k ((s3.ring k).say ⟨3, h.src, []⟩) else s3
    let s5 := { s4 with bond := { s4.bond with takeOver := if 2 ≤ rank ∧ bit (at_ p 26) 1 = true ∧ s4.leads = true then some (at_ p 27) else none } }
    s5.refStep.refTime c
  | _ => s

/-! JOIN, MGMT, SAFETY and the head's bricks at a member that does not head. -/

/-- A JOIN payload (R210). -/
def joinMsg (p : List Nat) : JoinMsg :=
  { uid := leAt p 0 6, kind := at_ p 6, rank := at_ p 7, dlyE := leAt p 8 4, dlyW := leAt p 12 4, resid := leAt p 16 4 }

/-- A JOIN accepted (R210): the head claims its node or refuses it; another member notes it for the CLAIM. -/
def State.onJoin (c : Copy) (s : State) : State :=
  let k := c.ring.val
  let r := s.ring k
  let j := joinMsg c.payload
  let s1 := s.setRing k { r with heard := (j :: r.heard.filter (fun x => x.uid != j.uid)).take 64 }
  if s1.heads then
    match (s1.ring k).matchJoin j.uid j.kind with
    | some a =>
      let t := s1.claim k j a
      t.setRing k { t.ring k with claims := (t.ring k).claims ++ [(j.uid, a, (s1.tableOf k a).length)] }
    | none => s1.count (R.RING_JOIN_CNT_REFUSED k)
  else s1

/-- A node's STATUS (R190, R198, R212). -/
def State.onStatus (c : Copy) (s : State) : State :=
  let k := c.ring.val
  let d := c.payload.drop 4
  let e := bit (at_ d 20) 0
  let w := bit (at_ d 20) 1
  let src := (hdrOf c.nats).src
  let down := match (s.ring k).node src with | some n => (n.linkE && !e) || (n.linkW && !w) | none => false
  let s1 := s.setRing k ((s.ring k).updNode src (fun n => { n with resid := leAt d 0 4, dlyE := leAt d 12 4, dlyW := leAt d 16 4, linkE := e, linkW := w }))
  if down then s1.setFlag (R.RING_STAT_BREAK k) true else s1

/-- A node's TABLE_ACK completes its join once it counts every item (R207, R210, R211). -/
def State.onTableAck (c : Copy) (s : State) : State :=
  let k := c.ring.val
  let src := (hdrOf c.nats).src
  let n := leAt c.payload 4 2
  let r := s.ring k
  s.setRing k (r.updNode src (fun m => if m.claimed && m.ackAt.isNone && n == (s.tableOf k src).length then { m with ackAt := some s.crs.cnt, due := 0, seen := false, lossRun := 0 } else m))

/-- Service data for firmware (R190, R217). -/
def State.onService (c : Copy) (s : State) : State :=
  let k := c.ring.val
  let p := c.payload
  if s.flag (R.RING_MG_STAT_RX_VALID k) then s.setFlag (R.RING_MG_STAT_RX_OVR k) true
  else
    let d := fitTo (p.drop 4) 60
    let s1 := (((s.setFlag (R.RING_MG_STAT_RX_VALID k) true).set (R.RING_MG_STAT_RX_SRC k) (hdrOf c.nats).src).set (R.RING_MG_STAT_RX_OP k) (at_ p 0)).set (R.RING_MG_STAT_RX_LEN k) (p.length - 4)
    (List.range 15).foldl (fun u i => u.set (R.RING_MG_RXD_DATA k i) (leAt d (4 * i) 4)) s1

/-- Safety records reach the island unchanged (R183, R280); a member takes none from a head. -/
def State.onSafetyBrick (c : Copy) (s : State) : State :=
  if (hdrOf c.nats).src < 2 then s
  else (s.elsOf c 2).foldl (fun u m => u.islRecord m.item (fitTo (slice c.payload m.ofs 12) 12)) s

/-- A CLAIM of the head at another member, whose bond table changes with it (R210, R214). -/
def State.onClaim (c : Copy) (s : State) : State :=
  let k := c.ring.val
  let uid := leAt c.payload 0 6
  let a := at_ c.payload 6
  let j := ((s.ring k).heard.find? (fun x => x.uid == uid)).getD ⟨uid, 0, 0, 0xFFFFFFFF, 0xFFFFFFFF, 0⟩
  let t := s.claim k j a
  t.setRing k ((t.ring k).spareAll a false)

/-- A MGMT of the head at another member: an OFF_RING marks its node (R208), and a refused opcode is counted (R190). -/
def State.onHeadMg (c : Copy) (s : State) : State :=
  let k := c.ring.val
  if at_ c.payload 0 = 1 then
    s.setRing k (((s.ring k).spareAll (at_ c.payload 1) true).updNode (at_ c.payload 1) (fun n => { n with claimed := false, off := true, uid := n.claimUid, ackAt := none, seen := false, edgeRun := 0, lossRun := 0 }))
  else if 0x80 ≤ at_ c.payload 0 then s.count (R.RING_DISC_CNT_HDR k)
  else s

/-- A COMMAND, IO_OUT, CLAIM or MGMT of the head at a member that does not head (R184, R214). -/
def State.onHeadBrick (c : Copy) (s : State) : State :=
  let t := (hdrOf c.nats).type
  if s.heads then s else if t = 9 then s.onClaim c else if t = 8 then s.onHeadMg c else s

/-! Forwarding and return (R174, R177, R186, R198). -/

/-- The copy is the device's own: a head's, or the MGMT that a follower sends to a backup timekeeper (R203). -/
def State.ownCopy (s : State) (c : Copy) : Bool :=
  let h := hdrOf c.nats
  h.src == s.selfAddr && h.type != 7 && (s.heads || s.get R.BOND_START_STATE == 2 || (s.follows && h.type == 8 && decide (2 ≤ s.get (R.RING_HEAD_RANK c.ring))))

/-- 64 byte times of residence, in 1/16 ns (R174). -/
def State.resid (s : State) (k : Nat) : Nat := s.bt16 k 64

/-- A copy of another source passes from its port to the other one; a CRC-32 failure is counted and marked, and a REFERENCE has its CORR advanced (R174, R177, R186, R212). -/
def State.forward (s : State) (c : Copy) : State :=
  let k := c.ring.val
  let b := c.nats
  let h := hdrOf b
  let r := s.ring k
  let inP := r.port (!h.west)
  let outP := r.port h.west
  if !(s.inserted k && inP.sync && outP.sync && outP.fwd && inP.fwd) || s.ownCopy c then s
  else
    let bad := !c.crcOk
    let s1 := if bad && c.hcrcOk && c.term != .v then s.countCrc c else s
    let b' := if h.type = 1 ∧ bad = false ∧ c.endOk = true then
        let p := putAt c.payload 16 (leBytes (leAt c.payload 16 4 + inP.dly + s.resid k) 4)
        brickBytes h p
      else b
    s1.emit (.forward k h.west b' (bad || c.term == .v))

/-- An own brick returns and is removed; checks 1 to 4 count as ever. The head's REFERENCE gives the loop delay of its sense, and in its first course shows that the ring is closed (R174, R198, R202). -/
def State.ownReturn (s : State) (c : Copy) : State :=
  let k := c.ring.val
  let h := hdrOf c.nats
  if !s.ringEn k || !s.ownCopy c then s
  else
    let r := (s.countCodes k c.onWest c.codes).rxFrame c
    if !(r.2 && h.type == 1) then r.1
    else
      let l := ((s.crsTime c.at_).toNat) * 16
      let q := r.1.ring k
      let s1 := r.1.setRing k (if h.west then { q with loopW := l, retW := true } else { q with loopE := l, retE := true })
      s1.set (if h.west then R.RING_LOOP_W_LOOP k else R.RING_LOOP_E_LOOP k) (l + s.resid k)

/-! The bricks the device owns (R29, R101, R188, R190, R205, R210, R230). -/

/-- The record of one axis in a COMMAND brick: the last published command, judged for lateness and torque (R29, R101, R125). -/
def State.cmdRecord (s : State) (a : Nat) : State × List Nat :=
  match s.axSlot a with
  | none => (s, List.replicate 16 0)
  | some (n, sl) =>
    let x := s.ax a
    let p := Store.get ⟨0, []⟩ (s.eng n).pub sl
    let fresh := !p.words.isEmpty && p.crs == s.crs.cnt
    if !fresh && !x.enabled then (s, List.replicate 16 0)
    else
      let s1 :=
        if fresh then s
        else
          let again := match x.late with | some c => c + 1 == s.crs.cnt | none => false
          ((s.setFlag R.BOND_CRS_STAT_LOOP_LATE true).count R.BOND_LOOP_LATE_CNT_COUNT).setAx a { x with late := some s.crs.cnt, pend := if again then x.pend ||| cLoopLate else x.pend }
      let w := p.words ++ List.replicate (4 - p.words.length) 0
      let s2 :=
        if f32Fin (at_ w 0) then s1
        else
          let y : Ax := s1.ax a
          if y.enabled then (((s1.setAx a { y with pend := y.pend ||| cLoop }).count R.LE_NONFIN_CNT_COUNT).orFld (R.LE_LOOPFLT_LOOPFLT (a / 32)) (2 ^ (a % 32))).store (axBlock a + 0xF00) 1 1
          else s1
      (s2, (w.zipIdx.flatMap (fun (v, i) => leBytes (if i = 0 ∧ f32Fin v = false then 0 else v) 4)))

/-- The payload of a COMMAND entry. -/
def State.cmdPayload (s : State) (k : Nat) (e : BEnt) : State × List Nat :=
  ((s.ring k).els e).foldl (fun (u, pay) m =>
    if m.kind ≠ 1 then (u, pay)
    else
      let r := State.cmdRecord u m.item
      (r.1, putAt pay m.ofs r.2)) (s, List.replicate e.len 0)

/-- The payload of a head SAFETY entry (R280). -/
def State.safPayload (s : State) (k : Nat) (e : BEnt) : List Nat :=
  ((s.ring k).els e).foldl (fun pay m => if m.kind ≠ 2 then pay else putAt pay m.ofs (fitTo (Store.get (0, []) s.isl.tx m.item).2 12)) (List.replicate e.len 0)

/-- The HANDOVER that a device which follows a backup timekeeper has to send (R203). -/
def State.askedHandover (s : State) (k : Nat) : Option Mg :=
  if s.follows && decide (2 ≤ s.get (R.RING_HEAD_RANK k)) then (s.ring k).mq.find? (fun m => m.op == 3) else none

/-- The payload of a MGMT entry: a DRIVE_RESET that is due, else the message at the head of the queue (two table items for one node where they fit), else NONE (R190). -/
def State.mgPayload (s : State) (k : Nat) (e : BEnt) : State × List Nat :=
  let r := s.ring k
  let q := (r.seq + 1) % 65536
  let mq := if s.heads then r.mq else (s.askedHandover k).toList
  match (if s.heads then s.driveReset k else none), mq with
  | some (a, m, axs), _ =>
    ({ s.setRing k { r with seq := q } with crs := { s.crs with resets := s.crs.resets.filter (fun x => !(axs.take 4).contains x) } }, mgBytes 2 a r.seq [m] e.len)
  | none, m :: rest =>
    let sent : State := if 0x10 ≤ m.op then s.setFlag (R.RING_MG_TX_GO k) false else s
    match m.op, rest with
    | 5, n :: rest2 =>
      if n.op = 5 ∧ n.dest = m.dest ∧ 52 ≤ e.len then (sent.setRing k { r with mq := rest2, seq := q }, mgBytes 5 m.dest r.seq (m.data ++ n.data) e.len)
      else (sent.setRing k { r with mq := rest, seq := q }, mgBytes m.op m.dest r.seq m.data e.len)
    | _, _ => (sent.setRing k { r with mq := if s.heads then rest else r.mq.filter (fun x => x.op != 3), seq := q }, mgBytes m.op m.dest r.seq m.data e.len)
  | none, [] => (s, mgBytes 0 0 0 [] e.len)

/-- The START of an own entry has come; `ofs` is where the brick would start, in byte times from its place: outside the guardian window it is not sent and is counted (R205). Only a member that leads sends IO_OUT (R230). -/
def State.entrySend (s : State) (k i : Nat) (e : BEnt) (ofs : Int) : State :=
    if !s.sentNow k e || e.owner ≠ 0 || e.type = 7 || e.type = 1 || !s.inserted k || (s.ring k).quiet then s
    else if !(s.heads || (e.type == 8 && (s.askedHandover k).isSome)) then s
    else if 16 < ofs.natAbs then s.count (R.RING_DISC_CNT_HDR k)
    else
      match e.type with
      | 3 => let r := s.cmdPayload k e; { r.1 with outs := r.1.outs ++ s.sendBoth k 3 i r.2 }
      | 5 =>
        if !s.leads then s
        else { s with outs := s.outs ++ s.sendBoth k 5 i (match Store.get [] (s.ring k).snap i with | [] => s.ioOut k e | l => l) }
      | 6 => { s with outs := s.outs ++ s.sendBoth k 6 i (s.safPayload k e) }
      | 8 => let r := s.mgPayload k e; { r.1 with outs := r.1.outs ++ s.sendBoth k 8 i r.2 }
      | 9 =>
        (match (s.ring k).claims with
        | (uid, a, n) :: rest =>
          let s1 := ((s.setRing k { s.ring k with claims := rest }).claimSent k a).count (R.RING_JOIN_CNT_CLAIMS k)
          { s1 with outs := s1.outs ++ s.sendBoth k 9 i (fitTo (leBytes uid 6 ++ [a, n % 256]) e.len) }
        | [] => s)
      | 15 => { s with outs := s.outs ++ s.sendBoth k 15 i (List.replicate e.len 0) }
      | _ => s

/-- BRICK_ENTRY_DUE of an entry of the schedule in force; what was read for an IO_OUT brick is used up, sent or not (R230). -/
def State.entryDue (s : State) (k i : Nat) (ofs : Int) : State :=
  match s.bent k i with
  | none => s
  | some e =>
    let t := s.entrySend k i e ofs
    if e.type = 5 ∧ s.sentNow k e = true then t.setRing k { t.ring k with snap := Store.put [] (t.ring k).snap i [] } else t

/-! Service messages (R217). -/

/-- A write of RINGk_MG_TX with GO. -/
def State.mgGo (s : State) (k dest op len : Nat) : State :=
  let err (u : State) : State := u.setFlag (R.RING_MG_STAT_TX_ERR k) true
  if s.flag (R.RING_MG_TX_GO k) then err s
  else
    let s1 := ((s.set (R.RING_MG_TX_DEST k) dest).set (R.RING_MG_TX_OP k) op).set (R.RING_MG_TX_LEN k) len
    let claimed := match (s.ring k).node dest with | some n => n.claimed | none => false
    if s.heads && decide (0x10 ≤ op ∧ op ≤ 0x7F) && claimed then
      let d := ((List.range 15).flatMap (fun i => leBytes (s.get (R.RING_MG_TXD_DATA k i)) 4)).take (min len 60)
      (s1.setFlag (R.RING_MG_TX_GO k) true).setRing k { s1.ring k with mq := (s1.ring k).mq ++ [⟨op, dest, d⟩] }
    else err s1

/-! Meanings. -/

/-- What the arrival of a brick can change. -/
def rxDo (t s : State) : Host.Outcome State Fault Refusal :=
  .next { s with rings := t.rings, bond := t.bond, crs := t.crs, now := t.now, free := t.free, cap := t.cap, cas := t.cas, hst := t.hst, tim := t.tim, axes := t.axes, engs := t.engs, pim := t.pim, isl := t.isl, mtr := t.mtr, chans := t.chans, pwr := t.pwr, mem := t.mem, tst := t.tst, flds := t.flds, bus := .none, outs := t.outs }

/-- FEEDBACK. -/
def execFeedback (c : Copy) (s : State) : Host.Outcome State Fault Refusal := rxDo (s.quiet.rx c (fun t => t == 2) (State.onFeedback c) id) s

/-- REFERENCE. -/
def execReference (c : Copy) (s : State) : Host.Outcome State Fault Refusal :=
  rxDo (if s.ownCopy c then s.quiet else s.quiet.rx c (fun t => t == 1) (State.onReference c) (fun u => if u.follows || u.get R.BOND_START_STATE == 1 then u.refSense c else u)) s

/-- IO_IN. -/
def execIoIn (c : Copy) (s : State) : Host.Outcome State Fault Refusal :=
  rxDo (s.quiet.rx c (fun t => t == 4) (fun u => match u.entOf c with | some e => u.ioIn c.ring e c.payload | none => u) id) s

/-- SAFETY. -/
def execSafety (c : Copy) (s : State) : Host.Outcome State Fault Refusal := rxDo (s.quiet.rx c (fun t => t == 6) (State.onSafetyBrick c) id) s

/-- JOIN. -/
def execJoin (c : Copy) (s : State) : Host.Outcome State Fault Refusal :=
  rxDo (s.quiet.rx c (fun t => t == 7) (State.onJoin c) id) s

/-- FILL. -/
def execFill (c : Copy) (s : State) : Host.Outcome State Fault Refusal := rxDo (s.quiet.rx c (fun t => t == 15) id id) s

/-- MGMT_STATUS. -/
def execMgmtStatus (c : Copy) (s : State) : Host.Outcome State Fault Refusal := rxDo (s.quiet.rxMg c (fun o => o == 4) (State.onStatus c)) s

/-- TABLE_ACK. -/
def execTableAck (c : Copy) (s : State) : Host.Outcome State Fault Refusal := rxDo (s.quiet.rxMg c (fun o => o == 6) (State.onTableAck c)) s

/-- MGMT_NONE, and the opcodes of the device's own range that carry nothing for a head (R190). -/
def execMgmtNone (c : Copy) (s : State) : Host.Outcome State Fault Refusal := rxDo (s.quiet.rxMg c (fun o => decide (o < 16) && o != 4 && o != 6) id) s

/-- MGMT_SERVICE_DATA. -/
def execMgmtServiceData (c : Copy) (s : State) : Host.Outcome State Fault Refusal :=
  rxDo (s.quiet.rxMg c (fun o => decide (0x10 ≤ o ∧ o ≤ 0x7F)) (State.onService c)) s

/-- MGMT_REFUSED_OPCODE. -/
def execMgmtRefusedOpcode (c : Copy) (s : State) : Host.Outcome State Fault Refusal :=
  rxDo (s.quiet.rxMg c (fun o => decide (0x80 ≤ o)) (fun u => u.count (R.RING_DISC_CNT_HDR c.ring))) s

/-- HEAD_BRICK. -/
def execHeadBrick (c : Copy) (s : State) : Host.Outcome State Fault Refusal :=
  let node := c.hcrcOk && (hdrOf c.nats).type == 8 && decide (2 ≤ (hdrOf c.nats).src)
  rxDo (if s.ownCopy c || node then s.quiet else s.quiet.rx c (fun t => t == 3 || t == 5 || t == 8 || t == 9) (State.onHeadBrick c) id) s

/-- BRICK_FORWARD. -/
def execBrickForward (c : Copy) (s : State) : Host.Outcome State Fault Refusal := rxDo (s.quiet.forward c) s

/-- OWN_BRICK_RETURN. -/
def execOwnBrickReturn (c : Copy) (s : State) : Host.Outcome State Fault Refusal := rxDo (s.quiet.ownReturn c) s

/-- BRICK_ENTRY_DUE. -/
def execBrickEntryDue (k : Fin 4) (i : Fin 1024) (ofs : Int) (s : State) : Host.Outcome State Fault Refusal := rxDo (s.quiet.entryDue k i ofs) s

/-- MG_TX_GO. -/
def execMgTxGo (k : Fin 4) (dest : BitVec 6) (op : BitVec 8) (len : BitVec 6) (s : State) : Host.Outcome State Fault Refusal :=
  s.atReg (0x80040090 + 0x10000 * k.val) (rxDo (s.quiet.mgGo k dest.toNat op.toNat len.toNat) s)

/-- MG_RX_RELEASE. -/
def execMgRxRelease (k : Fin 4) (s : State) : Host.Outcome State Fault Refusal :=
  s.atReg (0x80040094 + 0x10000 * k.val) (rxDo (s.quiet.setFlag (R.RING_MG_STAT_RX_VALID k) false) s)

/-- BRICK_LOST. -/
def execBrickLost (k : Fin 4) (i : Fin 1024) (s : State) : Host.Outcome State Fault Refusal := rxDo (s.quiet.brickLost k i) s

/-- CLAIM_TIMEOUT. -/
def execClaimTimeout (k : Fin 4) (a : Fin 64) (s : State) : Host.Outcome State Fault Refusal := rxDo (s.quiet.claimTimeout k a) s

end Sys2Proof.Machine
end

