-- ==== Sys2Proof/Machine/TickDue.lean ====
section
/-! DEFINITION. When the profile tick of a course runs: once, after the feedback window and before what depends on it (R23, R49, R50, R119, R352). -/
namespace Sys2Proof.Machine

/-- The end of the feedback window of the present course (R23). -/
def State.fbEndNow (s : State) : Nat :=
  s.crs.start + (match s.crs.scheds.getD (s.get R.BOND_CRS_STAT_SCHED_CUR) none with | some d => d.fbEnd | none => 0)

/-- The profile tick of the present course, unless it has run: no earlier than the end of the feedback window, on a device whose courses run and which computes live (R23, R50, R310). A member that has just become HOLDER first ends its lagging computation (R317). -/
def State.tickDue (s : State) : State :=
  match s.crs.tick with
  | none => s
  | some late =>
    if s.shadows || !(s.dev == .run || s.dev == .safeHold) then s
    else
      let s0 := (s.shadowRest.axisEvents s.tsPrev).postKept
      let s1 : State := { s0 with now := max s0.now s0.fbEndNow }
      let t := (s1.profileTick s1.ptStart late (s1.get R.CAS_CFG_POS)).axisEvents s1.tsNow
      { t with crs := { t.crs with tick := none, late := late } }

/-- `s` with everything a profile tick can change as it is in `t`. -/
def State.tickPart (t s : State) : State :=
  { s with now := t.now, crs := t.crs, axes := t.axes, grps := t.grps, chans := t.chans, loops := t.loops, upd := t.upd, engs := t.engs, mtr := t.mtr, mem := t.mem, tst := t.tst, flds := t.flds, pfAns := t.pfAns, cap := t.cap, free := t.free, bus := .none, outs := t.outs }

end Sys2Proof.Machine
end

