-- ==== Sys2Proof/Machine/Cascade.lean ====
section
/-! DEFINITION. The cascade, the boot chain and the JTAG chain; and the links of ring and cascade ports (R171, R197, R212, R213, R347 to R360). -/
namespace Sys2Proof.Machine

/-- Change the cascade's record. -/
def State.updCas (s : State) (f : Cas → Cas) : State := { s with cas := f s.cas }

/-- The port of the cascade. -/
def Cas.port (c : Cas) (b : Bool) : Port := if b then c.b else c.a

/-- Replace a port of the cascade. -/
def Cas.setPort (c : Cas) (b : Bool) (p : Port) : Cas := if b then { c with b := p } else { c with a := p }

/-- The cascade is enabled. -/
def State.casEn (s : State) : Bool := s.flag R.CAS_CFG_EN

/-- The stop is inserted. -/
def State.casIn (s : State) : Bool := s.flag R.CAS_STAT_BYP

/-- The frame is the stop's own, which it removes as it returns (R348). -/
def State.casOwn (s : State) (f : CFrm) : Bool := f.src.val == s.get R.CAS_CFG_POS && f.memberB == s.flag R.MTR_STAT_MEMBER

/-- A frame passes cut-through to the other port, with a residence time of 128 ns, while both links carry (R212, R213, R348). -/
def State.casPass (s : State) (f : CFrm) (type : Nat) (p : List Nat) : State :=
  let i := s.cas.port f.portB
  let o := s.cas.port (!f.portB)
  if s.casIn && i.sync && o.sync && i.fwd && o.fwd && !s.casOwn f then
    (s.updCas (fun c => c.carry (!f.portB) (f.at_ + 128 + casCost p.length))).emit (.casc (!f.portB) ⟨type, f.src, f.memberB, f.course, f.dest, f.west⟩ p)
  else s

/-- A frame arrives (R348): a bypassed stop takes none, an inserted one passes it on with payload `p`, the CRC-32 is counted, frames for another stop only pass, and the first copy alone acts; `key` tells two frames of a type and sender apart. -/
def State.casRx (s0 : State) (f : CFrm) (type : Nat) (p key : List Nat) (act : State → State) : State :=
  if !s0.casEn || s0.get R.CAS_STAT_STATE < 2 then s0
  else
    let s := s0.casPass f type p
    if !f.crcOk then s.count R.CAS_CNT_CRC
    else if s.casOwn f then s
    else if f.dest ≠ 0xFF ∧ f.dest ≠ s.get R.CAS_CFG_POS then s
    else
      let id := (type, f.src.val * 2 + b2n f.memberB, key)
      if s.cas.acted.contains id then s
      else act (s.updCas (fun c => { c with acted := id :: c.acted }))

/-! MARK (R350, R351). -/

/-- The period of a schedule in the own image. -/
def State.periodOf (s : State) (j : Nat) : Option Nat := (s.crs.scheds.getD j none).map Sched.period

/-- The own image disagrees with the root's MARK on the period: the schedule is absent, or two consecutive MARKs lie another period apart (R351). -/
def State.markBad (s : State) (m : Mark) : Bool :=
  match s.periodOf m.sched, s.cas.mark with
  | none, _ => true
  | some p, some l => m.stepSeq == l.stepSeq && m.course == l.course + 1 && m.sched == l.sched && decide (1000 < ((m.time : Int) - (l.time : Int) - (p : Int)).natAbs)
  | some _, none => false

/-- A MARK payload (R349). -/
def Mark.bytes (m : Mark) : List Nat :=
  leBytes m.time 8 ++ leBytes m.course 8 ++ leBytes m.corr 4 ++ [m.sched % 4 + 4 * b2n m.pending + 8 * (m.next % 4), m.left % 256, m.stepSeq % 256, 0]

/-- A MARK as it passes: CORR grows by the link's delay and the residence time (R348, R350). -/
def State.markOn (s : State) (f : CFrm) (m : Mark) : List Nat :=
  (if f.crcOk then { m with corr := m.corr + (s.cas.port f.portB).dly + 128 * 16 } else m).bytes

/-- The schedules that a MARK announces, at a position other than the root (R351). -/
def State.markSwitch (s : State) (m : Mark) : State :=
  if s.root then s
  else if m.pending && s.schedIn m.next then ({ s with crs := { s.crs with swTo := some m.next } }).set R.BOND_CRS_STAT_SW_LEFT m.left
  else if m.pending then s.setFlag R.CAS_STAT_PLAN_ERR true
  else ({ s with crs := { s.crs with swTo := none } }).set R.BOND_CRS_STAT_SW_LEFT 0

/-- A root's step: STEP_SEQ has changed. It holds from the course start that the MARK gives on, so that every stamp of this course moves with it (R346). The standby of a root pair, which its rings' REFERENCE steps as well, takes what is left of it beyond the alignment's 25 ns (log entry 84). -/
def State.markStep (s : State) (m : Mark) : State :=
  let t := if m.stepSeq = s.cas.stepSeq || (s.root && decide (s.cas.ofs.natAbs ≤ 25)) then s else (s.stepTime s.cas.ofs).updCas (fun c => { c with ofs := 0 })
  t.updCas (fun c => { c with stepSeq := m.stepSeq })

/-- A MARK accepted at a stop that does not send them itself; an inserted one disciplines its device time by rate, and shows whether its course start is aligned (R350). -/
def State.onMark (s : State) (f : CFrm) (m : Mark) : State :=
  let p := s.cas.port f.portB
  let s0 := s.updCas (fun c => { c with seen := some true, miss := 0, mark := some m, run := c.run + 1 })
  let bad := s.markBad m
  let s1 := if bad then (s0.setFlag R.CAS_STAT_PLAN_ERR true).updCas (fun c => { c with run := 0 }) else s0
  if !p.meas then s1
  else
    let d := m.corr + p.dly
    let ofs : Int := (m.time : Int) + (d / 16 : Nat) - (f.at_ : Int)
    let s2 := (if s.root then s1 else s1.set R.CAS_ROOT_DLY_D d).updCas (fun c => { c with ofs := ofs })
    if s.get R.CAS_STAT_STATE ≠ 3 then s2.updCas (fun c => { c with stepSeq := m.stepSeq })
    else
      let own : Int := (s.crs.start : Int) - ((f.at_ : Int) - (d / 16 : Nat))
      ((((s2.markStep m).set R.CAS_ALIGN_OFS (ux 16 (sat16 own))).setFlag R.CAS_STAT_ALIGNED (decide (own.natAbs ≤ 25))).discipline).markSwitch m

/-- A course without a MARK (R350): the second in a row is lasting. -/
def State.markMissing (s : State) : State :=
  if s.casEn && s.get R.CAS_STAT_STATE != 4 && s.cas.seen.isNone then
    let n := min 2 (s.cas.miss + 1)
    let s1 := s.updCas (fun c => { c with seen := some false, miss := n, run := 0 })
    if s.get R.CAS_STAT_STATE = 3 then
      let s2 := s1.count R.CAS_CNT_LOST
      if n = 2 then (s2.setFlag R.CAS_STAT_MARK_LOST true).setFlag R.CAS_STAT_ALIGNED false else s2
    else s1
  else s

/-- A stop inserts itself after 16 MARKs in a row (R350); its time is stepped at the next course start. The standby of a root pair inserts so too, and has its time and course from the pair (R204, R357; log entry 84). -/
def State.casInsert (s : State) : State :=
  if s.casEn && decide (16 ≤ s.cas.run) && s.get R.CAS_STAT_STATE == 2 && (s.dev == .run || s.dev == .safeHold) then
    ((s.setFlag R.CAS_STAT_BYP true).set R.CAS_STAT_STATE 3).updCas (fun c => { c with due := !s.root })
  else s

/-- At the course start at which a stop inserts, it takes the root's time, course counter and schedule (R350). Counter and course start are those of the last MARK, for the course that starts now. -/
def State.casAlign (s : State) : State :=
  if !s.cas.due then s
  else
    let t := (s.stepTime s.cas.ofs).updCas (fun c => { c with due := false, ofs := 0 })
    match s.cas.mark with
    | some m => (({ t with crs := { t.crs with cnt := m.course + 1, start := m.time + (match t.crs.scheds.getD m.sched none with | some d => d.period | none => 0) } }).adoptSched m.sched).setFlag R.CAS_STAT_ALIGNED true
    | none => t

/-! SETP, PLAN, STATUS, planned frames (R352, R353, R356). -/

/-- The slots of a mask, ascending. -/
def slotsOf (mask : Nat) : List Nat := (List.range 32).filter (fun i => bit mask i)

/-- A SETP payload: the mask and a record for each slot. The records go to the sender's part of the table (R353). -/
def State.onSetp (s : State) (src : Nat) (p : List Nat) : State :=
  let sl := slotsOf (leAt p 0 4)
  (s.updCas (fun c => { c with heard := setBit c.heard src true })).poke ((sl.zipIdx.flatMap (fun (i, k) => (slice p (4 + 16 * k) 16).zipIdx.map (fun (x, o) => (sharedRec src i + o, BitVec.ofNat 8 x)))))

/-- The plan's entry of a position. -/
def State.planOf (s : State) (p : Nat) : Nat := at_ s.cas.plan p

/-- The own SETP frame is due: the records that stand in the own part of the table for the next course, the lowest slots only where the plan allows fewer (R352, R353). -/
def State.setpDue (s : State) : State :=
  let pos := s.get R.CAS_CFG_POS
  let ok := s.casEn && s.casIn && s.leads && s.flag R.CAS_STAT_PLANNED
  let all := (List.range 32).filter (fun i => (s.axes.any (fun x => bit x.2.par.pubCfg 0 && x.2.copied && bits x.2.par.pubCfg 1 5 == i)) && s.load (sharedRec pos i + 12) 2 == (s.crs.cnt + 1) % 65536)
  if !ok || all.isEmpty then s
  else
    let lim := bits (s.planOf pos) 14 6
    let sl := all.take lim
    let s1 := if lim < all.length then s.setFlag R.CAS_STAT_PLAN_ERR true else s
    s1.casPlanned (s.crs.start + 2 * bits (s.planOf pos) 0 14) 2 0xFF (leBytes (sl.foldl (fun m i => m + 2 ^ i) 0) 4 ++ sl.flatMap (fun i => leBytes (s.load (sharedRec pos i) 16) 16))

/-- The own STATUS frame is due in a course of its phase (R356). -/
def State.statusDue (s : State) : State :=
  if s.casEn && s.casIn && s.leads && s.flag R.CAS_STAT_PLANNED && s.crs.cnt % 16 == bits (s.planOf (s.get R.CAS_CFG_POS)) 20 4 then
    s.casPlanned s.now 5 0xFF ([b2n s.allStill + 2 * b2n s.mtr.paired + 4 * b2n (s.mtr.paired && s.peerReady), 0] ++ leBytes (s.get R.MTR_EPOCH_EPOCH) 2 ++ leBytes 0 4)
  else s

/-- Mark a position present or absent. -/
def State.setPresent (s : State) (p : Nat) (on : Bool) : State :=
  if p < 32 then s.set R.CAS_PRESENT0_PRESENT (setBit (s.get R.CAS_PRESENT0_PRESENT) p on)
  else s.set R.CAS_PRESENT1_PRESENT (setBit (s.get R.CAS_PRESENT1_PRESENT) (p - 32) on)

/-- ALL_STILL of a position's last STATUS (R356, R363). -/
def State.setStill (s : State) (p : Nat) (still : Bool) : State :=
  if p < 32 then s.set R.CAS_STILL0_STILL (setBit (s.get R.CAS_STILL0_STILL) p still)
  else s.set R.CAS_STILL1_STILL (setBit (s.get R.CAS_STILL1_STILL) (p - 32) still)

/-- A STATUS frame at the root (R356); a position first marked present makes a PLAN due (R352). -/
def State.onStatusFrame (s : State) (src flags : Nat) : State :=
  if !s.root then s
  else
    let new := !s.present src
    ((s.setPresent src true).setStill src (bit flags 0)).updCas (fun c => { c with last := Store.put none c.last src (some s.crs.cnt), fresh := c.fresh || new })

/-- No STATUS for 32 courses clears the position's presence (R356). -/
def State.presenceExpire (s : State) (p : Nat) : State :=
  match Store.get none s.cas.last p with
  | some c => if s.root ∧ c + 32 ≤ s.crs.cnt then (s.setPresent p false).updCas (fun x => { x with last := Store.put none x.last p none, heard := setBit x.heard p false }) else s
  | none => s

/-- Every position's presence is judged at a course start (R356). -/
def State.presenceTurn (s : State) : State := (s.cas.last.map (·.1)).foldl State.presenceExpire s

/-- A position whose SETP frames come has sent none in the course that ends: it counts as lost (R353, R363). DESIGN CHOICE (log entry 84): the spec does not say when a SETP frame counts as lost. -/
def State.setpMissing (s : State) : State :=
  if s.casIn then (List.range 64).foldl (fun u p => if bit s.cas.heard p && !s.cas.acted.any (fun x => x.1 == 2 && x.2.1 / 2 == p) then u.count R.CAS_CNT_LOST else u) s else s

/-- The root's MARK (R349). -/
def State.ownMark (s : State) : Mark :=
  ⟨s.crs.start, s.crs.cnt, 0, s.get R.BOND_CRS_STAT_SCHED_CUR, s.crs.swTo.isSome, s.crs.swTo.getD 0, s.get R.BOND_CRS_STAT_SW_LEFT, s.cas.stepSeq⟩

/-- What the root HOLDER sends at a course start: MARK, and PLAN after it when it starts sending MARKs or a position is new (R349, R352). -/
def State.sendMark (s : State) : State :=
  if s.casEn && s.root && s.leads && s.heads && (s.dev == .run || s.dev == .safeHold) then
    let first := s.get R.CAS_STAT_STATE != 4
    let s1 := ((s.set R.CAS_STAT_STATE 4).setFlag R.CAS_STAT_BYP true).updCas (fun c => { c with fresh := false })
    let s2 := s1.casPlanned s.crs.start 1 0xFF s.ownMark.bytes
    if first || s.cas.fresh then (s2.casPlanned (s.crs.start + casCost 24) 6 0xFF (((List.range 64).map s.planOf).flatMap (fun w => leBytes w 4))).setFlag R.CAS_STAT_PLANNED true else s2
  else if s.casEn && s.root && s.get R.CAS_STAT_STATE == 4 then s.set R.CAS_STAT_STATE 3
  else s

/-! MSG and TRIG (R354, R355). -/

/-- A Dripota message arrives over the cascade: a command for this position, a service message, or at the root an answer for a client. The frame does not carry the host's address and port, so that what stands for them in the slot of a service message is free (R337; log entry 84). -/
def State.onMsg (s : State) (b : List Nat) : State :=
  match dparse b with
  | none => s
  | some m =>
    if bits m.dev 0 6 = s.get R.CAS_CFG_POS ∧ s.root = false ∧ m.kind = 1 then s.jCommand m
    else if bits m.dev 0 6 = s.get R.CAS_CFG_POS ∧ s.root = false ∧ 0x10 ≤ m.kind ∧ m.kind ≤ 0x1F then
      let x := s.draw 0x100000000
      let y := x.2.draw 0x10000
      y.2.fwReceive x.1 y.1 b
    else if s.root && s.leads then s.toClient m.client b
    else s

/-! Boot chain (R358, R359). -/

/-- The role in the boot chain. -/
def State.chainRole (s : State) : Nat := s.get R.CAS_BOOT_ROLE

/-- The offset and length of the image for a chain position in the slot that the master loads (R413). -/
def State.chainImg (s : State) (p : Nat) : Nat × Nat :=
  match s.boot.hdrs, s.boot.slot with
  | some (a, b), some w => (if w then b else a).chain.getD (p - 1) (0, 0)
  | _, _ => (0, 0)

/-- The master sends a block of the image for position `p`: 4096 bytes, or what is left (R359). -/
def State.chainSend (s : State) (p block : Nat) (again : Bool) : State :=
  let (o, n) := s.chainImg p
  ({ s with chain := { s.chain with cur := some (p, block), again := again } }).emit (.bootSend p block (o + 4096 * block) (min 4096 (n - 4096 * block)))

/-- The master goes on with the first block of the next counted position after `p` whose image its slot carries, or ends (R359; log entry 99). -/
def State.chainNext (s : State) (p : Nat) : State :=
  match (List.range 16).find? (fun q => decide (p < q ∧ q ≤ s.get R.CAS_BOOT_COUNT) && (s.chainImg q).2 != 0) with
  | some q => s.chainSend q 0 false
  | none => { s with chain := { s.chain with cur := none, again := false } }

/-- An ENUM frame: a follower takes the next position and passes it on; on the master it has returned, and the images follow (R359). -/
def State.onEnum (s : State) (n : Nat) : State :=
  match s.chainRole with
  | 2 => (s.set R.CAS_BOOT_CHAIN_POS (n + 1)).emit (.bootEnum (n + 1))
  | 1 => if s.chain.cur.isSome then s else (s.set R.CAS_BOOT_COUNT n).chainNext 0
  | _ => s

/-- An IMAGE frame for position `p`: kept and acknowledged by its follower, passed on by others; on the master the frame under way has returned: without ACK or with a bad CRC it is sent a second time, a second failure is lasting, and the next block or position follows (R359). -/
def State.onImage (s : State) (p block : Nat) (d : List Nat) (ack crcOk : Bool) : State :=
  match s.chainRole with
  | 2 =>
    if p = s.get R.CAS_BOOT_CHAIN_POS ∧ crcOk = true then ({ s with chain := { s.chain with image := Store.put [] s.chain.image block d } }).emit (.bootImage p block d true)
    else s.emit (.bootImage p block d ack)
  | 1 =>
    if s.chain.cur ≠ some (p, block) then s
    else if ack && crcOk then (if 4096 * (block + 1) < (s.chainImg p).2 then s.chainSend p (block + 1) false else s.chainNext p)
    else if !s.chain.again then s.chainSend p block true
    else (s.orFld R.CAS_BOOT_FAIL (2 ^ p)).chainNext p
  | _ => s

/-! JTAG (R360). -/

/-- The IDCODE. -/
def idcode : Nat := 0x101923F3

/-! Links (R171, R197, R212, R213, R357). -/

/-- The port that PORT names: a ring's east or west port, or port A or B of the cascade; 10 to 15 are reserved. -/
def gpioPort (p : Nat) : Option Lnk :=
  if h : p < 8 then some (.ring ⟨p / 2, by omega⟩ (p % 2 == 1))
  else if p = 8 then some (.cas false)
  else if p = 9 then some (.cas true)
  else none

/-- The pins carry functions: not in reset, and not before the SYSTEM section is loaded (R430). -/
def State.pinsOn (s : State) : Bool := decide (1 ≤ s.boot.done) && (s.dev == .boot || s.dev == .standby || s.inCourses)

/-- A pin has the function SFP_LOS or SFP_TX_FAULT and is high (R430). -/
def State.losPin (s : State) (n : Nat) : Bool :=
  s.get (R.SYS_PINFUNC_MODE n) == 3 && (s.get (R.SYS_PINFUNC_FUNC n) == 1 || s.get (R.SYS_PINFUNC_FUNC n) == 2) && s.gpioIn n

/-- A pin assigned to a port as SFP_LOS or SFP_TX_FAULT is high: the port's link is down (R172, R430). -/
def State.losOn (s : State) (l : Lnk) : Bool :=
  s.pinsOn && (List.range 32).any (fun n => s.losPin n && gpioPort (s.get (R.SYS_PINFUNC_PORT n)) == some l)

/-- A link of a port is down. -/
def State.lnkDown (s : State) : Lnk → State
  | .ring k west => if s.ringEn k then s.linkDown k west else s
  | .cas b =>
    if s.casEn then
      ((s.updCas (fun c => c.setPort b { c.port b with sync := false, fwd := false, fresh := false, req := none, resp := none })).setFlag R.CAS_STAT_BREAK (s.flag R.CAS_STAT_BREAK || (s.cas.port b).sync)).setFlag (if b then R.CAS_STAT_B_SYNC else R.CAS_STAT_A_SYNC) false
    else s

/-- A link has synchronised, unless a pin says that it is down. -/
def State.lnkSync (s : State) : Lnk → State
  | .ring k west => if s.ringEn k && !s.losOn (.ring k west) then s.linkSync k west else s
  | .cas b =>
    if s.casEn && !s.losOn (.cas b) then
      (s.updCas (fun c => c.setPort b { c.port b with sync := true, fresh := false, fwd := false, req := none, resp := none })).setFlag (if b then R.CAS_STAT_B_SYNC else R.CAS_STAT_A_SYNC) true
    else s

/-- Forwarding resumes. -/
def State.lnkResume (s : State) : Lnk → State
  | .ring k west => s.forwardResume k west
  | .cas b => if (s.cas.port b).sync && (s.cas.port b).fresh then s.updCas (fun c => c.setPort b { c.port b with fwd := true }) else s

/-- An /LT/ REQUEST is due at time `t1`. -/
def State.lnkRequest (s : State) (t1 : Nat) : Lnk → State
  | .ring k west => let r := s.ltSend k west t1; { r.1 with outs := r.1.outs ++ r.2 }
  | .cas b =>
    if s.ltDue (s.cas.port b) then
      (s.updCas (fun c => { c.setPort b { c.port b with req := some (c.ltSeq, t1) } with ltSeq := (c.ltSeq + 1) % 65536 })).emit (.ltCas b 1 s.cas.ltSeq 0)
    else s

/-- An /LT/ REQUEST has arrived at time `t2`. -/
def State.lnkAsked (s : State) (seq t2 : Nat) : Lnk → State
  | .ring k west => s.ltRequest k west seq t2
  | .cas b => if (s.cas.port b).sync then s.updCas (fun c => c.setPort b { c.port b with resp := some (seq, t2) }) else s

/-- The RESPONSEs that the cascade ports owe leave at time `t3`. -/
def State.casAnswers (s : State) (t3 : Nat) : State :=
  let out (b : Bool) : List Out := match (s.cas.port b).resp with
    | some (q, t2) => [.ltCas b 2 q ((t3 - t2) * 16 % 2 ^ 32)]
    | none => []
  let t := s.updCas (fun c => { c with a := { c.a with resp := none }, b := { c.b with resp := none } })
  { t with outs := t.outs ++ out false ++ out true }

/-- An /LT/ RESPONSE has arrived at time `t4`. -/
def State.lnkAnswered (s : State) (seq value t4 : Nat) : Lnk → State
  | .ring k west => s.ltResponse k west seq value t4
  | .cas b =>
    let p := s.cas.port b
    match p.req with
    | some (q, t1) =>
      if q = seq ∧ p.sync = true then
        let m := s.divFree (((t4 : Int) - (t1 : Int)) * 16 - (value : Int)) 2
        let d : Int := if p.meas then (p.dly : Int) + { s with free := s.free + 1 }.divFree (m - (p.dly : Int)) 8 else m
        let v := ux 24 d
        ((({ s with free := s.free + 2 }).updCas (fun c => c.setPort b { p with meas := true, dly := v, fresh := true, req := none })).set (if b then R.CAS_LINK_B_DLY else R.CAS_LINK_A_DLY) v)
      else s
    | none => s

/-! Meanings. -/

/-- What a frame of the cascade can change. -/
def casDo (t s : State) : Host.Outcome State Fault Refusal :=
  .next { s with cas := t.cas, crs := t.crs, now := t.now, free := t.free, cap := t.cap, hst := t.hst, tim := t.tim, rings := t.rings, axes := t.axes, mtr := t.mtr, pwr := t.pwr, cores := t.cores, mem := t.mem, tst := t.tst, flds := t.flds, bus := .none, outs := t.outs }

/-- MARK. -/
def execMark (f : CFrm) (m : Mark) (s : State) : Host.Outcome State Fault Refusal :=
  casDo (s.quiet.casRx f 1 (s.markOn f m) [] (fun u => if u.get R.CAS_STAT_STATE = 4 then u else u.onMark f m)) s

/-- MARK_MISSING. -/
def execMarkMissing (s : State) : Host.Outcome State Fault Refusal := casDo s.quiet.markMissing s

/-- CASCADE_INSERT. -/
def execCascadeInsert (s : State) : Host.Outcome State Fault Refusal := casDo s.quiet.casInsert s

/-- What a frame of the cascade before which the profile tick runs can change. -/
def casTickDo (t s : State) : Host.Outcome State Fault Refusal :=
  .next { t.tickPart s with cas := t.cas, hst := t.hst, pwr := t.pwr, cores := t.cores }

/-- SETP: the tick of this course reads the records of this course before those of the next arrive (R73, R353). -/
def execSetp (f : CFrm) (p : List (BitVec 8)) (s : State) : Host.Outcome State Fault Refusal :=
  casTickDo (s.quiet.casRx f 2 (p.map BitVec.toNat) [] (fun u => u.tickDue.onSetp f.src (p.map BitVec.toNat))) s

/-- MSG. -/
def execMsg (f : CFrm) (b : List (BitVec 8)) (s : State) : Host.Outcome State Fault Refusal :=
  casDo (s.quiet.casRx f 3 (b.map BitVec.toNat) (b.map BitVec.toNat) (fun u => u.onMsg (b.map BitVec.toNat))) s

/-- TRIG: the trigger instant, the sender's position and its set. -/
def execTrig (f : CFrm) (t : Nat) (sender : Fin 64) (set_ : Fin 8) (s : State) : Host.Outcome State Fault Refusal :=
  casDo (s.quiet.casRx f 4 (leBytes t 8 ++ [sender.val, set_.val, 0, 0]) [t % 2 ^ 64, sender, set_] (fun u => u.casTrig t sender)) s

/-- CASCADE_STATUS. -/
def execCascadeStatus (f : CFrm) (flags : BitVec 8) (epoch : BitVec 16) (s : State) : Host.Outcome State Fault Refusal :=
  casDo (s.quiet.casRx f 5 ([flags.toNat, 0] ++ leBytes epoch.toNat 2 ++ leBytes 0 4) [epoch.toNat] (fun u => u.onStatusFrame f.src flags.toNat)) s

/-- PLAN. -/
def execPlan (f : CFrm) (plan : List (BitVec 32)) (s : State) : Host.Outcome State Fault Refusal :=
  casDo (s.quiet.casRx f 6 (plan.flatMap (fun w => leBytes w.toNat 4)) (plan.map BitVec.toNat) (fun u => if u.root then u else (u.setFlag R.CAS_STAT_PLANNED true).updCas (fun c => { c with plan := plan.map BitVec.toNat }))) s

/-- POSITION_PRESENCE_EXPIRE. -/
def execPositionPresenceExpire (p : Fin 64) (s : State) : Host.Outcome State Fault Refusal := casDo (s.quiet.presenceExpire p) s

/-- PLANNED_FRAME_DUE: the SETP slot, by which the profile tick has written the shared records (R352), or the STATUS phase. -/
def execPlannedFrameDue (setp : Bool) (s : State) : Host.Outcome State Fault Refusal := casTickDo (if setp then s.quiet.tickDue.setpDue else s.quiet.statusDue) s

/-- What a frame of the boot chain can change. -/
def chainDo (t s : State) : Host.Outcome State Fault Refusal := .next { s with chain := t.chain, flds := t.flds, bus := .none, outs := t.outs }

/-- ENUM with COUNT as the frame reaches the device. -/
def execEnum (n : BitVec 5) (s : State) : Host.Outcome State Fault Refusal := chainDo (s.quiet.onEnum n.toNat) s

/-- IMAGE: chain position, block number, data, the ACK bit and the CRC's verdict. -/
def execImage (p : Fin 16) (block : Nat) (d : List (BitVec 8)) (ack crcOk : Bool) (s : State) : Host.Outcome State Fault Refusal :=
  chainDo (s.quiet.onImage p block (d.map BitVec.toNat) ack crcOk) s

/-- What a JTAG instruction can change. -/
def jtagDo (j : Jtag) (o : List Out) (s : State) : Host.Outcome State Fault Refusal := .next { s with jtag := j, bus := .none, outs := o }

/-- The TAP after an instruction. -/
def State.tap (s : State) (code : Nat) (o : List Out) : Host.Outcome State Fault Refusal := jtagDo ({ s.jtag with ir := code }.pin s.rstLow) o s

/-- The boundary register after a scan under EXTEST: a cell of an observe-only pin keeps the level that it captured, so that no scan drives it (R360). -/
def Scan.bnd (v : Scan) : Nat := (v.pins &&& Config.bscanObserve) ||| (v.bits ^^^ (v.bits &&& Config.bscanObserve))

/-- EXTEST with a scan of the boundary register: the levels captured are shifted out. -/
def execExtest (v : Scan) (s : State) : Host.Outcome State Fault Refusal :=
  jtagDo ({ s.jtag with ir := 0, bnd := if s.rstLow then v.bnd else s.jtag.bnd }.pin s.rstLow) (if s.rstLow then [.tdo v.pins] else []) s

/-- IDCODE: the register is shifted out. -/
def execIdcode (s : State) : Host.Outcome State Fault Refusal := s.tap 1 [.tdo idcode]

/-- SAMPLE/PRELOAD: the pins' levels are shifted out and the boundary register takes new bits. -/
def execSamplePreload (pins v : Nat) (s : State) : Host.Outcome State Fault Refusal :=
  jtagDo ({ s.jtag with ir := 2, bnd := v }.pin s.rstLow) [.tdo pins] s

/-- HIGHZ. -/
def execHighz (s : State) : Host.Outcome State Fault Refusal := s.tap 3 []

/-- CLAMP. -/
def execClamp (s : State) : Host.Outcome State Fault Refusal := s.tap 4 []

/-- BYPASS, by its own code or an unassigned one; the codes of the other instructions are theirs. -/
def execBypass (code : BitVec 8) (s : State) : Host.Outcome State Fault Refusal :=
  s.tap (if code.toNat < 5 then 0xFF else code.toNat) []

/-- What an event of a link can change. -/
def lnkDo (t s : State) : Host.Outcome State Fault Refusal := .next { s with rings := t.rings, cas := t.cas, free := t.free, flds := t.flds, bus := .none, outs := t.outs }

/-- LT_REQUEST_SEND at time `t1`. -/
def execLtRequestSend (l : Lnk) (t1 : Nat) (s : State) : Host.Outcome State Fault Refusal := lnkDo (s.quiet.lnkRequest t1 l) s

/-- LT_REQUEST, arrived at time `t2`. -/
def execLtRequest (l : Lnk) (seq : BitVec 16) (t2 : Nat) (s : State) : Host.Outcome State Fault Refusal := lnkDo (s.quiet.lnkAsked seq.toNat t2 l) s

/-- LT_RESPONSE, arrived at time `t4` with its value. -/
def execLtResponse (l : Lnk) (seq : BitVec 16) (value : BitVec 32) (t4 : Nat) (s : State) : Host.Outcome State Fault Refusal :=
  lnkDo (s.quiet.lnkAnswered seq.toNat value.toNat t4 l) s

/-- The invalid code groups by which a ring's port has lost synchronisation are counted (R217); the cascade counts none. -/
def State.lnkCodes (s : State) (n : Nat) : Lnk → State
  | .ring k west => if s.ringEn k then s.countCodes k west n else s
  | .cas _ => s

/-- LINK_DOWN: the code groups that have come before it are counted, and the link is down. -/
def execLinkDown (l : LinkLoss) (s : State) : Host.Outcome State Fault Refusal := lnkDo ((s.quiet.lnkCodes l.codes l.link).lnkDown l.link) s

/-- LINK_SYNC. -/
def execLinkSync (l : Lnk) (s : State) : Host.Outcome State Fault Refusal := lnkDo (s.quiet.lnkSync l) s

/-- FORWARDING_RESUME. -/
def execForwardingResume (l : Lnk) (s : State) : Host.Outcome State Fault Refusal := lnkDo (s.quiet.lnkResume l) s

/-- SFP_LOS: a high level on an SFP_LOS or SFP_TX_FAULT pin of the port (R430). -/
def execSfpLos (l : Lnk) (s : State) : Host.Outcome State Fault Refusal := lnkDo (s.quiet.lnkDown l) s

end Sys2Proof.Machine
end

