-- ==== Sys2Proof/Machine/ChainImg.lean ====
section
/-! DEFINITION. The bytes of a configuration image, read from the NVM or received over the boot chain: headers, section directory and load records (R359, R412 to R415, R417, R418, R420, R421). -/
namespace Sys2Proof.Machine

/-- `n` bytes of the received image from offset `o`; the blocks of 4096 bytes stand one after the other. -/
def Chain.bytes (c : Chain) (o n : Nat) : List Nat := (List.range n).map (fun i => at_ (Store.get [] c.image ((o + i) / 4096)) ((o + i) % 4096))

/-- The first `n` bytes of the image have been received. -/
def Chain.has (c : Chain) (n : Nat) : Bool := (List.range ((n + 4095) / 4096)).all (fun b => decide (min 4096 (n - 4096 * b) ≤ (Store.get [] c.image b).length))

/-- Entry `i` of a header's section directory: OFFSET, LENGTH and CRC-32 (R414). -/
def dirEnt (h : List Nat) (i : Nat) : Nat × Nat × Nat := (leAt h (100 + 16 * i) 4, leAt h (104 + 16 * i) 4, leAt h (108 + 16 * i) 4)

/-- The largest LENGTH of each section, in TYPE order (R416). -/
def secMax : List Nat := [0x10000, 0x1000, 0x80000, 0x400000, 0x20000, 0x80000, 0x200000, 0x200000, 0x10000]

/-- The directory is as R414 requires: each TYPE once and in order, sections in order without overlap and before DIGEST_OFS, each within its limit. -/
def dirOk (h : List Nat) : Bool :=
  (List.range 9).all (fun i =>
    let (o, n, _) := dirEnt h i
    at_ h (96 + 16 * i) == i + 1 && leAt h (97 + 16 * i) 3 == 0 && o % 256 == 0 && decide (256 ≤ o) && decide (n ≤ secMax.getD i 0) && (n != 0 || i == 6 || i == 8) &&
    decide (o + n ≤ (if i = 8 then leAt h 24 4 else (dirEnt h (i + 1)).1)) && decide (o + n ≤ leAt h 24 4))

/-- The offset and IMAGE_LEN of the follower image for chain position `p`. -/
def chainEnt (h : List Nat) (lens : List Nat) (p : Nat) : Nat × Nat := if leAt h (32 + 4 * p) 4 = 0 then (0, 0) else (leAt h (32 + 4 * p) 4, at_ lens (p - 1))

/-- The follower images lie behind the image and within the slot (R412, R413). -/
def chainOk (h : List Nat) (lens : List Nat) (slot : Nat) : Bool :=
  decide (leAt h 32 4 < 16) &&
  (List.range 15).all (fun i =>
    let (o, n) := chainEnt h lens (i + 1)
    o == 0 || (decide (i + 1 ≤ leAt h 32 4 ∧ leAt h 20 4 ≤ o ∧ o + n ≤ slot) && o % 256 == 0))

/-- The first two checks of a header: MAGIC; FORMAT, HDR_LEN, DEVICE and the revision (R420, R421). -/
def State.hdrEarly (s : State) (h : List Nat) : Nat :=
  if leAt h 0 4 ≠ 0x4F58494D then 1
  else if leAt h 4 2 ≠ 1 ∨ leAt h 6 2 ≠ 256 ∨ leAt h 8 4 ≠ 0x4F580192 ∨ leAt h 12 2 ≠ s.get R.SYS_REV_MAJOR ∨ s.get R.SYS_REV_MINOR < leAt h 14 2 then 2
  else 0

/-- HDR_CRC checks (R413). -/
def hdrCrc (h : List Nat) : Bool := crc32 (h.take 252) == leAt h 252 4

/-- What check 3 asks beside HDR_CRC: GEN in range, the lengths, the followers' images and the directory, in a slot of `slot` bytes (R412 to R414, R417). -/
def hdrRest (h : List Nat) (lens : List Nat) (slot : Nat) : Bool :=
  decide (1 ≤ leAt h 16 4 ∧ leAt h 16 4 ≤ 0xFFFFFFFE) && decide (leAt h 20 4 ≤ 2 ^ 26 ∧ leAt h 20 4 ≤ slot) && leAt h 24 4 % 256 == 0 &&
  leAt h 20 4 == leAt h 24 4 + (if bit (leAt h 28 4) 0 then 160 else 32) && (List.range 12).all (fun i => at_ h (240 + i) == 0) && chainOk h lens slot && dirOk h

/-- The code of the first check that a header fails, 0 for none. -/
def State.hdrCode (s : State) (h : List Nat) (lens : List Nat) (slot : Nat) : Nat :=
  if s.hdrEarly h ≠ 0 then s.hdrEarly h else if hdrCrc h && hdrRest h lens slot then 0 else 3

/-- A header as read once or, where HDR_CRC failed, twice (R404, R420, R421), in a slot of `slot` bytes. -/
def State.hdrOf (s : State) (slot : Nat) (r : HdrRead) : SlotHdr :=
  let h1 := r.first.map BitVec.toNat
  let h2 := r.second.map BitVec.toNat
  let twice := s.hdrEarly h1 == 0 && !hdrCrc h1
  let h := if twice then h2 else h1
  ⟨s.hdrCode h r.chain slot, twice && hdrCrc h2, leAt h 16 4, leAt h 20 4, bit (leAt h 28 4) 0, (List.range 9).map (dirEnt h), (List.range 15).map (fun i => chainEnt h r.chain (i + 1))⟩

/-- The header of the image that a follower has received; it carries no further images (R413). -/
def State.chainHdr (s : State) : SlotHdr :=
  let h := (s.chain.bytes 0 256).map (BitVec.ofNat 8)
  let x := s.hdrOf (2 ^ 26) ⟨h, h, []⟩
  if x.code = 0 ∧ leAt (s.chain.bytes 0 256) 32 4 ≠ 0 then { x with code := 3 } else x

/-- The load records of a section body: TARGET, OFFSET and data (R415). Bytes at the end that make no record stand as one of TARGET 255. -/
def loadRecs : Nat → List Nat → List (Nat × Nat × List Nat)
  | 0, _ => []
  | n + 1, b =>
    if b.isEmpty then []
    else if b.length < 12 ∨ b.length < 12 + leAt b 8 4 then [(255, 0, [])]
    else
      let len := leAt b 8 4
      (at_ b 0, leAt b 4 4, slice b 12 len) :: loadRecs n (b.drop (12 + (len + 3) / 4 * 4))

/-- What a record loads: a register block takes aligned whole words, a memory bytes; a TARGET past 5 is undefined (R415). TARGET 1 to 5 stand under the layouts of their chapters. -/
def recItems (r : Nat × Nat × List Nat) : List LoadItem :=
  if 5 < r.1 then [.stray]
  else if r.1 ≠ 0 then []
  else if r.2.1 < 0x80000000 then [.mem (BitVec.ofNat 32 r.2.1) (r.2.2.map (BitVec.ofNat 8))]
  else if r.2.1 % 4 ≠ 0 ∨ r.2.2.length % 4 ≠ 0 then [.stray]
  else (List.range (r.2.2.length / 4)).map (fun i => .reg (BitVec.ofNat 32 (r.2.1 + 4 * i)) (BitVec.ofNat 32 (leAt r.2.2 (4 * i) 4)))

/-- The bytes of a section that its load records take: all but the entry address of APP_FIRMWARE and the trailer of SAFETY (R415, R418). -/
def secBody (type : Nat) (b : List Nat) : List Nat := if type = 8 then b.drop 4 else if type = 6 then b.take (b.length - 132) else b

/-- An item that the bytes do not give by themselves; the island's load records and CRC2 are those of the section's bytes (R294, R418). -/
def LoadItem.under (b : List Nat) : LoadItem → Option LoadItem
  | .reg _ _ | .mem _ _ | .entry _ | .stray => none
  | .island x => some (.island { x with recs := secBody 6 b, crc2 := leAt b (b.length - 132) 4 })
  | i => some i

/-- A section's load records. -/
def secItems (type : Nat) (b : List Nat) (x : List LoadItem) : List LoadItem :=
  (if type = 8 then [LoadItem.entry (BitVec.ofNat 32 (leAt b 0 4))] else []) ++ (loadRecs (b.length / 12 + 1) (secBody type b)).flatMap recItems ++ x.filterMap (LoadItem.under b)

/-- A section judged by the directory entry `d` of its slot: each read gives LENGTH bytes, and the CRC-32 decides which read stands (R404, R414, R421). -/
def SecRead.judge (x : SecRead) (d : Nat × Nat × Nat) : Option Section :=
  let b1 := x.first.map BitVec.toNat
  let b2 := x.second.map BitVec.toNat
  if b1.length ≠ d.2.1 ∨ b2.length ≠ d.2.1 then none
  else some ⟨x.slotB, x.type, crc32 b1 == d.2.2, crc32 b2 == d.2.2, secItems x.type (if crc32 b1 == d.2.2 then b1 else b2) x.items, x.rest⟩

/-- The section with the bytes that a follower has received (R359). -/
def State.chainRead (s : State) (x : SecRead) : SecRead :=
  let d := dirEnt (s.chain.bytes 0 256) (x.type - 1)
  let b := (s.chain.bytes d.1 d.2.1).map (BitVec.ofNat 8)
  { x with first := b, second := b }

end Sys2Proof.Machine
end

