-- ==== Sys2Proof/Machine/Masks.lean ====
section
/-! DEFINITION. The bits of the axis region and of the cam directory that writes reach (R11, R13, R43, R68, R72, R105). -/
namespace Sys2Proof.Machine

/-! Bits of the axis region and of the cam directory that firmware can change: reserved bytes and read-only fields keep their value (R11, R13, R43, R68, R72, R73, R105). A value written to a record that an engine overwrites stands until then (R42, R106). -/

/-- The parameter record (R43). -/
def parMask (o : Nat) : Nat :=
  if o = 0 then 0x08 else if o < 8 then 0 else if o < 88 then 0xFF
  else if o = 88 ∨ o = 92 then 0x3F else 0

/-- The loop parameter record (R105, R147): a custom axis's record means what its program gives it, but for the fields that stay read-only. -/
def lpMask (custom : Bool) (q : Nat) : Nat :=
  if q = 0 then (if custom then 0xFE else 0x3E)
  else if q = 2 then (if custom then 0x80 else 0)
  else if custom then 0xFF
  else if q = 3 ∨ q = 58 ∨ q = 59 ∨ (96 ≤ q ∧ q < 256) ∨ (388 ≤ q ∧ q < 512) ∨ (644 ≤ q ∧ q < 768) ∨ 1088 ≤ q then 0 else 0xFF

/-- A staging entry, byte `q` of it, whose fields from `ro` on are read-only: STATUS and the reserved bits of FLAGS are the profile engines' (R51, R68). -/
def stageMask (ro q : Nat) : Nat := if q = 2 ∨ ro ≤ q then 0 else if q = 3 then 1 else 0xFF

/-- A group block: the reserved bytes of its configuration and its state record are read-only (R68). -/
def grpMask (o : Nat) : Nat :=
  if 40 ≤ o ∧ o < 0x80 then 0 else if 0x80 ≤ o ∧ o < 0xE0 then stageMask 96 (o - 0x80) else 0xFF

/-- The cam and compensation memory: the reserved bytes of a directory entry are read-only (R72). -/
def camMask (a : Nat) : Nat := if 0x380C0000 ≤ a ∧ a < 0x380C0400 ∧ 5 ≤ a % 16 then 0 else 0xFF

end Sys2Proof.Machine
end

