-- ==== Sys2Proof/Machine/Course.lean ====
section
/-! DEFINITION. The course: its start with everything bound to it, its sample and actuation instants, its sync gap, missing feedback, and the start-up of the rings (R23 to R36, R180, R200 to R204, R209, R307). -/
namespace Sys2Proof.Machine

/-! What a course start does. -/

/-- The first course was clean: nothing spoilt it, and in ring topology the own REFERENCE returned on every synchronised port (R202). -/
def State.firstClean (s : State) : Bool :=
  s.bond.clean && s.ringsEn.all (fun k =>
    let r := s.ring k
    s.flag (R.RING_CFG_TOPO k) || ((!r.east.sync || r.retW) && (!r.west.sync || r.retE)))

/-- Member B waits 256 silent courses, judged as it begins to listen (R201). -/
def State.wait256 (s : State) : Bool := s.get R.BOND_START_RANK == 1 && !s.linkUp

/-- The device begins to listen (R201, R202): nothing of the course before is judged any more. -/
def State.beginListen (s : State) : State :=
  let t := s.ringsEn.foldl (fun u k => (u.setRing k { (u.ring k).noRefs with acc := [], bad := [], crcSeen := [], refRun := 0 }).setFlag (R.RING_STAT_JOIN_OPEN k) false) s
  let u := (((t.set R.BOND_START_STATE 1).set R.BOND_START_QUIET 0).setFlag R.BOND_START_WAIT256 s.wait256).setRingStates 2
  { u with bond := { u.bond with heardRef := false, heardAny := false, takeOver := none, missing := none, coast := false } }

/-- The device was not clean: it goes silent and listens again; after the third failure a rank other than 0 stays out for 64 courses (R202). -/
def State.goSilent (s : State) : State :=
  let n := s.get R.BOND_START_FAILS + 1
  let out := n == 3 && s.get R.BOND_START_RANK != 0
  let s1 := s.ringsEn.foldl (fun u k => u.setFlag (R.RING_STAT_COLLIDE k) true) s
  let s2 := (s1.set R.BOND_START_FAILS (if n = 3 then 0 else n)).beginListen
  if out then { s2.setFlag R.BOND_START_HELD64 true with bond := { s2.bond with held := 64 } } else s2

/-- The device listens from the start of R202: no failed attempts, not held out. -/
def State.listen (s : State) : State :=
  let t := ((s.set R.BOND_START_FAILS 0).setFlag R.BOND_START_HELD64 false).beginListen
  { t with bond := { t.bond with held := 0 } }

/-- The device follows a head that switches to a schedule its image lacks: it leaves its rings at the next sync gap, keeps its course counter by holdover and listens again (R449). -/
def State.stopFollowing (s : State) : State :=
  let s1 := (s.ringsEn.foldl (fun u k => if u.inserted k then u.setRing k { u.ring k with leave := true } else u) s).listen
  ({ s1 with bond := { s1.bond with coast := true }, crs := { s1.crs with swTo := none, tick := none } }.set R.BOND_CRS_STAT_SW_LEFT 0).judgeReady

/-- The course counter goes on by holdover (R449). -/
def State.coastOn (s : State) : State :=
  let start := s.crs.start + s.get R.BOND_CRS_PERIOD_PERIOD_NS
  { s with crs := { s.crs with cnt := (s.crs.cnt + 1) % 2 ^ 64, start := start, tick := none }, now := max s.now start }

/-- What the course that has ended decides about the head: whether the first course was clean, a handover counted down to its end, a keystone taken or given up (R202 to R204, R306, R308). -/
def State.headTurn (s : State) : State :=
  match s.get R.BOND_START_STATE with
  | 2 => if s.firstClean then (s.startHeading).set R.BOND_ENROL_LEFT 4096 else s.goSilent
  | 3 => if s.leads then s else (s.set R.BOND_START_STATE 4).setRingStates 5
  | _ =>
    match s.bond.takeOver with
    | none => s
    | some n =>
      if 1 < n then { s with bond := { s.bond with takeOver := some (n - 1) } }
      else
        let t : State := { s with bond := { s.bond with takeOver := none } }
        if s.leads then t.startHeading else t

/-- The switch boundary comes with this course start. -/
def State.swNow (s : State) : Bool := s.crs.swTo.isSome && s.get R.BOND_CRS_STAT_SW_LEFT == 1

/-- SCHEDULE_SWITCH and its countdown (R33, R34): the request is announced in the 16 courses before the switch. A device that came to head meanwhile switches to no schedule that its image lacks. -/
def State.swTurn (s : State) : State :=
  let left := s.get R.BOND_CRS_STAT_SW_LEFT
  let s0 := if s.crs.goDrop && s.crs.swTo.isNone then { s.setFlag R.BOND_CRS_CTRL_SW_GO false with crs := { s.crs with goDrop := false } } else s
  match s0.crs.swTo with
  | none => s0
  | some j =>
    if left = 1 && !s0.schedIn j then ({ s0 with crs := { s0.crs with swTo := none }, bond := { s0.bond with missing := none } }).set R.BOND_CRS_STAT_SW_LEFT 0
    else if left = 1 then ({ ((s0.adoptSched j).set R.BOND_CRS_STAT_SW_LEFT 0).setFlag R.BOND_CRS_CTRL_SW_GO false with crs := { s0.crs with swTo := none } }).capSwitch
    else if left = 0 then s0.set R.BOND_CRS_STAT_SW_LEFT 16
    else s0.set R.BOND_CRS_STAT_SW_LEFT (left - 1)

/-- The JOIN entry of ring `k` in the schedule in force. -/
def State.joinEntry (s : State) (k : Nat) : Option BEnt :=
  match s.bsched k with
  | some b => b.ents.find? (fun e => e.used && e.type == 7)
  | none => none

/-- A ring's own course: what the ended course left is judged and cleared (R180, R200, R206, R209, R217). -/
def State.ringTurn (s : State) (k : Nat) : State :=
  let r := s.ring k
  let synced := [r.east, r.west].filter Port.sync
  let all := !synced.isEmpty && synced.all Port.refs
  let heard := r.acc.contains 0
  let s1 := s.setRing k { r.noRefs with acc := [], bad := [], crcSeen := [], refRun := (if all then min 16 (r.refRun + 1) else 0), nodes := r.nodes.map (fun n => { n with present := n.seenNow, seenNow := false }) }
  let s2 := if s.follows && s.inserted k && !heard then s1.set (R.RING_STAT_STATE k) 6 else s1
  if s.heads then
    let w := match s.joinEntry k with
      | some e => decide (0 < s.get R.BOND_ENROL_LEFT) || s.crs.cnt % 2 ^ e.every == e.phase
      | none => false
    s2.setFlag (R.RING_STAT_JOIN_OPEN k) w
  else s2.setFlag (R.RING_STAT_JOIN_OPEN k) false

/-- A request for a live update is sampled: refused, or left pending, checked and copied into the engine's shadow areas (R107, R108). -/
def State.updSample (s : State) : State :=
  if !s.flag R.LE_UPD_CTRL_GO || s.upd.isSome then s
  else
    let a := s.get R.LE_UPD_CTRL_AXIS
    let d := (s.get R.LE_UPD_CTRL_COURSE + 65536 - s.crs.cnt % 65536) % 65536
    let no (r : Nat) : State := ((s.set R.LE_UPD_STAT_RESULT r).set R.LE_UPD_STAT_COURSE s.crs.cnt).setFlag R.LE_UPD_CTRL_GO false
    let fixed : Nat := 0xC + 1 + 0x3F * 2 ^ 16 + 2 ^ 22
    if 192 ≤ a || !(s.ax a).assigned then no rNoAxis
    else if (s.ax a).st = .disabled then no rState
    else
      match s.axSlot a with
      | none => no rNoAxis
      | some (n, sl) =>
        if d < 2 ∨ 1024 < d ∨ s.lpW (lpBlock a) 0 &&& fixed ≠ s.lpW (lpCopy n sl) 0 &&& fixed then no rParam
        else
          let ok := s.custom a || s.lpOk s.schedNums a
          { (if ok then (s.swapIn n).poke (s.lpMove (lpShadow n) (compShadow n) (lpBlock a) (s.compSlot a)) else s) with upd := some ⟨a, s.crs.cnt + d, ok⟩ }

/-- The engines at a course start: the bank of the course starts, and the busy time of the course that ended is taken (R139, R140). -/
def State.engTurn (s : State) : State :=
  (List.range 12).foldl (fun u n =>
    let v := u.resetBank n u.crs.cnt
    v.setEng n { v.eng n with busy := (v.eng n).awake, awake := 0 }) s

/-- The pair at a course start (R308, R304, R311 to R313): the holder renews and sends the copy, the other member takes what it has received. `old` is the state at the end of the course. -/
def State.pairTurn (s old : State) : State :=
  if !s.mtr.paired then s.sendCopy old
  else
    let u := ((s.conflictTick.renew).sendCopy old).takeEnd.copyCheck
    let t := (if u.flag R.MTR_STAT_IMG_DIFF then u.exclude (u.crs.cnt - 1) else u).digCompare
    let c := if t.mtr.holder then t.crs.cnt - 1 else t.crs.cnt - 2
    match t.ownDigs c with
    | some d => t.mortar (.digest c (t.sentDigs c d))
    | none => t

/-- The profile engines at a course start: a device that leads samples its command ports, and the tick of the course is to come; a standby answers its ports BAD_STATE, begins the tick of the course before (SHADOW_COURSE) and takes its snapshot of the shared masters; the PFM reads the process-point masters of the course (R49, R50, R231, R310). `old` is the state at the end of the course before. -/
def State.tickTurn (s old : State) (late : Bool) : State :=
  let t :=
    if s.shadows then
      let u := [0, 1, 2, 3].foldl (fun u n => if u.flag (R.PF_CMD_OP_GO n) then u.pfAnswer n rState else u) s
      { ((if old.crs.tick.isSome then u.shadowCourse.axisEvents u.tsPrev else u.postKept).snapMasters) with pfSampled := [] }
    else s.samplePorts
  let v := t.goodPts
  { t.serve 7 v.length with crs := { t.crs with tick := some late }, pim := { (t.serve 7 v.length).pim with prev := t.pim.start, start := v } }

/-- Profile local memory, axis records and tables that hold a poisoned word: the set-points cannot be trusted, and every enabled axis takes the reaction of a lasting lateness (R30, R405). -/
def State.poisonTurn (s : State) : State :=
  if s.tst.poison.any (fun p => p.1 == 2 || p.1 == 3 || p.1 == 6) then { s with axes := s.axes.map (fun (a, x) => if x.enabled then (a, { x with pend := x.pend ||| cPfLate }) else (a, x)) } else s

/-- The work of a course start once the counter stands; `old` is the state at the end of the course before. -/
def State.courseWork (s old : State) (late : Bool) : State :=
  let s1 := s.swTurn
  let s2 := s1.timeStep.casAlign
  let s3 := if s2.bond.stepDue then { s2.stepTime s2.bond.hofs with bond := { s2.bond with stepDue := false, hofs := 0 } } else s2
  let sm := s3.markMissing.setpMissing.presenceTurn
  let s4 := { sm with cas := { sm.cas with seen := none, acted := [] }, crs := { sm.crs with fbSeen := [] } }
  let s5 := { s4 with mtr := { s4.mtr with lossPrev := old.lossSets } }
  let s6 := s5.ringsEn.foldl State.ringTurn s5
  let s8 := ((s6.pairTurn old).setFlag R.SCH_EVT_COURSE true).poisonTurn.capSample.updSample
  let s9 := (s8.tickTurn old late).capInForce
  let s10 := State.deviceGo 256 s9.engTurn.pimCourse.jRelease
  let s11 := if s10.heads || s10.get R.BOND_START_STATE == 2 then
      s10.ringsEn.foldl (fun u k => if u.inserted k then (u.references k).foldl State.emit u else u) s10
    else s10
  s11.sendMark

/-- COURSE_START (R23): the profile tick of the course that ends is made up for where it has not run. It acts in RUN and SAFE_HOLD once the device heads, follows or starts its rings. The counter advances by one; a device that goes silent, or that stops following, begins no course; the latter's counter goes on. -/
def State.courseStart (s : State) (late : Bool) : State :=
  if !s.inCourses || s.get R.BOND_START_STATE < 2 then (if s.inCourses && s.bond.coast then s.coastOn else s)
  else
    let e := if s.shadows then s.shadowRest.axisEvents s.tsPrev else s.tickDue
    let a := (e.set R.BOND_ENROL_LEFT (e.get R.BOND_ENROL_LEFT - 1)).headTurn
    if a.get R.BOND_START_STATE = 1 then { a with crs := { a.crs with tick := none } }
    else if a.follows && a.bond.missing.isSome && a.get R.BOND_CRS_STAT_SW_LEFT == 1 then a.stopFollowing.coastOn
    else
      let b := a.capPushAll
      let start := b.crs.start + b.get R.BOND_CRS_PERIOD_PERIOD_NS
      let c := { b with crs := { b.crs with cnt := (b.crs.cnt + 1) % 2 ^ 64, start := start, tick := some late }, now := max b.now start }
      c.courseWork e late

/-! Instants within the course. -/

/-- SAMPLE_INSTANT (R23, R154): every stepper channel latches its position and its pins, three bits of `pins` per channel (LP, LN, HM). -/
def State.sampleInstant (s : State) (pins : Nat) : State :=
  let t := { s with now := max s.now s.tsNow }
  (t.chanNums.foldl (fun u n => u.chanSample n (bits pins (3 * n) 3)) t).capInstant

/-- The actuation instant of the present course. -/
def State.taNow (s : State) : Nat := s.crs.start + s.get R.BOND_CRS_TA_TA_NS

/-- ACTUATION_INSTANT (R154): the profile tick has run by then (R23); every generator ends one interpolation and starts the next. -/
def State.actuationInstant (s0 : State) : State :=
  let s := s0.tickDue
  let t := { s with now := max s.now s.taNow, crs := { s.crs with actAt := s.taNow } }
  t.chanNums.foldl State.chanActuate t

/-- The start of the sync gap of the present course. -/
def State.gapNow (s : State) : Nat :=
  s.crs.start + (match s.crs.scheds.getD (s.get R.BOND_CRS_STAT_SCHED_CUR) none with | some d => d.gap | none => 0)

/-- The responses of R197 leave 16 byte times into the sync gap; the cascade's gap is the last 0.5 µs of the course (R348). -/
def State.gapAnswers (s : State) : State :=
  let at_ (k : Nat) : Nat := s.gapNow + s.bt16 k 16 / 16
  let t := s.ringsEn.foldl (fun u k => let r := u.ltAnswers k (at_ k); r.2.foldl State.emit r.1) s
  t.casAnswers (s.crsEnd - 500 + 32)

/-- SYNC_GAP_START (R30): after the profile tick of the course, missing set-points are substituted, with PF_LATE, the count, and in a second course running the cause PF_LATE on every enabled axis. A standby does not judge it (R310). -/
def State.syncGap (s0 : State) : State :=
  let s := s0.tickDue
  let t := { s with now := max s.now s.gapNow }
  let w := t.substAll
  let t1 :=
    if t.shadows || (w.isEmpty && !t.crs.late) then t
    else
      let again := match t.crs.pfLate with | some c => c + 1 == t.crs.cnt | none => false
      let u := (((t.poke w).setFlag R.BOND_CRS_STAT_PF_LATE true).count R.BOND_PF_LATE_CNT_COUNT)
      let v := { u with crs := { u.crs with pfLate := some u.crs.cnt, late := false } }
      if again then { v with axes := v.axes.map (fun (a, x) => if x.enabled then (a, { x with pend := x.pend ||| cPfLate }) else (a, x)) } else v
  t1.gapAnswers

/-- FEEDBACK_MISSING (R28): unless the feedback of the course has landed, the area holds the last record with this course's number and sample instant, and the event is posted. -/
def State.feedbackMissing (s : State) (a : Nat) : State :=
  match s.axSlot a with
  | none => s
  | some (n, sl) =>
    let b := fbArea n sl s.crs.cnt
    if s.crs.fbSeen.contains a then s
    else
      let last := s.load (fbArea n sl (s.crs.cnt + 1)) 20
      (({ s with crs := { s.crs with fbSeen := a :: s.crs.fbSeen } }).poke (cells b last 20 ++ cells (b + 20) s.crs.cnt 4 ++ cells (b + 24) s.tsNow 8)).loopEv n ⟨sl, true, a, s.crs.cnt, s.get R.BOND_CRS_STAT_SCHED_CUR, s.fbEndNow⟩

/-! Start-up. -/

/-- The silent courses that a candidate waits for (R201, R202). -/
def State.needQuiet (s : State) : Nat := if s.flag R.BOND_START_WAIT256 then 256 else 4 + 2 * s.get R.BOND_START_RANK

/-- The rings are started: inserted at the edge of a gap, silent for 500 ns, with course 0 to follow (R180, R202). -/
def State.startRings (s : State) : State :=
  let t := s.ringsEn.foldl (fun u k => (u.setFlag (R.RING_STAT_BYP k) true).setRing k { u.ring k with quiet := true, leave := false, retE := false, retW := false }) ((s.set R.BOND_START_STATE 2).setRingStates 3)
  { t with bond := { t.bond with startDue := true, clean := true, held := 0 } }

/-- STARTUP_LISTEN_PERIOD (R201, R202): one period of schedule 0 of listening ends. A device that went silent inserted and now follows steps its time at the next course start, as one that inserts does (R196). -/
def State.listenPeriod (s : State) : State :=
  if !(s.dev == .run || s.dev == .safeHold) || s.get R.BOND_START_STATE ≠ 1 then s
  else if s.bond.heardRef && s.schedIn (s.get R.BOND_CRS_STAT_SCHED_CUR) then
    let t := ((s.set R.BOND_START_STATE 4).setFlag R.BOND_START_WAIT256 false).setFlag R.BOND_START_HELD64 false
    let in_ := s.ringsEn.any (fun k => s.inserted k && !(s.ring k).leave)
    { t with bond := { t.bond with heardRef := false, heardAny := false, held := 0, coast := false, stepDue := t.bond.stepDue || in_ } }
  else
    let q := if s.bond.heardAny then 0 else min 65535 (s.get R.BOND_START_QUIET + 1)
    let h := s.bond.held - 1
    let u := s.ringsEn.foldl (fun u k => u.setRing k { u.ring k with crcSeen := [] }) ((s.set R.BOND_START_QUIET q).setFlag R.BOND_START_HELD64 (decide (0 < h)))
    let t := { u with bond := { s.bond with held := h, heardRef := false, heardAny := false } }
    if q < t.needQuiet || (s.get R.BOND_START_RANK != 0 && decide (0 < h)) || !s.flag R.BOND_START_CAND then t
    else
      let u := if t.mayTakeKeystone then t.takeKeystone else t
      if u.mtr.paired && !u.mtr.holder then (if u.linkUp then t.beginListen else t) else (u.setFlag R.BOND_START_WAIT256 false).startRings

/-- RING_INSERT (R180): a follower inserts after 16 courses with references on every synchronised port; with its first ring it steps its time at the next course start (R196). -/
def State.ringInsert (s : State) (k : Nat) : State :=
  if !(s.dev == .run || s.dev == .safeHold) || !s.ringEn k || s.inserted k || !s.follows || (s.ring k).refRun < 16 then s
  else
    let first := !(s.ringsEn.any s.inserted)
    let t := ((s.setFlag (R.RING_STAT_BYP k) true).set (R.RING_STAT_STATE k) 5).setRing k { s.ring k with quiet := true }
    if first then { t with bond := { t.bond with stepDue := true } } else t

/-- INSERT_QUIET_END (R180): own bricks may leave again; a device that starts its rings begins course 0 of schedule 0 (R202). -/
def State.quietEnd (s : State) : State :=
  let t := s.ringsEn.foldl (fun u k => u.setRing k { u.ring k with quiet := false }) s
  if !t.bond.startDue then t
  else
    let u := { t.adoptSched 0 with bond := { t.bond with startDue := false, clean := true } }
    let v := { u.set R.BOND_CRS_STAT_SW_LEFT 0 with crs := { u.crs with cnt := 0, start := u.now, swTo := none } }
    v.courseWork s false

/-! Meanings. -/

/-- The device stands in STANDBY: the rings and the cascade that the image enables are bypassed (R5, R217). -/
def State.bypassed (s : State) : State :=
  let t := s.ringsEn.foldl (fun u k => ((u.setFlag (R.RING_STAT_BYP k) false).setFlag (R.RING_STAT_JOIN_OPEN k) false).setRing k { u.ring k with acc := [], bad := [], crcSeen := [], refRun := 0, quiet := false, leave := false }) s
  let u := (t.setRingStates 1).updCas (fun c => { c with run := 0, due := false, mark := none, seen := none, miss := 0, heard := 0, mq := [] })
  if u.casEn then ((u.set R.CAS_STAT_STATE 1).setFlag R.CAS_STAT_BYP false).setFlag R.CAS_STAT_ALIGNED false else u

/-- Courses end: rings and cascade are left, nothing is headed or followed. -/
def State.endCourses (s : State) : State :=
  let t := ((s.bypassed.set R.BOND_START_STATE 0).set R.BOND_START_QUIET 0).setFlag R.BOND_START_WAIT256 false
  let u := (((t.setFlag R.BOND_START_HELD64 false).set R.BOND_ENROL_LEFT 0).set R.BOND_CRS_STAT_SW_LEFT 0).setFlag R.BOND_CRS_CTRL_SW_GO false
  { u with crs := { u.crs with swTo := none, goDrop := false, tick := none, late := false, fbSeen := [] }, bond := Bond.init }

/-- GO_STANDBY is allowed: only while every axis is DISABLED (R397). -/
def State.mayStandby (s : State) : Bool := s.dev == .run && s.axes.all (fun x => !x.2.enabled)

/-- STANDBY is entered: engines halt as under HALT_REQ (R122). -/
def State.standbyNow (s : State) : State := State.repin ((List.range 12).foldl State.engHaltReq ({ s with dev := .standby, mtr := s.mtr.unready }).endCourses) s

/-- GO_STANDBY: a device that is part of a ring or the cascade leaves it at the next sync gap (R180), and the request reads 1 until then. -/
def State.goStandby (s : State) : State :=
  if !s.mayStandby then s.reqErr
  else if s.casIn || s.ringsEn.any s.inserted then s.setFlag R.PWR_CTRL_GO_STANDBY true
  else s.standbyNow

/-- What leaves at the first code group of a sync gap (R180): a ring that the device has stopped following, or, if GO_STANDBY is still allowed, all of them. -/
def State.gapLeave (s : State) : State :=
  let t := s.ringsEn.foldl (fun u k => if (u.ring k).leave then (u.setFlag (R.RING_STAT_BYP k) false).setRing k { u.ring k with leave := false } else u) s
  if !t.flag R.PWR_CTRL_GO_STANDBY then t
  else
    let u := t.setFlag R.PWR_CTRL_GO_STANDBY false
    if u.mayStandby then u.standbyNow else u.reqErr

/-- What a course start can change. The queue of commands, the device state's other parts and the island's inputs are the command's own. -/
def crsDo (t s : State) : Host.Outcome State Fault Refusal := .next { t with bus := .none, pending := s.pending, jtag := s.jtag, rstLow := s.rstLow }

/-- COURSE_START: `late` says that the profile engines do not finish the set-points by the sync gap (R30). -/
def execCourseStart (late : Bool) (s : State) : Host.Outcome State Fault Refusal := crsDo (s.quiet.courseStart late) s

/-- SAMPLE_INSTANT. -/
def execSampleInstant (pins : BitVec 144) (s : State) : Host.Outcome State Fault Refusal :=
  let t := s.quiet.sampleInstant pins.toNat
  .next { s with now := t.now, chans := t.chans, axes := t.axes, flds := t.flds, cap := t.cap, bus := .none, outs := t.outs }

/-- ACTUATION_INSTANT. -/
def execActuationInstant (s : State) : Host.Outcome State Fault Refusal :=
  let t := s.quiet.actuationInstant
  .next (t.tickPart s)

/-- SYNC_GAP_START: what is due at the gap of the course that runs, then what leaves the rings. -/
def execSyncGapStart (s : State) : Host.Outcome State Fault Refusal :=
  crsDo s.quiet.syncGap.gapLeave s

/-- FEEDBACK_MISSING of an axis. -/
def execFeedbackMissing (a : Fin 192) (s : State) : Host.Outcome State Fault Refusal :=
  let t := s.quiet.feedbackMissing a
  .next { s with engs := t.engs, mtr := t.mtr, crs := t.crs, mem := t.mem, tst := t.tst, flds := t.flds, bus := .none, outs := [] }

/-- What the start-up of the rings can change. -/
def startDo (t s : State) : Host.Outcome State Fault Refusal :=
  .next { s with bond := t.bond, crs := t.crs, rings := t.rings, mtr := t.mtr, isl := t.isl, chans := t.chans, axes := t.axes, flds := t.flds, bus := .none, outs := t.outs }

/-- STARTUP_LISTEN_PERIOD. -/
def execStartupListenPeriod (s : State) : Host.Outcome State Fault Refusal := startDo s.quiet.listenPeriod s

/-- RING_INSERT. -/
def execRingInsert (k : Fin 4) (s : State) : Host.Outcome State Fault Refusal := startDo (s.quiet.ringInsert k) s

/-- INSERT_QUIET_END. -/
def execInsertQuietEnd (s : State) : Host.Outcome State Fault Refusal := crsDo s.quiet.quietEnd s

/-- ENROL_PHASE_END: the last course of the phase ends (R209). -/
def execEnrolPhaseEnd (s : State) : Host.Outcome State Fault Refusal :=
  startDo (if s.get R.BOND_ENROL_LEFT ≤ 1 then s.quiet.set R.BOND_ENROL_LEFT 0 else s.quiet) s

end Sys2Proof.Machine
end

