-- ==== Sys2Proof/Machine/LoopRun.lean ====
section
/-! DEFINITION. The standard loop program on its engine, the loop-law causes, live updates, and conversions of the monitoring ADCs (R85, R96 to R99, R102, R107, R108, R162). -/
namespace Sys2Proof.Machine

/-- A loop-law cause is latched for an axis: the profile engines judge it at their next tick (R102). -/
def State.loopCause (s : State) (a causes : Nat) : State :=
  if causes = 0 then s
  else (s.setAx a { s.ax a with pend := (s.ax a).pend ||| causes }).orFld (R.LE_LOOPFLT_LOOPFLT (a / 32)) (2 ^ (a % 32))

/-- The words that a course of the standard loop program reads: its feedback and set-point records, the fields and tables of its parameter copy with the filter sets of its schedule, and the compensation tables in use (R85 to R95). -/
def State.loopReads (s : State) (n : Nat) (v : Ev) : List (Nat × Nat) :=
  let lp := lpCopy n v.slot
  let comp := compCopy n (s.ctIndex (s.eng n).axes v.slot)
  let cfg := s.lpW lp 0
  [(fbArea n v.slot v.crs, 32), (spArea n v.slot v.crs, 28), (lp, 96), (lp + 256, 132), (lp + 512, 132)] ++
  ((List.range 4).filter (fun f => bqPlace cfg f != 0)).map (fun f => (lp + 768 + (4 * v.sched + f) * 20, 20)) ++
  (if bit cfg 4 then [(comp, 0x1000)] else []) ++ (if bit cfg 5 then [(comp + 0x1000, 0x400)] else [])

/-- The standard loop program runs event `v` of engine `n` (R85, R106, R125, R139, R141); the cycles it takes are free within its worst case (R110). -/
def State.runLoop (s : State) (n : Nat) (v : Ev) : State :=
  let lp := lpCopy n v.slot
  let comp := compCopy n (s.ctIndex (s.eng n).axes v.slot)
  let o := s.law lp comp (s.loop v.axis) (s.loopIn n v)
  let d := s.draw (lpCycles (s.lpW lp 0) + 1)
  let cyc := d.1
  let words := [o.tq, b2n o.en, 0, 0]
  let stg := leData n + v.slot * 0x100 + 0x80
  let s1 := (d.2.setLoop v.axis { o.loop with cycMax := max cyc o.loop.cycMax }).poke
    ((words.zipIdx.flatMap (fun (w, i) => cells (stg + 4 * i) w 4)) ++ o.record v.crs cyc (axBlock v.axis + 0xF00))
  let e := s1.eng n
  let e1 := (words ++ o.loop.foldWords).foldl (fun u w => u.fold v w) { e with cur := some v, sf := (e.sf &&& 0x78) ||| o.flags, cyc := cyc, awake := e.awake + cyc }
  let s2 := ((s1.setEng n (e1.publish v words)).orFld (R.LE_ENG_FLAGS_FLAGS n) o.flags).loopCause v.axis o.causes
  let s3 := if o.nonfin then s2.count R.LE_NONFIN_CNT_COUNT else s2
  if v.missing then s3.count R.LE_HELD_CNT_COUNT else s3

/-- AXIS_LOOP: a running engine of the standard program is at EVWAIT, where it halts if HALT_REQ stands and else serves its oldest event or sleeps (R26, R83, R122, R123). A poisoned word that the loop reads is error 6 (R126). A late loop of a course before a live update still runs on the parameters of its course (R104, R108). -/
def State.axisLoop (s : State) (n : Nat) : State :=
  let e := s.eng n
  if e.st ≠ .running ∨ e.axes.any s.custom then s
  else if e.haltReq then s.engHalt n
  else
    match e.queue with
    | [] => s.setEng n { e with asleep := true }
    | v :: rest =>
      let s0 := s.setEng n { e with queue := rest, asleep := false, cur := some v }
      let s1 := if (Store.get (0, []) e.kept v.slot).1 ≤ v.crs then s0.takeKept n v.slot else s0
      let s2 := match e.swap with
        | some (sl, c) => if sl = v.slot ∧ c ≤ v.crs then s1.swapIn n else s1
        | none => s1
      if (s2.loopReads n v).any (fun p => s2.poisoned p.1 p.2) then s2.leError n 6 none
      else
        let t := (s2.runLoop n v).takeKept n v.slot
        t.setEng n { t.eng n with asleep := rest.isEmpty }

/-- FOLLOWING_ERROR_LIMIT and VELOCITY_ERROR_LIMIT: the count of the monitor has reached its limit (R96, R97). -/
def State.monitorLimit (s : State) (a : Nat) (vel : Bool) : State :=
  match s.axSlot a with
  | none => s
  | some (n, sl) =>
    let l := s.loop a
    let lim := s.load (lpCopy n sl + (if vel then 57 else 56)) 1
    if l.enabled && decide (lim ≤ (if vel then l.veRun else l.feRun)) && decide (0 < lim) then
      ((s.loopCause a cFollow).setLoop a { l with detail := if vel then 4 else 3 }).store (axBlock a + 0xF00) (if vel then 4 else 3) 1
    else s

/-- FEEDBACK_LOST: the third held course in a row of an enabled axis (R102, R103). -/
def State.feedbackLost (s : State) (a : Nat) : State :=
  let l := s.loop a
  if l.enabled && decide (3 ≤ l.heldRun) then
    ((s.loopCause a (cFbLost ||| cDrive)).setLoop a { l with detail := 6 }).store (axBlock a + 0xF00) 6 1
  else s

/-- LIVE_UPDATE_REQUEST: the axis and the target course are written with GO; while a request is pending the write changes nothing and sets UPD_ERR (R107, R112). -/
def State.updRequest (s : State) (axis course : Nat) : State :=
  if s.flag R.LE_UPD_CTRL_GO then s.setFlag R.LE_UPD_STAT_UPD_ERR true
  else ((s.set R.LE_UPD_CTRL_AXIS axis).set R.LE_UPD_CTRL_COURSE course).setFlag R.LE_UPD_CTRL_GO true

/-- LIVE_UPDATE_APPLY at the start of the target course: the checked parameters replace the active ones in one step, and PARAM_NEW stands in the set-point record of the course; or the check has failed (R94, R108, R118). A loop of an earlier course that is still queued keeps the old parameters until it has run (R104). -/
def State.updApply (s : State) : State :=
  match s.upd with
  | none => s
  | some u =>
    if u.crs ≠ s.crs.cnt then s
    else
      let fin (t : State) (r : Nat) : State := ((({ t with upd := none }).set R.LE_UPD_STAT_RESULT r).set R.LE_UPD_STAT_COURSE s.crs.cnt).setFlag R.LE_UPD_CTRL_GO false
      match s.axSlot u.axis with
      | none => fin s rParam
      | some (n, sl) =>
        if u.ok then
          let e := s.eng n
          let s1 := s.setEng n { e with swap := some (sl, u.crs) }
          let s2 := if !s.custom u.axis && e.queue.any (fun v => v.slot == sl && decide (v.crs < u.crs)) then s1 else s1.swapIn n
          let x := s2.ax u.axis
          -- the record of the course stands already, but for a standby that lags (R310)
          fin (if x.crsLo = u.crs % 2 ^ 32 then s2.store (spArea n sl u.crs + 20) (s2.load (spArea n sl u.crs + 20) 4 ||| 4) 4
            else s2.setAx u.axis { x with paramNew := true }) 0
        else fin s rParam

/-- ADC_CONVERSION of phase `second` of channel `n`, whose sample-and-hold closed at device time `t`: the adaptation and VALLEY, and the conversions that a capture set awaits (R160, R162, R243, R247). -/
def State.adcDone (s : State) (n : Nat) (second : Bool) (code t : Nat) : State :=
  let i := 2 * n + b2n second
  let takes (f : CCh → Bool) : Bool := (List.range 8).any (fun m => (s.cset m).open_ && (s.cset m).chans.any (fun x => x.kind == 3 && f x))
  let want := takes (fun x => x.item == i)
  let s1 := s.adcConversion n second code
  -- leftover conversions of an ADC serve captured inputs alone, and the VALLEY of its others stands (R247)
  if !want && takes (fun x => x.item / 8 == i / 8) && !((s.chan n).ph second).held then s
  else if want then
    let v := s1.get (if second then R.STP_MON_VALLEY_B n else R.STP_MON_VALLEY_A n)
    { s1 with cap := { s1.cap with convs := (i, t, adcVolts v) :: s1.cap.convs } }
  else s1

/-- What a run of the loop program can change. -/
def loopDo (t s : State) : Host.Outcome State Fault Refusal :=
  .next { s with axes := t.axes, loops := t.loops, upd := t.upd, engs := t.engs, mem := t.mem, tst := t.tst, free := t.free, flds := t.flds, bus := .none, outs := [] }

/-- AXIS_LOOP on engine `n`. -/
def execAxisLoop (n : Fin 12) (s : State) : Host.Outcome State Fault Refusal := loopDo (s.quiet.axisLoop n) s

/-- FOLLOWING_ERROR_LIMIT. -/
def execFollowingErrorLimit (a : Fin 192) (s : State) : Host.Outcome State Fault Refusal := loopDo (s.quiet.monitorLimit a false) s

/-- VELOCITY_ERROR_LIMIT. -/
def execVelocityErrorLimit (a : Fin 192) (s : State) : Host.Outcome State Fault Refusal := loopDo (s.quiet.monitorLimit a true) s

/-- FEEDBACK_LOST. -/
def execFeedbackLost (a : Fin 192) (s : State) : Host.Outcome State Fault Refusal := loopDo (s.quiet.feedbackLost a) s

/-- LIVE_UPDATE_REQUEST. -/
def execLiveUpdateRequest (axis : BitVec 8) (course : BitVec 16) (s : State) : Host.Outcome State Fault Refusal :=
  s.atReg (0x800910C0) (loopDo (s.quiet.updRequest axis.toNat course.toNat) s)

/-- LIVE_UPDATE_APPLY. -/
def execLiveUpdateApply (s : State) : Host.Outcome State Fault Refusal := loopDo s.quiet.updApply s

/-- ADC_CONVERSION. -/
def execAdcConversion (n : Fin 48) (b : Bool) (code : BitVec 12) (t : Nat) (s : State) : Host.Outcome State Fault Refusal :=
  let u := s.quiet.adcDone n b code.toNat t
  .next { s with chans := u.chans, axes := u.axes, cap := u.cap, flds := u.flds, bus := .none, outs := [] }

end Sys2Proof.Machine
end

