-- ==== Sys2Proof/Machine/Power.lean ====
section
/-! DEFINITION. Clocks, clock gates, power domains, device states and resets (R388 to R403, R428). -/
namespace Sys2Proof.Machine

/-! What a domain reset leaves (R15, R396). -/

/-- Fields that no reset but power-on changes although their block is reset: those in retention registers (R327), the straps (R426), which every release samples again, the fuses (R419), and the boot chain's, which start-up clears (R358; log entry 61). -/
def keptKeys : List Nat :=
  [R.MTR_EPOCH_EPOCH.key, R.MTR_SO_CNT_CLAIMS.key, R.MTR_SO_CNT_RELEASES.key, R.MTR_STAT_MEMBER.key, R.CAS_CFG_ROOT.key, R.HST_STAT_ACTIVE.key, R.NVM_FUSE_LOCK.key, R.CAS_BOOT_ROLE.key, R.CAS_BOOT_CHAIN_POS.key, R.CAS_BOOT_COUNT.key, R.CAS_BOOT_FAIL.key] ++
  (List.range 8).map (fun i => (R.NVM_FUSE_HASH_HASH i).key)

/-- The pair's logic after reset of PD11: identity from the image is gone until it is loaded, the level of PEER_ACT stands; the fence timer lies in PD0 and counts on, and the journal lies in PD2 (R18). A member that is not HOLDER drives PAIR_ACT low (R300). -/
def Mtr.fresh (m : Mtr) : Mtr := { Mtr.init with peerAct := m.peerAct, fence := m.fence, jnl := m.jnl }

/-- The domain of a poisoned word (R18, R405): of the two network buffers of 256 KiB, PD7's holds the offsets below 0x40000 and PD8's those from there (DESIGN CHOICE, log entry 92). -/
def poisonDom (p : Nat × Nat) : Nat := if p.1 = 6 then 5 else if p.1 = 8 then (if p.2 < 0x40000 then 7 else 8) else memDom p.2

/-- The registers of a domain at their reset values (R15). A reset does not clear memory (R114). -/
def State.domClear (s : State) (d : Nat) : State :=
  { s with flds := s.flds.filter (fun p => blockDom (p.1 / 32) != d || keptKeys.contains p.1) }

/-- The memories of a domain lose their contents with its power, and read zero with valid ECC when it has powered up again; the journal goes with PD2 (R396). -/
def State.memGone (s : State) (d : Nat) : State :=
  { s with
    mtr := if d = 2 then { s.mtr with jnl := Jnl.init } else s.mtr,
    mem := s.mem.filter (fun p => memDom p.1 != d),
    tst := { s.tst with poison := s.tst.poison.filter (fun p => poisonDom p != d) } }

/-- The loop state in the local memories of engines `n` to `n + 5` is gone (R18). -/
def State.dropLoops (s : State) (n : Nat) : State :=
  { s with loops := s.loops.filter (fun p => !((List.range 6).any (fun i => (s.eng (n + i)).axes.contains p.1))) }

/-- A domain in reset: its blocks hold their reset values, and its memories stand (R15, R114). -/
def State.domReset (s : State) (d : Nat) : State :=
  let t := s.domClear d
  match d with
  | 1 => { t with isl := Isl.init none }
  | 2 => ({ t with cores := [], sch := Sch.init, dma := [], dmaTurn := [31, 31, 31, 31], tim := Tim.init, tst := { Tst.init with poison := t.tst.poison }, now := 0, crs := { t.crs with actAt := 0 } }).setFlag R.TIM_STAT_DEGRADED (bit (s.get R.CLK_FAIL_SRC_FAILED) 0)
  | 3 => { t.dropLoops 0 with engs := t.engs.filter (fun p => decide (6 ≤ p.1)), upd := none }
  | 4 => { t.dropLoops 6 with engs := t.engs.filter (fun p => decide (p.1 < 6)) }
  | 5 => { t with axes := [], grps := [], pfSampled := [], pfAns := 0 }
  | 6 => { t with chans := t.chans.foldl (fun l p => Store.put Chan.init l p.1 p.2.pinsOnly) [] }
  | 7 => { t with rings := t.rings.filter (fun p => decide (2 ≤ p.1)), bond := Bond.init, crs := ⟨0, 0, 0, none, false, none, [none, none, none, none], [], none, false, []⟩ }
  | 8 => { t with rings := t.rings.filter (fun p => decide (p.1 < 2)) }
  | 9 => { t with pim := Pim.init }
  | 10 => { t with cap := { Cap.init with pins := t.cap.pins } }
  | 11 => { t with mtr := t.mtr.fresh, hst := Hst.init, cas := Cas.init }
  | _ => t

/-- The domains but PD0. -/
def allDoms : List Nat := [1, 2, 3, 4, 5, 6, 7, 8, 9, 10, 11]

/-- A domain without power, or freshly powered (R396). -/
def State.domOff (s : State) (d : Nat) : State := (s.memGone d).domReset d

/-- A domain is powered down (R396). -/
def State.domDown (s : State) (d : Nat) : State :=
  (s.domOff d).set R.PWR_DOM_ON (setBit (s.get R.PWR_DOM_ON) d false)

/-- Insert a domain in the order in which domains power up: PD2 first, then ascending (R396). -/
def riseOrder (l : List Nat) : List Nat := if l.contains 2 then 2 :: l.filter (· != 2) else l

/-- Domains begin to power up. -/
def State.domRise (s : State) (ds : List Nat) : State :=
  let l := allDoms.filter (fun d => (ds.contains d || s.pwr.rising.contains d) && !s.domUp d)
  { s with pwr := { s.pwr with rising := riseOrder l } }

/-! Boot and the empty machine. -/

/-- Start-up zeroes the memories, but for the journal, whose entries are each checked (R321, R396). -/
def State.memStart (s : State) : State :=
  { s.jScan with mem := [], tst := { s.tst with poison := s.tst.poison.filter (fun p => p.1 == 7) } }

/-- Start-up begins: nothing of the image is loaded, and PD2 powers up unless it is powered (R396, R403). -/
def State.bootBegin (s : State) : State :=
  let t : State := { s.memStart with dev := .boot, boot := { Boot.init with protect := s.boot.protect }, chain := ⟨[], none, false⟩, holdBy := [] }
  (([R.CAS_BOOT_ROLE, R.CAS_BOOT_CHAIN_POS, R.CAS_BOOT_COUNT, R.CAS_BOOT_FAIL].foldl (fun u f => u.set f 0) t).setFlag R.PWR_STAT_BOOT_ERR false).domRise [2]

/-! Resets (R398 to R400). -/

/-- The cause bit of a source. -/
def RstCause.fld : RstCause → Fld
  | .por => R.PWR_RST_CAUSE_POR
  | .pin => R.PWR_RST_CAUSE_PIN
  | .sw => R.PWR_RST_CAUSE_SW
  | .wdt => R.PWR_RST_CAUSE_WDT
  | .clock => R.PWR_RST_CAUSE_CLOCK

/-- What PD0 does within 1 µs of reset entry (R399): the fence is forced expired and PAIR_ACT falls, every bypass pin goes low, SO, KO and TP are off. -/
def State.pdOut (s : State) : State :=
  let t := s.letGo
  let t1 := { t with mtr := { t.mtr with pairAct := false, probing := false, fence := 0 } }
  ([0, 1, 2, 3].foldl (fun u k => u.setFlag (R.RING_STAT_BYP k) false) t1).emit (.safetyPins 0 0 0)

/-- A warm reset is entered (R389, R398): every domain but PD0 is reset, the journal kept with its uncommitted results dropped (R325, R396), and HSX and IRC are tried again: time runs from IRC, DEGRADED, only once HSX has failed again (R338, R391). -/
def State.enterReset (s : State) (c : RstCause) : State :=
  if s.dev = .off then s
  else
    let s1 := s.pdOut
    let f := s1.get R.CLK_FAIL_SRC_FAILED
    let s2 := allDoms.foldl State.domReset s1
    let s3 := { s2 with dev := .reset, mtr := { s2.mtr with jnl := s1.mtr.jnl.revert }, pwr := { s2.pwr with wdtOn := false, key := false, fed := false, cause := some c, muxFast := false } }
    let s4 := (s3.setFlag c.fld true).count R.PWR_RST_CNT_WARM
    let s5 := s4.set R.CLK_FAIL_SRC_FAILED (f &&& 10)
    let s6 := (if bit f 2 then s5.setFlag R.CLK_STAT_IRC_OK true else s5).setFlag R.TIM_STAT_DEGRADED false
    [R.PWR_CTRL_GO_RUN, R.PWR_CTRL_GO_STANDBY, R.PWR_CTRL_GO_WATCH].foldl (fun u g => u.setFlag g false) s6

/-- RESET_n is low past its filter (R400). -/
def State.pinLow (s : State) : State := if s.dev = .off ∨ s.rstLow = true then s else (s.enterReset .pin).resetPin true

/-- Straps are sampled (R426): PAIR_ID (true for B) and CASC_ROOT. -/
def State.straps (s : State) (b root : Bool) : State :=
  ((s.setFlag R.MTR_STAT_MEMBER b).setFlag R.CAS_CFG_ROOT root).setFlag R.HST_STAT_ACTIVE root

/-- Reset is released (R399, R400, R403). A reset of the pin ends with the pin's rise, and the hold is measured; a reset with cause CLOCK is held until HSX is stable. Straps are sampled, start-up begins, and a powered PD1 leaves reset (R271). -/
def State.resetRelease (s : State) (hold : Nat) (b root : Bool) : State :=
  if s.dev ≠ .reset ∨ (s.pwr.cause = some .clock ∧ s.flag R.CLK_STAT_HSX_OK = false) then s
  else
    let s1 := if s.rstLow then ((s.resetPin false).set R.PWR_RST_CAUSE_HOLD_T (min hold 65535)).setFlag R.PWR_RST_CAUSE_RESET_HELD_LONG (decide (1000 ≤ hold) || s.flag R.PWR_RST_CAUSE_RESET_HELD_LONG) else s
    let t := (({ s1 with pwr := { s1.pwr with cause := none } }).straps b root).bootBegin
    if t.domUp 1 then t.islReset else t

/-- The machine without power; the fuses, the pins' levels and what waits to happen stay. -/
def State.dead (s : State) : State :=
  let t := allDoms.foldl State.domOff s
  let fuses := s.flds.filter (fun p => (R.NVM_FUSE_LOCK.key :: (List.range 8).map (fun i => (R.NVM_FUSE_HASH_HASH i).key)).contains p.1)
  { t with dev := .off, flds := fuses, mtr := { Mtr.init with peerAct := s.mtr.peerAct }, pwr := Pwr.init, tst := Tst.init, boot := Boot.init, holdBy := [], jtag := Jtag.init }

/-- VSUP_FAIL (R395): power-on reset is entered. -/
def State.vsupFail (s : State) : State := if s.dev = .off then s else s.pdOut.dead

/-- POWER_ON (R395, R403): power-on reset is released; PD0 runs on LRC and IRC, and PD2 powers up. -/
def State.powerOn (s : State) (b root : Bool) : State := if s.dev = .off then (s.straps b root).bootBegin else s

/-! Clock sources (R388 to R392). -/

/-- The loss of HSX (R391): every lane stops, the device enters SAFE_HOLD, the fence expires, and the island enters ISL_FAULT with code 3. A HOLDER's axes take their SAFE_HOLD reaction although it gives up the keystone. -/
def State.hsxLoss (s : State) : State :=
  let s1 := s.setFlag R.TIM_STAT_DEGRADED true
  let s2 := [0, 1, 2, 3].foldl (fun u k => (u.lnkDown (.ring k false)).lnkDown (.ring k true)) s1
  let s3 := (s2.lnkDown (.cas false)).lnkDown (.cas true)
  let s4 := if s3.linkUp then s3.mortarDown else s3
  let s5 := (s4.setFlag R.HST_STAT_SGMII_SYNC false).linkJudge
  let s6 := (s5.safeHold .hsx).letGo
  if s6.islSt = 1 ∨ s6.islSt = 2 then s6.islFault 3 else s6

/-- The fast trees move to IRC; the mux waits if HSX has stopped (R392). -/
def State.fastToIrc (s : State) (stopped : Bool) : State :=
  if stopped then { s with pwr := { s.pwr with muxFast := true } } else s.setFlag R.CLK_STAT_FAST_SRC true

/-- The always-on tree moves to LRC. -/
def State.aoToLrc (s : State) (stopped : Bool) : State :=
  if stopped then { s with pwr := { s.pwr with muxAo := true } } else s.setFlag R.CLK_STAT_AO_SRC true

/-- Source `i` (0 HSX, 1 LSX, 2 IRC, 3 LRC) is marked failed by a monitor. -/
def State.srcFail (s : State) (i : Nat) (ok : Fld) : State :=
  ((s.setFlag R.CLK_STAT_CLK_FAIL true).orFld R.CLK_FAIL_SRC_FAILED (2 ^ i)).setFlag ok false

/-- HSX and IRC have both failed: reset with cause CLOCK (R391). -/
def State.bothLost (s : State) : State :=
  if bit (s.get R.CLK_FAIL_SRC_FAILED) 0 && bit (s.get R.CLK_FAIL_SRC_FAILED) 2 && s.dev != .reset then s.enterReset .clock else s

/-- OSCILLATOR_STABLE (R389): HSX, with the ratio learned, or LSX. A source marked failed is not taken back into use. -/
def State.oscStable (s : State) (lsx : Bool) (ratio : Nat) : State :=
  if s.dev = .off then s
  else if lsx then
    if bit (s.get R.CLK_FAIL_SRC_FAILED) 1 then s else (s.setFlag R.CLK_STAT_LSX_OK true).setFlag R.CLK_STAT_AO_SRC false
  else if bit (s.get R.CLK_FAIL_SRC_FAILED) 0 then s
  else ((((s.setFlag R.CLK_STAT_HSX_OK true).setFlag R.CLK_STAT_FAST_SRC false).setFlag R.CLK_STAT_PLL_LOCK true).set R.CLK_RATIO_RATIO ratio).setFlag R.TIM_STAT_DEGRADED false

/-- OSCILLATOR_TIMEOUT (R389): the trees stay on the backup; a device without HSX continues on IRC under R391. -/
def State.oscTimeout (s : State) (lsx : Bool) : State :=
  if s.dev = .off then s
  else if lsx then
    if s.flag R.CLK_STAT_LSX_OK then s else (s.orFld R.CLK_FAIL_SRC_FAILED 2).setFlag R.CLK_STAT_LSX_TO true
  else if s.flag R.CLK_STAT_HSX_OK then s
  else
    (((s.orFld R.CLK_FAIL_SRC_FAILED 1).setFlag R.CLK_STAT_HSX_TO true).setFlag R.CLK_STAT_PLL_LOCK true).hsxLoss.bothLost

/-- A deviation of more than 2 %, in parts per million. -/
def off2 (ppm : Int) : Bool := decide (20000 < ppm.natAbs)

/-- CLOCK_MONITOR_WINDOW (R390, R391): `hsx` is the deviation of the HSX–IRC ratio, or of HSX against LSX once IRC has failed; `irc` the result of IRC's own 1 ms check where one ends in this window; `lsx` and `lrc` those of the slow sources; `stopped` the sources that have stopped (bit 0 HSX, bit 1 LSX). -/
def State.monitor (s : State) (hsx : Int) (irc : Option Int) (lsx lrc : Int) (stopped : Nat) : State :=
  if s.dev = .off then s
  else
    let ircOwn := s.flag R.CLK_STAT_IRC_OK && (match irc with | some d => decide (10000 < d.natAbs) | none => false)
    let s1 := if ircOwn then s.srcFail 2 R.CLK_STAT_IRC_OK else s
    let hsxBad := s.flag R.CLK_STAT_HSX_OK && off2 hsx && !ircOwn
    let s2 := if hsxBad then ((s1.srcFail 0 R.CLK_STAT_HSX_OK).fastToIrc (bit stopped 0)).hsxLoss else s1
    let s3 := if s2.flag R.CLK_STAT_LSX_OK && off2 lsx then (s2.srcFail 1 R.CLK_STAT_LSX_OK).aoToLrc (bit stopped 1) else s2
    let s4 := if s3.flag R.CLK_STAT_LRC_OK && off2 lrc then s3.srcFail 3 R.CLK_STAT_LRC_OK else s3
    s4.bothLost

/-- MUX_FORCE (R392). -/
def State.muxForce (s : State) : State :=
  let s1 := if s.pwr.muxFast then s.setFlag R.CLK_STAT_FAST_SRC true else s
  let s2 := if s.pwr.muxAo then s1.setFlag R.CLK_STAT_AO_SRC true else s1
  if s.pwr.muxFast || s.pwr.muxAo then { s2 with pwr := { s2.pwr with muxFast := false, muxAo := false } }.setFlag R.CLK_STAT_FORCED true else s

/-! Clock gates (R393, R394). -/

/-- Every capture set is IDLE, DONE or STOPPED. -/
def State.capIdle (s : State) : Bool := (List.range 8).all (fun m => (s.cset m).idle)

/-- A close of gate `i` is refused (R394). -/
def State.gateRefused (s : State) (i : Nat) : Bool :=
  s.inCourses &&
  (decide (i ≤ 8) || i == 11 || i == 13 || (i == 14 && (List.range 32).any s.dmaBusy) || (i == 9 && !s.capIdle))

/-- The domain of the blocks that a gate clocks (R428); a gate that clocks an engine pair lies in the engines' domain. -/
def gateDom (i : Nat) : Nat := [7, 7, 7, 8, 8, 5, 3, 6, 9, 10, 1, 11, 11, 11, 2, 2, 2, 2].getD i 0

/-- A domain that the image leaves unpowered, which firmware cannot enable in RUN or SAFE_HOLD (R19). -/
def State.leftOff (s : State) (d : Nat) : Bool := s.inCourses && !s.domUp d && !bit s.pwr.imgDoms d && d != 10

/-- One bit of a write to CLK_GATE: an enable of a block that the image leaves unpowered is ignored and counted, an open gate cancels a deferred close, a close is refused, deferred while the block's port is busy, or made. -/
def State.gateBit (s : State) (v busy i : Nat) : State :=
  let en := s.get R.CLK_GATE_EN
  let pe := s.get R.CLK_GATE_PEND_PEND
  if bit v i && !bit en i && s.leftOff (gateDom i) then s.gatedAcc 0x80010010
  else if bit v i then (s.set R.CLK_GATE_EN (setBit en i true)).set R.CLK_GATE_PEND_PEND (setBit pe i false)
  else if !bit en i then s
  else if s.gateRefused i then s.setFlag R.CLK_STAT_GATE_ERR true
  else if bit busy i then s.set R.CLK_GATE_PEND_PEND (setBit pe i true)
  else (s.set R.CLK_GATE_EN (setBit en i false)).set R.CLK_GATE_PEND_PEND (setBit pe i false)

/-- A write of CLK_GATE; `busy` marks the blocks in the middle of a bus access. -/
def State.gateWrite (s : State) (v busy : Nat) : State := (List.range 18).foldl (fun u i => u.gateBit v busy i) s

/-- A deferred close takes effect. -/
def State.gateClose (s : State) (i : Nat) : State :=
  if bit (s.get R.CLK_GATE_PEND_PEND) i then
    (s.set R.CLK_GATE_EN (setBit (s.get R.CLK_GATE_EN) i false)).set R.CLK_GATE_PEND_PEND (setBit (s.get R.CLK_GATE_PEND_PEND) i false)
  else s

/-! Power domains (R396). -/

/-- A write of PWR_DOM_REQ, with REQ in bits 11 to 1: a request that R396 does not allow is refused, and one for a domain that the image leaves unpowered counts as an access to it (R19). -/
def State.domRequest (s : State) (v : Nat) : State :=
  let change := allDoms.filter (fun d => bit v d != (s.domUp d || s.pwr.rising.contains d))
  let ok := match s.dev with
    | .standby => change.all (fun d => bit s.pwr.imgDoms d)
    | .run | .safeHold => change.all (fun d => d == 10) && (change.isEmpty || s.capIdle)
    | _ => false
  if !ok then (change.foldl (fun u d => if bit v d && s.leftOff d then u.gatedAcc 0x8002000C else u) s).reqErr
  else
    let s1 := s.set R.PWR_DOM_REQ_REQ (v / 2)
    let s2 := change.foldl (fun u d => if bit v d then u.domRise [d] else { u.domDown d with pwr := { u.pwr with rising := u.pwr.rising.filter (· != d) } }) s1
    s2

/-- DOMAIN_POWER_UP: the next domain in order has powered up and its memories read zero; in start-up a lasting failure of its self-test sets BOOT_ERR (R396, R403). In BOOT a domain that was unpowered already holds its reset values, beside what the SYSTEM section has set. -/
def State.domUpDone (s : State) (d : Nat) (pass : Bool) : State :=
  match s.pwr.rising with
  | x :: r =>
    if x ≠ d then s
    else
      let t := (if s.dev = .boot then s else s.domOff d).set R.PWR_DOM_ON (setBit (s.get R.PWR_DOM_ON) d true)
      let u := { t with pwr := { t.pwr with rising := r } }
      let v := if d = 1 then u.islReset else u
      if s.dev = .boot ∧ pass = false then v.setFlag R.PWR_STAT_BOOT_ERR true else v
  | [] => s

/-! Device states (R397). -/

/-- RUN is entered from STANDBY: START for every engine with an axis (R122), the records of the process image at their reset values (R221), and start-up of the rings and listening on the cascade begin (R202, R350). -/
def State.toRun (s : State) : State :=
  let t := ({ s with dev := .run }).pimReset
  let u := (List.range 12).foldl (fun u n => if (u.eng n).axes.isEmpty then u else u.engStart n) t
  (if u.casEn then u.set R.CAS_STAT_STATE 2 else u).listen

/-- A lasting fault keeps a device out of RUN (R391, R397, R406). -/
def State.faultFree (s : State) : Bool := s.flag R.CLK_STAT_HSX_OK && !s.tst.lasting && s.islSt != 4

/-- GO_RUN. -/
def State.goRun (s : State) : State := if s.dev = .standby ∧ s.faultFree = true then s.toRun else s.reqErr

/-- GO_WATCH: only while every journal entry is FREE or DONE; every domain but PD0 powers down, and the journal is emptied. -/
def State.goWatch (s : State) : State :=
  if s.dev = .standby ∧ s.jnl.all.all (fun e => e.2.st == 4) = true then
    let t := allDoms.foldl State.domDown s.pdOut
    { t with dev := .watch, mtr := { Mtr.init with peerAct := s.mtr.peerAct }, pwr := { t.pwr with wdtOn := false, fed := false, rising := [] } }
  else s.reqErr

/-- What can wake the device: RESET_n, an edge of GPIO0 (rising or falling), the PWR_ALARM count. -/
def State.wake (s : State) (kind : Nat) : State :=
  if s.dev ≠ .watch then s
  else
    let go := s.bootBegin
    match kind with
    | 0 => s.pinLow
    | 1 => if s.flag R.PWR_WAKE_GPIO0_EN && !s.flag R.PWR_WAKE_GPIO0_FALL then go else s
    | 2 => if s.flag R.PWR_WAKE_GPIO0_EN && s.flag R.PWR_WAKE_GPIO0_FALL then go else s
    | _ => if s.flag R.PWR_WAKE_ALARM_EN then go else s

/-! The watchdog and the reset key (R398, R402). -/

/-- The watchdog's time starts afresh. -/
def State.wdtLoad (s : State) : State := { s with pwr := { s.pwr with wdtEnd := s.now + s.get R.PWR_WDT_CFG_TIMEOUT_MS * 1000000 } }

/-- The watchdog starts on entry to STANDBY, if the image enables it. -/
def State.wdtStart (s : State) : State := if s.flag R.PWR_WDT_CFG_EN then { s.wdtLoad with pwr := { s.wdtLoad.pwr with wdtOn := true } } else s

/-- A write of FEED. -/
def State.feed (s : State) (v : Nat) : State :=
  if v = 0x5A then { s with pwr := { s.pwr with fed := true } }
  else
    let t := { s with pwr := { s.pwr with fed := false } }
    if v = 0xA5 ∧ s.pwr.fed = true then t.wdtLoad else t.count R.PWR_WDT_BAD_FEED

/-- A write of KEY (R398): 0x1D as the next write after 0xD1 enters a software reset. -/
def State.rstKey (s : State) (v : Nat) : State :=
  if v = 0x1D ∧ s.pwr.key = true then s.enterReset .sw else { s with pwr := { s.pwr with key := v == 0xD1 } }

/-- The watchdog expires. -/
def State.wdtExpire (s : State) : State := if s.pwr.wdtOn = true ∧ s.dev ≠ .reset ∧ s.dev ≠ .off then s.enterReset .wdt else s

/-! Meanings. -/

/-- What an event of clocks, power and reset can change: a reset reaches everything but the queue of commands. -/
def pwrDo (t s : State) : Host.Outcome State Fault Refusal := .next { t with bus := .none, pending := s.pending, jtag := s.jtag, rstLow := s.rstLow }

/-- What an event of RESET_n or of the supply can change: RESET_n and the TAP as well. -/
def rstDo (t s : State) : Host.Outcome State Fault Refusal := .next { t with bus := .none, pending := s.pending }

/-- OSCILLATOR_STABLE: HSX with the learned ratio, or LSX. -/
def execOscillatorStable (lsx : Bool) (ratio : BitVec 32) (s : State) : Host.Outcome State Fault Refusal :=
  .next { s with flds := (s.oscStable lsx ratio.toNat).flds, bus := .none, outs := [] }

/-- OSCILLATOR_TIMEOUT. -/
def execOscillatorTimeout (lsx : Bool) (s : State) : Host.Outcome State Fault Refusal := pwrDo (s.quiet.oscTimeout lsx) s

/-- CLOCK_MONITOR_WINDOW: deviations in parts per million. -/
def execClockMonitorWindow (hsx : Int) (irc : Option Int) (lsx lrc : Int) (stopped : BitVec 2) (s : State) : Host.Outcome State Fault Refusal :=
  pwrDo (s.quiet.monitor hsx irc lsx lrc stopped.toNat) s

/-- RATIO_RELEARN (R390): while neither HSX nor IRC has failed. -/
def execRatioRelearn (ratio : BitVec 32) (s : State) : Host.Outcome State Fault Refusal :=
  .next { s with flds := (if s.dev ≠ .off ∧ s.flag R.CLK_STAT_HSX_OK = true ∧ s.flag R.CLK_STAT_IRC_OK = true then s.set R.CLK_RATIO_RATIO ratio.toNat else s).flds, bus := .none, outs := [] }

/-- MUX_FORCE. -/
def execMuxForce (s : State) : Host.Outcome State Fault Refusal :=
  .next { s with flds := s.muxForce.flds, pwr := s.muxForce.pwr, bus := .none, outs := [] }

/-- CLOCK_GATE_WRITE. -/
def execClockGateWrite (v busy : BitVec 18) (s : State) : Host.Outcome State Fault Refusal :=
  .next { s with flds := (s.gateWrite v.toNat busy.toNat).flds, bus := .done, outs := [] }

/-- GATE_CLOSE_DEFERRED of gate `i`. -/
def execGateCloseDeferred (i : Fin 18) (s : State) : Host.Outcome State Fault Refusal :=
  .next { s with flds := (s.gateClose i).flds, bus := .none, outs := [] }

/-- DOMAIN_REQUEST: a write of PWR_DOM_REQ. -/
def execDomainRequest (v : BitVec 12) (s : State) : Host.Outcome State Fault Refusal :=
  .next { s.quiet.domRequest v.toNat with bus := .done, pending := s.pending, jtag := s.jtag, rstLow := s.rstLow }

/-- DOMAIN_POWER_UP of domain `d`; `pass` is the outcome of its start-up self-test, retried once (R404). -/
def execDomainPowerUp (d : Fin 12) (pass : Bool) (s : State) : Host.Outcome State Fault Refusal := pwrDo (s.quiet.domUpDone d pass) s

/-- POWER_ON with the levels of the PAIR_ID and CASC_ROOT straps. -/
def execPowerOn (memberB root : Bool) (s : State) : Host.Outcome State Fault Refusal := pwrDo (s.quiet.powerOn memberB root) s

/-- VSUP_LOW: the supply as measured, in mV (R395). -/
def execVsupLow (mv : BitVec 16) (s : State) : Host.Outcome State Fault Refusal :=
  .next { s with flds := (if s.dev = .off then s else (s.set R.PWR_VSUP_MV mv.toNat).setFlag R.PWR_STAT_VSUP_LOW (decide (mv.toNat < 1680) || s.flag R.PWR_STAT_VSUP_LOW)).flds, bus := .none, outs := [] }

/-- VSUP_FAIL. -/
def execVsupFail (s : State) : Host.Outcome State Fault Refusal := rstDo s.quiet.vsupFail s

/-- OVERTEMP: `tj` is the junction temperature in 1/16 °C, over 125 °C for the flag; TJ_MAX keeps the highest (R395, R409). -/
def execOvertemp (tj : BitVec 16) (s : State) : Host.Outcome State Fault Refusal :=
  .next { s with flds := (if s.dev = .off then s else
    let t := (s.set R.PWR_TEMP_TJ tj.toNat).setFlag R.PWR_STAT_OVERTEMP (decide (2000 < tj.toInt) || s.flag R.PWR_STAT_OVERTEMP)
    if sx 16 (s.get R.PWR_TEMP_TJ_MAX) < tj.toInt then t.set R.PWR_TEMP_TJ_MAX tj.toNat else t).flds, bus := .none, outs := [] }

/-- GO_RUN. -/
def execGoRun (s : State) : Host.Outcome State Fault Refusal := .next { s.quiet.goRun with bus := .done, pending := s.pending, jtag := s.jtag, rstLow := s.rstLow }

/-- GO_STANDBY. -/
def execGoStandby (s : State) : Host.Outcome State Fault Refusal := .next { s.quiet.goStandby with bus := .done, pending := s.pending, jtag := s.jtag, rstLow := s.rstLow }

/-- GO_WATCH. -/
def execGoWatch (s : State) : Host.Outcome State Fault Refusal := .next { s.quiet.goWatch with bus := .done, pending := s.pending, jtag := s.jtag, rstLow := s.rstLow }

/-- WAKE: 0 RESET_n, 1 a rising edge of GPIO0, 2 a falling one, 3 the alarm. -/
def execWake (kind : Fin 4) (s : State) : Host.Outcome State Fault Refusal := rstDo (s.quiet.wake kind) s

/-- PIN_RESET. -/
def execPinReset (s : State) : Host.Outcome State Fault Refusal := rstDo s.quiet.pinLow s

/-- RESET_HELD_LONG (R400). -/
def execResetHeldLong (s : State) : Host.Outcome State Fault Refusal :=
  .next { s with flds := (if s.dev = .reset ∧ s.rstLow = true then s.setFlag R.PWR_RST_CAUSE_RESET_HELD_LONG true else s).flds, bus := .none, outs := [] }

/-- SOFTWARE_RESET: the whole key sequence. -/
def execSoftwareReset (s : State) : Host.Outcome State Fault Refusal :=
  .next { (s.quiet.rstKey 0xD1).rstKey 0x1D with bus := .done, pending := s.pending, jtag := s.jtag, rstLow := s.rstLow }

/-- RESET_ENTRY from a warm source. -/
def execResetEntry (c : RstCause) (s : State) : Host.Outcome State Fault Refusal := 
  if c = .por then rstDo s.quiet.vsupFail s else pwrDo (s.quiet.enterReset c) s

/-- RESET_RELEASE: `hold` is the time RESET_n was low, in 10 ms. -/
def execResetRelease (hold : Nat) (memberB root : Bool) (s : State) : Host.Outcome State Fault Refusal := rstDo (s.quiet.resetRelease hold memberB root) s

/-- WATCHDOG_FEED: a write of PWR_WDT.FEED. -/
def execWatchdogFeed (v : BitVec 8) (s : State) : Host.Outcome State Fault Refusal :=
  let t := s.feed v.toNat
  .next { s with pwr := t.pwr, flds := t.flds, bus := .done, outs := [] }

/-- WATCHDOG_EXPIRE. -/
def execWatchdogExpire (s : State) : Host.Outcome State Fault Refusal := pwrDo s.quiet.wdtExpire s

end Sys2Proof.Machine
end

