-- ==== Sys2Proof/Machine/SelfTest.lean ====
section
/-! DEFINITION. Self-test rounds, quick self-tests and the scrubber (R405 to R407, R314). -/
namespace Sys2Proof.Machine

/-- TST runs slices: in STANDBY, RUN and SAFE_HOLD, powered and not gated (R394, R406). -/
def State.tstOn (s : State) : Bool := (s.dev == .standby || s.inCourses) && s.clocked 0x80150000

/-- The coverage of the current round, in percent; full coverage ends it. -/
def State.covered (s : State) (lp mp : Nat) : State :=
  if s.tst.run ≠ .round then s
  else
    let t := (s.set R.TST_COV_LOGIC_PCT (min 100 lp)).set R.TST_COV_MEM_PCT (min 100 mp)
    if 100 ≤ lp ∧ 100 ≤ mp then t.tstEnd .round else t

/-- A slice that failed twice: FAIL and FAIL_UNIT; a memory block is poisoned, a logic failure is lasting and, in a round, stops the line at once; a quick test's outcome is judged at its end (R314, R406). -/
def State.sliceFail (s : State) (unit addr : Nat) : State :=
  let t := (s.setFlag R.TST_STAT_FAIL true).set R.TST_STAT_FAIL_UNIT unit
  if 32 ≤ unit then
    let b := addr / 64 * 64
    t.poisonWords (unit - 32) b ((List.range 16).map (fun i => b + 4 * i))
  else
    let u := { t with tst := { t.tst with lasting := true } }
    if u.tst.run = .quick then u else u.stopLine .selfTest

/-- A loop engine is idle and no loop event is queued for it: HALTED, in ERROR, or asleep in EVWAIT (R31). -/
def Eng.idle (e : Eng) : Bool := e.queue.isEmpty && (e.st != .running || e.asleep)

/-- The unit of a slice is a loop engine, or a memory of one, that is not idle: the slice waits (R31, R406). -/
def State.sliceWaits (s : State) (unit addr : Nat) : Bool :=
  if 1 ≤ unit ∧ unit ≤ 12 then !(s.eng (unit - 1)).idle
  else unit == 37 && decide (0x50000000 ≤ addr) && !(s.eng ((addr - 0x50000000) / 0x40000)).idle

/-- The codes of TST_STAT.FAIL_UNIT (R410). -/
def unitOk (u : Nat) : Bool := decide ((1 ≤ u ∧ u ≤ 26) ∨ (32 ≤ u ∧ u ≤ 40))

/-- SELF_TEST_SLICE: a slice that a loop event keeps out or cuts off counts for nothing and is repeated later; a first failure is repeated once (R31, R404). -/
def State.slice (s : State) (unit addr : Nat) (cut first second : Bool) (lp mp : Nat) : State :=
  if !s.tstOn || s.tst.run == .idle || cut || !unitOk unit || s.sliceWaits unit addr then s
  else if first || second then s.covered lp mp
  else (s.sliceFail unit addr).covered lp mp

/-- Address `a` lies in memory `m`: in the map, or within profile local memory or the network buffers, whose offsets have no map (R405, R410). -/
def memAt (m a : Nat) : Bool := if inMap m then (region a).bind Region.ecc == some m else true

/-- SCRUB_READ of the word at `addr` of memory `m`. -/
def State.scrub (s : State) (m addr : Nat) (r : EccRes) : State :=
  if !(s.clocked 0x80150000 && memAt m addr && s.domUp (poisonDom (m, addr))) then s
  else s.eccRead m addr r

/-- What TST can change. -/
def tstDo (t s : State) : Host.Outcome State Fault Refusal :=
  .next { s with tst := t.tst, mtr := t.mtr, dev := t.dev, holdBy := t.holdBy, axes := t.axes, flds := t.flds, bus := .none, outs := [] }

/-- SELF_TEST_SLICE: the unit (the codes of TST_STAT.FAIL_UNIT), the address of a memory block, whether it was cut off, whether the first and the second attempt passed, and the coverage reached. -/
def execSelfTestSlice (unit : BitVec 8) (addr : BitVec 32) (cut first second : Bool) (logicPct memPct : BitVec 8) (s : State) : Host.Outcome State Fault Refusal :=
  tstDo (s.slice unit.toNat addr.toNat cut first second logicPct.toNat memPct.toNat) s

/-- ROUND: setting TST_CTRL.ROUND. -/
def execRound (s : State) : Host.Outcome State Fault Refusal := s.atReg (0x80150000) (
  let t := (s.setFlag R.TST_CTRL_ROUND true).tstAsk .round
  .next { s with tst := t.tst, flds := t.flds, bus := .done, outs := [] })

/-- QUICK: setting TST_CTRL.QUICK. -/
def execQuick (s : State) : Host.Outcome State Fault Refusal := s.atReg (0x80150000) (
  let t := ((s.setFlag R.TST_CTRL_QUICK true).setFlag R.MTR_STAT_TEST_RUN true).tstAsk .quick
  .next { s with tst := t.tst, flds := t.flds, bus := .done, outs := [] })

/-- SELF_TEST_ROUND_START: ROUND_S has passed. -/
def execSelfTestRoundStart (s : State) : Host.Outcome State Fault Refusal :=
  tstDo (if s.dev = .standby ∨ s.inCourses = true then s.tstAsk .round else s) s

/-- ROUND_DEADLINE of a round, or of a quick self-test. -/
def execRoundDeadline (quick : Bool) (s : State) : Host.Outcome State Fault Refusal :=
  tstDo (if s.tst.run = (if quick then TstRun.quick else TstRun.round) then s.setFlag R.TST_STAT_TEST_DEFERRED true else s) s

/-- SCRUB_READ: memory code (R410), address, and what the read found. -/
def execScrubRead (m : Fin 9) (addr : BitVec 32) (r : EccRes) (s : State) : Host.Outcome State Fault Refusal :=
  tstDo (s.scrub m addr.toNat r) s

end Sys2Proof.Machine
end

