-- ==== Sys2Proof/Machine/Boot.lean ====
section
/-! DEFINITION. Start-up from the configuration image, and the NVM port (R403, R411 to R425). -/
namespace Sys2Proof.Machine

/-! Loading a record (R415, R416). -/

/-- The section of a TYPE. -/
def secOf (t : Nat) : Option Sec :=
  match t with
  | 1 => some .system | 2 => some .clocks | 3 => some .rings | 4 => some .axes | 5 => some .points
  | 6 => some .safety | 7 => some .loopPrograms | 8 => some .appFirmware | 9 => some .capture
  | _ => none

/-- The register blocks that a section may write (R416). -/
def secBlocks : Sec → List Nat
  | .system => [0, 2, 3, 14, 15, 16, 17, 21]
  | .clocks => [1]
  | .rings => [4, 5, 6, 7]
  | .axes => [9, 10]
  | .points => [11]
  | .loopPrograms => [9]
  | .capture => [12]
  | _ => []

/-- The row of a register list that an address falls in, with the offset of its fields from those at index 0. -/
def RegRow.ofs (r : RegRow) (a : Nat) : Option Nat :=
  if a < r.addr then none
  else
    let d := a - r.addr
    let i := if r.s1 = 0 then 0 else if r.s2 ≤ r.s1 then d / r.s1 else (if r.s2 = 0 then d / r.s1 else d % r.s2 / r.s1)
    let j := if r.s2 = 0 then 0 else if r.s2 ≤ r.s1 then (d - i * r.s1) / r.s2 else d / r.s2
    if i < r.n1 ∧ j < r.n2 ∧ i * r.s1 + j * r.s2 = d then some d else none

/-- The fields of the register at address `a` (R11, R22); none where no register is defined. -/
def fieldsAt (a : Nat) : Option (List Fld) :=
  if a < 0x80000000 ∨ a % 4 ≠ 0 then none
  else (blockRows ((a - 0x80000000) / 0x10000)).findSome? (fun r => (r.ofs a).map (fun d => r.flds.map (fun f => { f with addr := f.addr + d })))

/-- A section writes a field: one whose Reset column names it; BOND's by SYSTEM, which R416 lists as their writer; the writable ones of CAP by CAPTURE, whose presets have no other way in. Log entry 60. -/
def loads (x : Sec) (f : Fld) : Bool :=
  f.img == some x || (x == .system && f.img.isSome && (f.addr - 0x80000000) / 0x10000 == 3) || (x == .capture && f.acc == .rw && (f.addr - 0x80000000) / 0x10000 == 12)

/-- A register word of a section is loaded, RO fields included; every other bit is ignored. -/
def State.loadReg (s : State) (x : Sec) (a v : Nat) : State :=
  match fieldsAt a with
  | none => s
  | some fs =>
    -- ENTRY[1:0] read 0 (R148)
    fs.foldl (fun u f => if loads x f then u.set f (if f.img == some .loopPrograms then bits v f.lo f.w / 4 * 4 else bits v f.lo f.w) else u) s

/-- A range of `n` bytes at map address `a` lies in a destination of a section's memory records. -/
def memDest (x : Sec) (a n : Nat) : Bool :=
  let within (lo len : Nat) : Bool := decide (lo ≤ a ∧ a + n ≤ lo + len)
  match x with
  | .axes => within 0x30000000 0x100000 || within 0x38000000 0x200000
  | .loopPrograms => (List.range 12).any (fun k => within (leProg k) 0x8000 || within (leData k) 0x20000)
  | .appFirmware => within 0x10000000 0x200000
  | .capture => within 0x10000000 0x200000
  | _ => false

/-- What a record occupies, as target, start and length, for the overlap check. -/
def LoadItem.span : LoadItem → Nat × Nat × Nat
  | .reg a _ => (0, a.toNat, 4)
  | .mem a b => (0, a.toNat, b.length)
  | .sched k j _ => (1 + k, j, 1)
  | .map k _ => (1 + k, 16, 1)
  | .node k a _ _ => (1 + k, 32 + a, 1)
  | .seg k m _ => (1 + k, 256 + m, 1)
  | .island _ => (5, 0, 1)
  | .ranges _ => (6, 0, 1)
  | .system _ _ _ _ => (7, 0, 1)
  | .plan _ => (8, 0, 1)
  | .entry _ => (9, 0, 1)
  | .stray => (10, 0, 0)

/-- Two extents overlap. -/
def spansMeet (p q : Nat × Nat × Nat) : Bool := p.1 == q.1 && decide (p.2.1 < q.2.1 + q.2.2 ∧ q.2.1 < p.2.1 + p.2.2)

/-- A record's target lies in the destinations of its section (R415, R416). -/
def LoadItem.placed (x : Sec) : LoadItem → Bool
  | .reg a _ => (secBlocks x).contains ((a.toNat - 0x80000000) / 0x10000) && (fieldsAt a.toNat).isSome
  | .mem a b => memDest x a.toNat b.length
  | .sched _ _ _ => x == .rings
  | .map _ _ => x == .rings
  | .node _ a _ _ => x == .rings && decide (a < 64)
  | .ranges _ => x == .points
  | .seg _ _ _ => x == .points
  | .island _ => x == .safety
  | .system _ _ _ _ => x == .system
  | .plan _ => x == .system
  | .entry _ => x == .appFirmware
  | .stray => false

/-- A field of a SYSTEM record that breaks its range (R416, R429). -/
def sysRangeOk (a v : Nat) : Bool :=
  if 0x80000100 ≤ a ∧ a < 0x80000180 then
    (bits v 0 2 != 3 || decide (1 ≤ bits v 2 3 ∧ bits v 2 3 ≤ 3)) && decide (bits v 5 4 < 10) && bits v 10 2 != 3
  else if a = 0x800E0008 then decide (2 ≤ bits v 0 7 ∧ bits v 0 7 ≤ 64)
  else if a = 0x80020024 then decide (10 ≤ bits v 0 14 ∧ bits v 0 14 ≤ 10000)
  else if a = 0x80150008 then decide (60 ≤ bits v 0 16) && decide (1 ≤ bits v 16 12 ∧ bits v 16 12 ≤ 3600)
  else if a = 0x80110018 then decide (1 ≤ bits v 8 10 ∧ bits v 8 10 ≤ 1000)
  else true

/-- A field of a CAPTURE record that breaks the range its table gives (R264, R265, R416): PER and POST by the MODE and CLK loaded for the set, AXIS and EVT by the record's KIND. Log entry 60. -/
def State.capRangeOk (s : State) (a v : Nat) : Bool :=
  if 0x800C0100 ≤ a ∧ a < 0x800C0500 then
    let m := (a - 0x800C0100) / 0x80
    match (a - 0x800C0100) % 0x80 with
    | 0x0C => if s.flag (R.CAP_SET_CFG_CLK m) then decide (125 ≤ bits v 0 18 ∧ bits v 0 18 ≤ 250000) else decide (bits v 0 18 ≤ 65535)
    | 0x14 => s.get (R.CAP_SET_CFG_MODE m) == 2 || bits v 0 20 != 0
    | 0x18 => decide (1 ≤ bits v 0 20 ∧ bits v 0 20 ≤ 524287)
    | 0x1C => decide (1 ≤ bits v 0 13 ∧ bits v 0 13 ≤ 4096)
    | 0x20 => bits v 0 6 == 0
    | 0x24 => decide (bits v 0 23 ≤ 0x400000)
    | 0x28 => bits v 0 4 != 8 || decide (bits v 10 8 < 240 ∧ bits v 18 3 ≤ 4)
    | 0x2C => bits v 0 4 != 8 || decide (bits v 10 8 < 240 ∧ bits v 18 3 ≤ 4)
    | _ => true
  else if 0x800C0800 ≤ a ∧ a < 0x800C0C00 then
    match (a - 0x800C0800) % 0x20 with
    | 0 => decide (bits v 0 4 ≤ 4)
    | 0x10 => v % 8 == 0
    | 0x14 => decide (bits v 0 13 ≤ 4096)
    | _ => true
  else true

/-- The records of a list are placed, and no two overlap. -/
def itemsOk (x : Sec) (spans : List (Nat × Nat × Nat)) : List LoadItem → Bool
  | [] => true
  | i :: r => i.placed x && !(spans.any (spansMeet i.span)) && itemsOk x (i.span :: spans) r

/-- The bits of the byte at `a` that the image gives: of the axis region the fields whose Reset names it, read-only ones included (R43, R105, R415), elsewhere what a memory holds. -/
def State.imgMask (s : State) (a : Nat) : Nat :=
  if 0x30000000 ≤ a ∧ a < 0x30100000 then
    let o := (a - 0x30000000) % 0x1000
    if 0x300F0000 ≤ a then 0
    else if o = 0 then 0x0F
    else if o < 0x100 then parMask o
    else if o = 0x400 then (if bit (s.load a 4) 22 then 0xFF else 0x3F)
    else if o = 0x402 then (if bit (s.load (a - 2) 4) 22 then 0xFF else 0x7F)
    else if 0x400 < o ∧ o < 0xF00 then lpMask (bit (s.load (a - o + 0x400) 4) 22) (o - 0x400)
    else 0
  else camMask a

/-- A record is loaded. -/
def State.loadItem (x : Sec) (s : State) : LoadItem → State
  | .reg a v => s.loadReg x a.toNat v.toNat
  | .mem a b =>
    let w := b.zipIdx.map (fun (v, i) => (a.toNat + i, v))
    let t := s.poke w
    s.poke (w.filterMap (fun (p, v) => let m := t.imgMask p; if m = 0 then none else some (p, BitVec.ofNat 8 (v.toNat &&& m))))
  | .sched k j d => s.setRing k { s.ring k with scheds := (if (s.ring k).scheds.isEmpty then [none, none, none, none] else (s.ring k).scheds).set j (some d) }
  | .map k els => s.setRing k { s.ring k with map := els }
  | .node k a uid kind => s.setRing k { s.ring k with nodes := (s.ring k).nodes ++ [Node.init a uid kind] }
  | .ranges r => { s with pim := { s.pim with ranges := r } }.set R.PIM_RANGES_COUNT r.length
  | .seg k m g => { s with pim := { s.pim with segs := Store.put none s.pim.segs (k * 256 + m) (some g) } }
  | .island x => { s with isl := { s.isl with cfg := some x.cfg } }
  | .system auto paired sfc img => { s with boot := { s.boot with autorun := auto }, mtr := { s.mtr with paired := paired, sfc := sfc, img := img } }
  | .plan w => { s with cas := { s.cas with plan := w } }
  | .entry a => { s with boot := { s.boot with entry := a.toNat } }
  | .stray => s

/-! The checks of each section, on the state with its records loaded (R416). -/

/-- No two pins with MODE 3 share FUNC and PORT (R429). -/
def State.pinsApart (s : State) : Bool :=
  let use := (List.range 32).filterMap (fun n => if s.get (R.SYS_PINFUNC_MODE n) = 3 then some (s.get (R.SYS_PINFUNC_FUNC n), s.get (R.SYS_PINFUNC_PORT n)) else none)
  distinct use

/-- The device-wide schedule `j`, from the lowest ring that has it. -/
def State.devSched (s : State) (j : Nat) : Option Sched :=
  [0, 1, 2, 3].findSome? (fun k => ((s.ring k).scheds.getD j none).map (fun b => ⟨b.period, b.ts, b.ta, b.fbEnd, b.gap⟩))

/-- Every schedule passes R24 and R193, schedule 0 is present, and the rings agree on the period of a schedule (R32). -/
def State.ringsOk (s : State) : Bool :=
  (s.devSched 0).isSome &&
  [0, 1, 2, 3].all (fun k => (List.range 4).all (fun j => match (s.ring k).scheds.getD j none with
    | none => true
    | some b => schedOk (s.get (R.RING_CFG_RATE k)) (s.ring k).map (s.segLen k) b && (match s.devSched j with | some d => d.period == b.period | none => false)))

/-- The schedules become the device's, and schedule 0 stands in BOND's registers (R32). -/
def State.ringsSet (s : State) : State := ({ s with crs := { s.crs with scheds := (List.range 4).map s.devSched } }).adoptSched 0

/-- R352, on the root of a cascade: each publishing position's SETP slot starts, in byte times of 2 ns, no earlier than 0.4 of the period of each schedule and 0.5 µs. The periods come with RINGS, so the plan is judged there (DEDUCED, log entry 60). -/
def State.planOk (s : State) : Bool :=
  !(s.flag R.CAS_CFG_ROOT && s.flag R.CAS_CFG_EN) ||
  [0, 1, 2, 3].all (fun j => match s.devSched j with
    | none => true
    | some d => s.cas.plan.all (fun w => bits w 14 6 == 0 || decide (2 * d.period + 2500 ≤ 10 * bits w 0 14)))

/-- The axes that LE_AXMAP assigns to engine `n`, ascending (R110). -/
def State.axmap (s : State) (n : Nat) : List Nat :=
  (List.range 192).filter (fun a =>
    let k := a / 4
    match a % 4 with
    | 0 => s.flag (R.LE_AXMAP_ASSIGNED_0 k) && s.get (R.LE_AXMAP_ENGINE_0 k) == n
    | 1 => s.flag (R.LE_AXMAP_ASSIGNED_1 k) && s.get (R.LE_AXMAP_ENGINE_1 k) == n
    | 2 => s.flag (R.LE_AXMAP_ASSIGNED_2 k) && s.get (R.LE_AXMAP_ENGINE_2 k) == n
    | _ => s.flag (R.LE_AXMAP_ASSIGNED_3 k) && s.get (R.LE_AXMAP_ENGINE_3 k) == n)

/-- The entries of schedule `j` that carry a record of a KIND for axis `a`: their start and end in 1/16 ns of course time (R181, R191). -/
def State.axBricks (s : State) (j kind a : Nat) : List (Nat × Nat) :=
  [0, 1, 2, 3].flatMap (fun k => match (s.ring k).scheds.getD j none with
    | none => []
    | some b => b.ents.filterMap (fun e =>
        if e.used && ((s.ring k).els e).any (fun m => m.kind == kind && m.item == a) then some (s.bt16 k e.start, s.bt16 k (e.start + e.len + 18)) else none))

/-- The arrival in 1/16 ns at which feedback of axis `a` may at latest land in schedule `j`: the end of its first feedback brick and the 60 ns of R206. The ring's delay is not known when the image loads and counts as 0 here (DEDUCED, log entry 37). -/
def State.fbLand (s : State) (j a : Nat) : Option Nat :=
  match s.axBricks j 0 a with
  | [] => none
  | b :: r => some (r.foldl (fun m x => min m x.2) b.2 + 960)

/-- The compute deadline of axis `a` of the engine that serves the axes `l`, in 1/16 ns (R27): its feedback's arrival, the wake of 20 cycles, 750 for each axis that may be served before it, and 750 for itself. -/
def State.axDeadline (s : State) (j : Nat) (l : List Nat) (a : Nat) : Option Nat :=
  (s.fbLand j a).map (fun t =>
    t + 16 * (20 + 750 + 750 * (l.filter (fun b => b != a && (match s.fbLand j b with | some u => decide (u < t ∨ (u = t ∧ b < a)) | none => false))).length))

/-- No deadline of an engine's axes breaks R27: in a schedule of the default period it lies by 19.0 µs, and in every schedule some command brick of the axis starts after it. -/
def State.deadlinesOk (s : State) (l : List Nat) : Bool :=
  [0, 1, 2, 3].all (fun j => match s.devSched j with
    | none => true
    | some d => l.all (fun a => match s.axDeadline j l a with
      | none => true
      | some t =>
        let c := s.axBricks j 1 a
        (d.period != 31250 || decide (t ≤ 19000 * 16)) && (c.isEmpty || c.any (fun x => decide (t ≤ x.1)))))

/-- R110: at most 16 axes an engine, 8 of class T, on an engine that exists, and the deadline rule of R27. The worst-case total of R110's table, 738 cycles, is within its 750. -/
def State.axesOk (s : State) : Bool :=
  (List.range 16).all (fun n =>
    let l := s.axmap n
    decide (l.length ≤ 16 ∧ (l.filter s.classT).length ≤ 8) && (decide (n < 12) || l.isEmpty) && s.deadlinesOk l)

/-- KIND and STOP_CLASS, which the device derives (R38). -/
def State.axKind (s : State) (a : Nat) : Nat :=
  if a < 192 then 0 else if s.flag (R.STP_CFG_ENC_EN (a - 192)) then 1 else 6

/-- The assigned axes: engines get theirs, stepper channels those that the section names (R37, R110, R151); until the first ENABLE or RELOAD the profile engines judge inputs by the record as the image loaded it (R80). -/
def State.axesSet (s : State) (items : List LoadItem) : State :=
  let net := (List.range 12).flatMap s.axmap
  let stp := (List.range 48).filter (fun n => items.any (fun i => match i with | .reg a _ => decide (0x800A0000 + 0x40 * n ≤ a.toNat ∧ a.toNat < 0x800A0040 + 0x40 * n) | _ => false))
  let s1 := (List.range 12).foldl (fun u n => u.setEng n { u.eng n with axes := s.axmap n }) s
  let s2 := stp.foldl (fun u n => u.setChan n { u.chan n with cfg := u.chanRegs n }) s1
  (net ++ stp.map (· + 192)).foldl (fun u a =>
    let v := u.store (axBlock a) (u.load (axBlock a) 1 / 8 * 8 + u.axKind a) 1
    v.setAx a { v.ax a with assigned := true, par := v.axPar a }) s2

/-- Custom and standard axes never share an engine (R147). -/
def State.progsOk (s : State) : Bool := (List.range 12).all (fun n => let l := (s.eng n).axes; l.all s.custom || l.all (fun a => !s.custom a))

/-- The entry address lies in the loaded code (R416). -/
def entryIn (items : List LoadItem) : Bool :=
  items.any (fun i => match i with
    | .entry e => items.any (fun j => match j with | .mem a b => decide (a.toNat ≤ e.toNat ∧ e.toNat < a.toNat + b.length) | _ => false)
    | _ => false)

/-- The content check of a section, its records loaded. No field of CLOCKS has a range that its width does not give (R408), and SAFETY is the island's to check (R294). -/
def State.secOk (s : State) (x : Sec) (items : List LoadItem) : Bool :=
  match x with
  | .system => items.all (fun i => match i with | .reg a v => sysRangeOk a.toNat v.toNat | _ => true) && s.pinsApart
  | .clocks => true
  | .rings => s.ringsOk
  | .axes => s.axesOk
  | .points => s.pointsOk
  | .safety => true
  | .loopPrograms => s.progsOk
  | .appFirmware => entryIn items
  | .capture => items.all (fun i => match i with | .reg a v => s.capRangeOk a.toNat v.toNat | _ => true)

/-- Image fields of PD0 and PD2 that a section has not written read 0 (R426): they are cleared as it is loaded. -/
def State.clearImg (s : State) (x : Sec) : State :=
  { s with flds := s.flds.filter (fun p =>
      let a := p.1 / 32
      !((blockDom a == 0 || blockDom a == 2) && (match fieldsAt a with | some fs => fs.any (fun f => f.key == p.1 && f.img == some x) | none => false))) }

/-- What a section's load does beyond its records. SYSTEM gives the PHY's address, at which HST polls (R328), and JUMP_TH its default where no record does (R344). -/
def State.secSet (s : State) (x : Sec) (items : List LoadItem) : State :=
  match x with
  | .system =>
    let m := s.get R.PWR_DOM_REQ_REQ * 2
    let t0 := { s with pwr := { s.pwr with imgDoms := m }, hst := { s.hst with phy := s.get R.HST_MDIO_PHY } }
    let t := if t0.get R.TIM_CFG_JUMP_TH = 0 then t0.set R.TIM_CFG_JUMP_TH 10 else t0
    ((allDoms.filter (fun d => t.domUp d && !bit m d && d != 2)).foldl State.domDown t).domRise (allDoms.filter (bit m))
  | .rings => s.ringsSet
  | .axes => s.axesSet items
  | .points => s.pimReset
  | .loopPrograms => (List.range 12).foldl (fun u n => u.setEng n { u.eng n with pc := u.get (R.LE_ENG_ENTRY_ENTRY n) }) s
  | _ => s

/-! The slots (R420 to R422). -/

/-- The failure code of a slot. -/
def State.failCode (s : State) (slotB : Bool) (c : Nat) : State := s.set (if slotB then R.NVM_STAT_FAIL_B else R.NVM_STAT_FAIL_A) c

/-- No slot loads: BOOT_ERR, and nothing is protected (R422, R424). -/
def State.bootFail (s : State) : State := { s with boot := { s.boot with slot := none, queue := [], protect := none } }.setFlag R.PWR_STAT_BOOT_ERR true

/-- The next slot is tried, or none is left. -/
def State.nextSlot (s : State) : State :=
  match s.boot.queue with
  | [] => s.bootFail
  | b :: r => { s with boot := { s.boot with slot := some b, queue := r, done := 0, spans := [], first := if s.boot.first.isNone then some b else s.boot.first } }

/-- A slot fails: what it powered is powered down, application SRAM is zeroed, and the next slot is tried (R422). -/
def State.slotFail (s : State) (b : Bool) (code sec : Nat) : State :=
  let t := if code = 4 ∨ code = 5 then (s.failCode b code).set R.NVM_STAT_FAIL_SEC sec else s.failCode b code
  let t1 := (allDoms.filter (fun d => d != 2 && (t.domUp d || t.pwr.rising.contains d))).foldl State.domDown t
  let t2 := ((t1.clearImg .system).clearImg .clocks)
  ({ t2 with mem := t2.mem.filter (fun p => !(decide (0x10000000 ≤ p.1 ∧ p.1 < 0x10200000))), tst := { t2.tst with poison := t2.tst.poison.filter (fun p => p.1 != 0) }, isl := { t2.isl with cfg := none }, pwr := { t2.pwr with rising := [], imgDoms := 0 } }).nextSlot

/-- The headers have been read (R411, R420): codes of invalid ones, transient header reads, and the order by GEN. A boot chain follower has one image, reported in FAIL_A (R359, R422); a device with an NVM becomes the chain master and sends ENUM with COUNT 0 (R358, R359). -/
def State.headers (s : State) (n : NvmInfo) (a b : SlotHdr) : State :=
  let follower := s.chainRole == 2
  let s1 := if follower then s else (s.set R.CAS_BOOT_ROLE 1).emit (.bootEnum 0)
  let s2 := (s1.set R.NVM_DENSITY_KIB n.kib).setFlag R.NVM_STAT_QUAD n.quad
  let s3 := (s2.failCode false a.code).failCode true (if follower then 0 else b.code)
  let s4 := if a.again then s3.count R.NVM_TRANS_CNT_COUNT else s3
  let s5 := if b.again && !follower then s4.count R.NVM_TRANS_CNT_COUNT else s4
  let okA := a.code == 0
  let okB := b.code == 0 && !follower
  let q := if okA && okB then (if a.gen < b.gen then [true, false] else [false, true]) else if okA then [false] else if okB then [true] else []
  ({ s5 with boot := { s5.boot with hdrs := some (a, b), nvm := n, queue := q } }).nextSlot

/-- A section has been read from the slot under way (R421). The segments of the record maps are known once POINTS is loaded: one beyond its entry's LEN fails RINGS (R193). A plan that breaks R352 fails SYSTEM. -/
def State.section_ (s : State) (x : Section) : State :=
  match s.boot.slot, secOf x.type with
  | some b, some sec =>
    if b ≠ x.slotB ∨ x.type.val ≠ s.boot.done + 1 ∨ s.pwr.rising ≠ [] then s
    else if !x.crc1 && !x.crc2 then s.slotFail b 4 x.type
    else
      let s1 := if x.crc1 then s else s.count R.NVM_TRANS_CNT_COUNT
      if !(itemsOk sec s1.boot.spans x.items && x.rest) then s1.slotFail b 5 x.type
      else
        let s2 := x.items.foldl (State.loadItem sec) (s1.clearImg sec)
        if !(s2.secOk sec x.items) then s2.slotFail b 5 x.type
        else if sec == .points && !s2.ringsOk then s2.slotFail b 5 3
        else if sec == .rings && !s2.planOk then s2.slotFail b 5 1
        else
          let s3 := s2.secSet sec x.items
          { s3 with boot := { s3.boot with done := x.type, spans := x.items.map LoadItem.span ++ s3.boot.spans } }
  | _, _ => s

/-- The bytes of a slot (R412). -/
def NvmInfo.slot (n : NvmInfo) : Nat := min (n.kib * 1024 / 2) (2 ^ 26)

/-- The header of the slot under way. -/
def State.slotHdr (s : State) : Option SlotHdr :=
  match s.boot.slot, s.boot.hdrs with
  | some b, some (ha, hb) => some (if b then hb else ha)
  | _, _ => none

/-- A section of the slot under way is loaded; one whose bytes do not have the length that the directory gives is none of it. -/
def State.sectionOf (s : State) (x : SecRead) : State :=
  match s.slotHdr with
  | none => s
  | some h => match x.judge (h.dir.getD (x.type - 1) (0, 0, 0)) with
    | none => s
    | some y => s.section_ y

/-- SECTION_LOAD: only in BOOT, before BOOT_ERR. A follower loads what it has received over the chain (R359). -/
def State.sectionLoad (s : State) (n : NvmInfo) (a b : HdrRead) (x : SecRead) : State :=
  if s.dev ≠ .boot ∨ s.flag R.PWR_STAT_BOOT_ERR = true ∨ s.domUp 2 = false then s
  else if s.chainRole = 2 then
    if !s.chain.has 256 || (s.chainHdr.code == 0 && !s.chain.has s.chainHdr.len) then s
    else
      let t := if s.boot.hdrs.isNone then s.headers ⟨0, false, false, false⟩ s.chainHdr s.chainHdr else s
      t.sectionOf (s.chainRead x)
  else
    let t := if s.boot.hdrs.isNone then s.headers n (s.hdrOf n.slot a) (s.hdrOf n.slot b) else s
    t.sectionOf x

/-- Every channel calibrates, with what its first run and, where that fails, its second one measure (R168); runs that the list does not give measure 0. -/
def State.calAll (s : State) (cals : List (CalRun × CalRun)) : State :=
  if s.domUp 6 then
    (List.range 48).foldl (fun u n =>
      let c := cals.getD n (⟨0, 0, 0, 0⟩, ⟨0, 0, 0, 0⟩)
      let v := (u.calGo n).calEnd n c.1.ca c.1.cb c.1.aa c.1.ab
      if (v.chan n).cal.isSome then v.calEnd n c.2.ca c.2.cb c.2.aa c.2.ab else v) s
  else s

/-- The image is loaded and checked: what start-up leaves, and STANDBY; with AUTORUN, RUN (R397, R403). -/
def State.standby (s : State) (b : Bool) (h : SlotHdr) (digest : List Nat) (cals : List (CalRun × CalRun)) : State :=
  let half := s.boot.nvm.slot
  let s1 := ((((s.setFlag R.NVM_STAT_SLOT b).setFlag R.NVM_STAT_FALLBACK (s.boot.first != some b)).setFlag R.NVM_STAT_SIGNED h.signed).set R.NVM_GEN_GEN h.gen).failCode b 0
  let s2 := (List.range 8).foldl (fun u i => u.set (R.NVM_DIGEST_DIGEST i) (at_ digest i)) s1
  let s3 := (s2.setFlag R.TST_STAT_BOOT_PASS true).set R.BOND_START_RANK (b2n (s.mtr.paired && s.flag R.MTR_STAT_MEMBER))
  let s4 := { s3 with boot := { s3.boot with protect := some (if b then half else 0, half) }, mtr := { s3.mtr with role := if s.mtr.paired then (if s.linkUp then .syncing else .detached) else .alone, selfOk := true } }
  let s5 := if (s4.calAll cals).domUp 1 then (s4.calAll cals).islReset else s4.calAll cals
  let s6 := (s5.setCore 0 { s5.core 0 with pc := s5.boot.entry })
  let s7 := (({ s6 with dev := .standby }.bypassed).wdtStart).sayHello
  if s7.boot.autorun && s7.faultFree then s7.toRun else s7

/-- BOOT_COMPLETE: the checks of codes 6 to 8, and the start-up self-test. -/
def State.bootComplete (s : State) (digest : List Nat) (digestOk keyOk sigOk selfTest : Bool) (cals : List (CalRun × CalRun)) : State :=
  match s.boot.slot, s.boot.hdrs with
  | some b, some (ha, hb) =>
    let h := if b then hb else ha
    let lock := s.flag R.NVM_FUSE_LOCK
    if s.dev ≠ .boot ∨ s.flag R.PWR_STAT_BOOT_ERR = true ∨ s.boot.done ≠ 9 ∨ s.pwr.rising ≠ [] then s
    else if !digestOk then s.slotFail b 6 0
    else if lock && !h.signed then s.slotFail b 7 0
    else if h.signed && !(sigOk && (keyOk || !lock)) then s.slotFail b 8 0
    else if !selfTest then s.setFlag R.PWR_STAT_BOOT_ERR true
    else s.standby b h digest cals
  | _, _ => s

/-! The NVM port (R423, R424). -/

/-- The first `n` bytes of NVM_BUF. -/
def State.nvmBytes (s : State) (n : Nat) : List Nat := (List.range n).map (fun i => bits (s.get (R.NVM_BUF_DATA (i / 4))) (8 * (i % 4)) 8)

/-- A GO write of NVM_CMD: the operation runs on the flash. -/
def State.nvmGo (s : State) (op addr len : Nat) : State :=
  if s.flag R.NVM_CMD_GO then s.setFlag R.NVM_STAT_CMD_ERR true
  else
    let w := ((s.set R.NVM_CMD_OP op).set R.NVM_CMD_LEN len).set R.NVM_ADDR_ADDR addr
    let n := match op with | 3 => 0x1000 | 4 => 0x10000 | _ => len
    let fits := decide (addr + n ≤ s.boot.nvm.kib * 1024)
    let ok := match op with
      | 1 => decide (1 ≤ len ∧ len ≤ 256)
      | 2 => decide (1 ≤ len ∧ len ≤ 256 ∧ addr % 256 + len ≤ 256)
      | 3 => s.boot.nvm.e4 && addr % 0x1000 == 0
      | 4 => s.boot.nvm.e64 && addr % 0x10000 == 0
      | _ => false
    if !(s.dev == .standby || s.inCourses) then w
    else if !ok || !fits then w.setFlag R.NVM_STAT_CMD_ERR true
    else if op != 1 && (match s.boot.protect with | some (b, l) => decide (addr < b + l ∧ b < addr + n) | none => false) then w.setFlag R.NVM_STAT_WP_ERR true
    else ((w.setFlag R.NVM_CMD_GO true).setFlag R.NVM_STAT_BUSY true).emit (.nvm op addr (if op = 2 then s.nvmBytes len else []))

/-- Bytes read arrive in NVM_BUF. -/
def State.nvmFill (s : State) (d : List Nat) : State :=
  d.zipIdx.foldl (fun u (v, i) => u.set (R.NVM_BUF_DATA (i / 4)) (setBits (u.get (R.NVM_BUF_DATA (i / 4))) (8 * (i % 4)) 8 v)) s

/-- An operation ends: a read delivers its bytes, a program or erase whose read-back differs is repeated once (R423). -/
def State.nvmEnd (s : State) (d : List Nat) (ok1 ok2 : Bool) : State :=
  if !s.flag R.NVM_CMD_GO then s
  else
    let t := (s.setFlag R.NVM_CMD_GO false).setFlag R.NVM_STAT_BUSY false
    if s.get R.NVM_CMD_OP = 1 then t.nvmFill (d.take (s.get R.NVM_CMD_LEN))
    else if ok1 then t
    else if ok2 then t.count R.NVM_TRANS_CNT_COUNT
    else t.setFlag R.NVM_STAT_PROG_ERR true

/-- A GO write of NVM_FUSE_PROG (R419, R425). -/
def State.fuse (s : State) (w : Nat) : State :=
  if s.dev ≠ .standby ∨ s.flag R.NVM_FUSE_LOCK = true ∨ 8 < w then s.setFlag R.NVM_STAT_CMD_ERR true
  else if w = 8 then (s.set R.NVM_FUSE_PROG_WORD w).setFlag R.NVM_FUSE_LOCK true
  else (s.set R.NVM_FUSE_PROG_WORD w).orFld (R.NVM_FUSE_HASH_HASH w) (s.get (R.NVM_BUF_DATA 0))

/-! Meanings. -/

/-- SFDP_TIMEOUT (R358): a device in BOOT without an NVM of its own becomes a follower. -/
def execSfdpTimeout (s : State) : Host.Outcome State Fault Refusal :=
  .next { s with flds := (if s.dev = .boot ∧ s.boot.hdrs = none ∧ s.get R.CAS_BOOT_ROLE = 0 then s.set R.CAS_BOOT_ROLE 2 else s).flds, bus := .none, outs := [] }

/-- SECTION_LOAD: the NVM and the two headers as read before the first section, and the section's bytes. -/
def execSectionLoad (nvm : NvmInfo) (a b : HdrRead) (x : SecRead) (s : State) : Host.Outcome State Fault Refusal := pwrDo (s.quiet.sectionLoad nvm a b x) s

/-- BOOT_COMPLETE: the digest in words, whether it matches, whether the keys hash to KEY_HASH, whether the signature checks, the start-up self-test, and the offsets that calibration measured per channel. -/
def execBootComplete (digest : List (BitVec 32)) (digestOk keyOk sigOk selfTest : Bool) (cals : List (CalRun × CalRun)) (s : State) : Host.Outcome State Fault Refusal :=
  pwrDo (s.quiet.bootComplete (digest.map BitVec.toNat) digestOk keyOk sigOk selfTest cals) s

/-- What the NVM port can change. -/
def nvmDo (t s : State) : Host.Outcome State Fault Refusal := .next { s with flds := t.flds, bus := .done, outs := t.outs }

/-- NVM_READ. -/
def execNvmRead (addr : BitVec 27) (len : BitVec 9) (s : State) : Host.Outcome State Fault Refusal := s.atReg 0x80140040 (nvmDo (s.quiet.nvmGo 1 addr.toNat len.toNat) s)

/-- NVM_PROGRAM. -/
def execNvmProgram (addr : BitVec 27) (len : BitVec 9) (s : State) : Host.Outcome State Fault Refusal := s.atReg 0x80140040 (nvmDo (s.quiet.nvmGo 2 addr.toNat len.toNat) s)

/-- ERASE_4K. -/
def execErase4k (addr : BitVec 27) (s : State) : Host.Outcome State Fault Refusal := s.atReg 0x80140040 (nvmDo (s.quiet.nvmGo 3 addr.toNat 0) s)

/-- ERASE_64K. -/
def execErase64k (addr : BitVec 27) (s : State) : Host.Outcome State Fault Refusal := s.atReg 0x80140040 (nvmDo (s.quiet.nvmGo 4 addr.toNat 0) s)

/-- NVM_OP_COMPLETE: the bytes read, and the read-back compare of the first attempt and of the repeat. -/
def execNvmOpComplete (d : List (BitVec 8)) (ok1 ok2 : Bool) (s : State) : Host.Outcome State Fault Refusal :=
  s.live 0x80140000 (.next { s with flds := (s.nvmEnd (d.map BitVec.toNat) ok1 ok2).flds, bus := .none, outs := [] })

/-- FUSE_PROGRAM. -/
def execFuseProgram (w : BitVec 4) (s : State) : Host.Outcome State Fault Refusal := s.atReg 0x80140224 (nvmDo (s.quiet.fuse w.toNat) s)

end Sys2Proof.Machine
end

