-- ==== Sys2Proof/Machine/CapCmd.lean ====
section
/-! DEFINITION. The capture engine's own commands and events (R244, R250, R251, R253, R259, R262). -/
namespace Sys2Proof.Machine

/-- An edge of TRIG_INm at device time `t`: with the edge before it less than 20 ns away the two are a pulse to be ignored; else it counts once 20 ns have passed (R253). -/
def State.trigIn (s0 : State) (m : Nat) (high : Bool) (t : Nat) : State :=
  let s := s0.settlePins t
  if s.cap.pend.any (fun e => e.1 == m) then { s with cap := { s.cap with pend := s.cap.pend.filter (fun e => e.1 != m) } }
  else { s with cap := { s.cap with pend := s.cap.pend ++ [(m, t, high)] } }

/-- The pulse of TRIG_OUTm is over, unless a trigger has extended it (R262). -/
def State.pulseEnd (s : State) (m t : Nat) : State :=
  let until_ := Store.get 0 s.cap.pulses m
  if until_ = 0 ∨ t < until_ then s
  else ({ s with cap := { s.cap with pulses := Store.put 0 s.cap.pulses m 0 } }).emit (.trigOut m false)

/-- What a capture command can change. -/
def capDo (t s : State) : Host.Outcome State Fault Refusal :=
  .next { s with cap := t.cap, cas := t.cas, mem := t.mem, tst := t.tst, flds := t.flds, bus := .none, outs := t.outs }

/-- ARM (R244, R250): the bit is set, and sampled at the next course start. -/
def execArm (m : Fin 8) (s : State) : Host.Outcome State Fault Refusal :=
  s.atReg (0x800C0100 + 0x80 * m.val) (capDo (s.quiet.setFlag (R.CAP_SET_CTRL_ARM m) true) s)

/-- CAPTURE_ABORT (R259). -/
def execCaptureAbort (m : Fin 8) (s : State) : Host.Outcome State Fault Refusal :=
  s.atReg (0x800C0100 + 0x80 * m.val) (capDo (s.quiet.setFlag (R.CAP_SET_CTRL_ABORT m) true) s)

/-- FORCE (R251). -/
def execForce (m : Fin 8) (s : State) : Host.Outcome State Fault Refusal :=
  s.atReg (0x800C0100 + 0x80 * m.val) (capDo (s.quiet.setFlag (R.CAP_SET_CTRL_FORCE m) true) s)

/-- CAPTURE_ROW of a set (R246): its next row, once the samples that bracket it have come. -/
def execCaptureRow (m : Fin 8) (s : State) : Host.Outcome State Fault Refusal := capDo (s.quiet.capRow m) s

/-- TRIG_IN_EDGE. -/
def execTrigInEdge (m : Fin 4) (high : Bool) (t : Nat) (s : State) : Host.Outcome State Fault Refusal := capDo (s.quiet.trigIn m high t) s

/-- TRIG_OUT_PULSE_END at device time `t`. -/
def execTrigOutPulseEnd (m : Fin 4) (t : Nat) (s : State) : Host.Outcome State Fault Refusal := capDo (s.quiet.pulseEnd m t) s

end Sys2Proof.Machine
end

