-- ==== Sys2Proof/Machine/Irq.lean ====
section
/-! DEFINITION. The interrupt lines of the cores (R372). -/
namespace Sys2Proof.Machine

/-- Some field of a family is not zero. -/
def State.anySet (s : State) (n : Nat) (f : Nat → Fld) : Bool := (List.range n).any (fun k => s.get (f k) != 0)

/-- The bits 6 to 12 of RINGk_STAT that RINGk_IRQ_EN enables. -/
def State.ringIrq (s : State) (k : Nat) : Bool :=
  let st := [R.RING_STAT_BREAK k, R.RING_STAT_EPOCH_AHEAD k, R.RING_STAT_DRIFT k, R.RING_STAT_SQUALL k, R.RING_STAT_COLLIDE k, R.RING_STAT_JOIN_OPEN k, R.RING_STAT_OFF_SENT k]
  st.zipIdx.any (fun (f, i) => s.flag f && bit (s.get (R.RING_IRQ_EN_IE k)) i)

/-- A DMA channel's event with its enable. -/
def State.dmaIrq (s : State) (n : Nat) : Bool :=
  (bit (s.get R.DMA_HALF_HALF) n && s.flag (R.DMA_CH_CFG_HALF_IE n)) || (bit (s.get R.DMA_FULL_FULL) n && s.flag (R.DMA_CH_CFG_FULL_IE n)) ||
  (bit (s.get R.DMA_ERR_ERR) n && s.flag (R.DMA_CH_CFG_ERR_IE n))

/-- The level of external interrupt source `i` (R372, R82, R337, R395). A port's answer holds CMD_IE's condition until the port's next GO. -/
def State.irqLevel (s : State) (i : Nat) : Bool :=
  match i with
  | 0 => s.flag R.SCH_EVT_COURSE
  | 1 =>
    (s.flag R.PF_IRQ_EN_DONE_IE && (s.anySet 8 R.PF_DONE_DONE || s.get R.PF_GRP_DONE_GRP_DONE != 0)) ||
    (s.flag R.PF_IRQ_EN_FAULT_IE && s.anySet 8 R.PF_FAULT_FAULT) || (s.flag R.PF_IRQ_EN_CMD_IE && s.pfAns != 0)
  | 2 => s.get R.LE_ENG_ERR_ERR != 0
  | 3 => s.ringIrq 0
  | 4 => s.ringIrq 1
  | 5 => s.ringIrq 2
  | 6 => s.ringIrq 3
  | 7 => (s.get R.CAP_STAT_DONE &&& s.get R.CAP_IRQ_EN_DONE_IE) != 0 || (s.get R.CAP_STAT_TRIG &&& s.get R.CAP_IRQ_EN_TRIG_IE) != 0
  | 8 => [R.MTR_STAT_DIVERGENCE, R.MTR_STAT_PEER_CONFLICT, R.MTR_STAT_HO_ERR, R.MTR_STAT_CLAIM_TIE, R.MTR_STAT_LINK_LOST, R.MTR_STAT_EPOCH_LOST].any s.flag
  | 9 => s.jnl.fwNext.isSome
  | 10 => s.get R.HST_FWQ_RXPTR_HEAD != s.get R.HST_FWQ_RXPTR_TAIL || s.flag R.HST_FWQ_RXPTR_RX_OVF
  | 11 => s.flag R.TIM_STAT_TIME_JUMP || s.flag R.TIM_STAT_MASTER_CHG
  | 12 => (List.range 32).any s.dmaIrq || s.flag R.DMA_STAT_FAULT
  | 13 => s.get R.STP_FLT0_FLT != 0 || s.get R.STP_FLT1_FLT != 0
  | 14 => s.flag R.CLK_STAT_CLK_FAIL || s.flag R.PWR_STAT_VSUP_LOW || s.flag R.PWR_STAT_OVERTEMP
  | _ => false

/-- SCH_IRQ_PEND: the level of each source. -/
def State.irqWord (s : State) : Nat := (List.range 15).foldl (fun v i => if s.irqLevel i then v + 2 ^ i else v) 0

/-- The source that SCH_IRQ_CLAIMn names: the lowest asserted and enabled one. -/
def State.irqClaim (s : State) (n : Nat) : Option Nat := (List.range 15).find? (fun i => s.irqLevel i && bit (s.get (R.SCH_IRQ_EN_EN n)) i)

/-- MTIP, MSIP and MEIP of core `n`. -/
def State.mtip (s : State) (n : Nat) : Bool := decide (s.sch.tcmp.getD n 0 ≤ s.now)
/-- MSIP. -/
def State.msip (s : State) (n : Nat) : Bool := bit (s.get R.SCH_MSIP_MSIP) n
/-- MEIP. -/
def State.meip (s : State) (n : Nat) : Bool := (s.irqClaim n).isSome

end Sys2Proof.Machine
end

