-- ==== Sys2Proof/Machine/RegRead.lean ====
section
/-! DEFINITION. Reads of registers: fields that show what stands elsewhere in the state, counters that a read clears, and halves that a read latches (R13, R35, R82, R148, R169, R216, R239, R263, R264, R296, R327, R362, R386). -/
namespace Sys2Proof.Machine

/-- PWR_STAT.STATE. -/
def Dev.code : Dev → Nat
  | .watch => 1 | .boot => 2 | .standby => 3 | .run => 4 | .safeHold => 5 | .off => 2 | .reset => 2

/-- LE_ENGn_STAT.STATE. -/
def EngSt.code : EngSt → Nat
  | .halted => 0 | .running => 1 | .error => 2

/-- LEFT_MS: time to the watchdog's expiry, saturating. -/
def State.wdtLeft (s : State) : Nat := if s.pwr.wdtOn then min 65535 ((s.pwr.wdtEnd - s.now) / 1000000) else 0

/-- AGE_MS: milliseconds since the last weather report, 255 before the first. -/
def State.wxAge (s : State) : Nat := if s.get R.WX_STAT_AGE_MS = 255 then 255 else min 255 ((s.now - s.mtr.wxAt) / 1000000)

/-- The node that RINGk_NODE_SEL selects, with its address's reset values where it has none. -/
def State.nodeSel (s : State) (k : Nat) : Node := ((s.ring k).node (s.get (R.RING_NODE_SEL_NODE k))).getD (Node.init 0 0 0)

/-- The word that RINGk_BT_SEL selects; 0 for an absent schedule or a place past the end. -/
def State.btWord (s : State) (k : Nat) : Nat :=
  let i := s.get (R.RING_BT_SEL_INDEX k)
  if s.flag (R.RING_BT_SEL_MAP k) then at_ (s.ring k).map i
  else match (s.ring k).scheds.getD (s.get (R.RING_BT_SEL_SCHED k)) none with
    | none => 0
    | some b => match b.ents[i]? with
      | none => 0
      | some e => at_ [e.w0, e.w1, e.w2, e.w3] (s.get (R.RING_BT_SEL_WORD k))

/-- The four words of a range descriptor (R219). -/
def Rng.words (r : Rng) : List Nat := [r.first, r.count, r.type + 16 * r.dir + 256 * r.cls, r.init]

/-- The word that PIM_RNG_SEL selects. -/
def State.rngWord (s : State) : Nat :=
  match s.pim.ranges[s.get R.PIM_RNG_SEL_INDEX]? with
  | none => 0
  | some r => at_ r.words (s.get R.PIM_RNG_SEL_WORD)

/-- The word that PIM_SEG_SEL selects (R227). -/
def State.psegWord (s : State) : Nat :=
  match s.pseg (s.get R.PIM_SEG_SEL_RING) (s.get R.PIM_SEG_SEL_MAP) with
  | none => 0
  | some g => at_ [g.first, g.count + 512 * g.dir] (s.get R.PIM_SEG_SEL_WORD)

/-- The output of the block that SAF_BLK_SEL selects, in the last cycle. -/
def State.blkOut (s : State) : Bool := match s.isl.ev.blks[s.get R.SAF_BLK_SEL_BLOCK]? with | some b => b.out | none => false

/-- The client slot that JNL_CL_SEL selects. -/
def State.clSel (s : State) : Option JCl := Store.get none s.jnl.cls (s.get R.JNL_CL_SEL_SLOT)

/-- The clockIdentity of the selected master, 0 without one. -/
def State.masterId (s : State) : Nat := match s.tim.master with | some a => a.src | none => 0

/-- The instant that CAP_SETm_MISS_T shows, 0 without a missed trigger. -/
def State.missT (s : State) (m : Nat) : Nat := (s.cset m).missT.getD 0

/-- Fields of a loop engine that show its state (R148). What PC reads of a RUNNING engine is a free value, log entry 2. -/
def State.engView (s : State) (f : Fld) : Option Nat :=
  let n := (f.addr - 0x80090000) / 0x40
  let e := s.eng n
  match (f.addr - 0x80090000) % 0x40, f.lo with
  | 0x00, 0 => some 0
  | 0x00, 1 => some (b2n e.haltReq)
  | 0x04, 0 => some e.st.code
  | 0x04, 2 => some (b2n (e.st == .running && !e.asleep))
  | 0x04, 4 => some e.errCode
  | 0x04, 8 => some e.queue.length
  | 0x0C, 0 => some (if e.st = .running then Config.freeNat s.free else e.pc)
  | 0x14, 0 => some e.dig
  | 0x28, 0 => some e.busy
  | _, _ => none

/-- Fields of a ring that show its selected node and word (R216). -/
def State.ringView (s : State) (f : Fld) : Option Nat :=
  let k := (f.addr - 0x80040000) / 0x10000
  let n := s.nodeSel k
  let uid := if n.claimed then n.claimUid else n.uid
  match f.addr % 0x10000, f.lo with
  | 0x44, 0 => some (b2n n.claimed)
  | 0x44, 1 => some (b2n n.present)
  | 0x44, 2 => some (b2n n.drift)
  | 0x44, 3 => some (b2n n.off)
  | 0x44, 8 => some n.kind
  | 0x48, 0 => some (ux 16 n.ofsE)
  | 0x48, 16 => some (ux 16 n.ofsW)
  | 0x4C, 0 => some n.lost
  | 0x4C, 16 => some n.edge
  | 0x4C, 24 => some n.drifts
  | 0x50, 0 => some uid
  | 0x54, 0 => some (uid / 2 ^ 32)
  | 0x58, 0 => some n.dlyE
  | 0x5C, 0 => some n.dlyW
  | 0x84, 0 => some (s.btWord k)
  | _, _ => none

/-- Fields of the stepper block that show a channel's state, the permission, and table 0 (R152, R158, R169). -/
def State.stpView (s : State) (f : Fld) : Option Nat :=
  let o := f.addr - 0x800A0000
  if 0x4000 ≤ o then
    let i := (o - 0x4000) / 4
    some (ux 16 (cosTab i) + 65536 * ux 16 (sinTab i))
  else if o = 0xC14 then
    match f.lo with
    | 0 => some (b2n s.permit)
    | 1 => some (b2n s.mtr.peerAct)
    | _ => some (b2n (s.mtr.paired && s.mtr.fence == 0))
  else if o < 0xC00 ∧ o % 0x40 = 0x30 then
    match f.lo with
    | 0 => some (s.chanState (o / 0x40))
    | 3 => some (b2n (s.chan (o / 0x40)).stall)
    | _ => none
  else if o < 0xC00 ∧ o % 0x40 = 0x34 then some (ux 16 (rne (((s.chan (o / 0x40)).ph (f.lo != 0)).delta * 16)))
  else none

/-- Fields of the mortar and journal block that show the pair and the journal (R327). -/
def State.mtrView (s : State) (f : Fld) : Option Nat :=
  match f.addr % 0x10000, f.lo with
  | 0x004, 1 => some s.mtr.role.code
  | 0x004, 5 => some (b2n s.mtr.pairAct)
  | 0x004, 6 => some (b2n s.mtr.peerAct)
  | 0x100, 8 => some s.wxAge
  | 0x200, 0 => some s.jnl.used
  | 0x204, 0 => some (match s.jnl.fwNext with | some (i, _) => i | none => 0)
  | 0x204, 8 => some (b2n s.jnl.fwNext.isSome)
  | 0x21C, 0 => some (match s.clSel with | some c => c.client | none => 0)
  | 0x21C, 16 => some (b2n s.clSel.isSome)
  | 0x220, 0 => some (match s.clSel with | some c => c.next | none => 0)
  | _, _ => none

/-- Fields of the scheduler's registers that show its state and the interrupt lines (R386). -/
def State.schView (s : State) (f : Fld) : Option Nat :=
  let o := f.addr % 0x10000
  if 0x30 ≤ o ∧ o < 0x40 then some (s.sch.cur.getD ((o - 0x30) / 4) 0)
  else if o = 0x50 then some s.irqWord
  else if 0x54 ≤ o ∧ o < 0x64 then some ((s.irqClaim ((o - 0x54) / 4)).getD 0xFF)
  else none

/-- The measured supply while the device is powered: a free value (log entry 2). -/
def State.mvNow (s : State) : Nat := if s.dev = .off then 0 else Config.freeNat s.free / 65536 % 65536

/-- What a field shows that no register holds; none where the field's own value is read. -/
def State.shown (s : State) (f : Fld) : Option Nat :=
  match (f.addr - 0x80000000) / 0x10000, f.addr % 0x10000, f.lo with
  | 2, 0x00, 0 => some s.dev.code
  | 2, 0x20, 16 => some s.wdtLeft
  | 2, 0x30, 0 => some s.tjNow
  | 2, 0x30, 16 => some s.tjMax
  | 2, 0x34, 0 => some s.mvNow
  | 3, 0x00, 4 => if s.crs.swTo.isSome then some 1 else none
  | 3, 0x08, 0 => some s.crs.cnt
  | 4, _, _ => s.ringView f
  | 5, _, _ => s.ringView f
  | 6, _, _ => s.ringView f
  | 7, _, _ => s.ringView f
  | 8, 0x00, 0 => some (b2n (s.dev == .run))
  | 9, o, _ => if o < 0x300 then s.engView f else none
  | 10, _, _ => s.stpView f
  | 11, 0x00, 1 => if s.mtr.holder || (!s.mtr.paired && s.dev == .run) then some 1 else none
  | 11, 0x14, 0 => some s.rngWord
  | 11, 0x1C, 0 => some s.psegWord
  | 11, o, _ => if 0x40 ≤ o ∧ o < 0x60 then some (if f.lo = 0 then (s.servedWord ((o - 0x40) / 4)).1 else (s.servedWord ((o - 0x40) / 4)).2) else none
  | 12, 0x0C, 0 => some s.cap.cascT
  | 12, o, lo => if 0x100 ≤ o ∧ o < 0x500 ∧ o % 0x80 = 0x4C then some (s.missT ((o - 0x100) / 0x80)) else if 0x100 ≤ o ∧ o < 0x500 ∧ o % 0x80 = 0x40 ∧ lo = 0 then some ((s.cset ((o - 0x100) / 0x80)).stNow s.now) else none
  | 13, 0x48, 0 => some (b2n s.blkOut)
  | 14, _, _ => s.mtrView f
  | 17, 0x00, 0 => some s.now
  | 17, 0x0C, 0 => if !s.root && (s.dev == .standby || s.dev == .run || s.dev == .safeHold) then some 4 else none
  | 17, 0x20, 0 => some s.masterId
  | 18, _, _ => s.schView f
  | 21, 0x0C, 16 => some s.roundAge
  | 22, 0x00, 0 => some s.gpioWord
  | _, _, _ => none

/-- What a field reads as (R13): a write-only field reads 0. -/
def State.view (s : State) (f : Fld) : Nat :=
  if f.acc = .wo then 0 else ((s.shown f).getD (s.get f)) % 2 ^ f.w

/-- The word that a register reads as. -/
def State.regWord (s : State) (fs : List Fld) : Nat := fs.foldl (fun v f => v + s.view f * 2 ^ f.lo) 0

/-- Counters are cleared as they are read (R13). -/
def State.clearRc (s : State) (fs : List Fld) : State := fs.foldl (fun u f => if f.acc = .rc then u.set f 0 else u) s

/-- A 64-bit value read in two halves: its high half is latched for the read to come. -/
def State.latch (s : State) (f : Fld) (v : Nat) : State := s.set f (v / 2 ^ 32)

/-- What a read of the register at `a` does beside its counters: latches (R35, R148, R263, R264, R362), the counts of the selected node (R216), the next missed trigger's stamp (R256), the measurement of TJ and MV, and a draw where the value read is free. -/
def State.readEffect (s : State) (a : Nat) : State :=
  let o := a % 0x10000
  match (a - 0x80000000) / 0x10000 with
  | 2 =>
    if o = 0x30 then { (s.set R.PWR_TEMP_TJ s.tjNow).set R.PWR_TEMP_TJ_MAX s.tjMax with free := s.free + 1 }
    else if o = 0x34 then { s.set R.PWR_VSUP_MV s.mvNow with free := s.free + 1 }
    else s
  | 3 => if o = 0x08 then s.latch R.BOND_CRS_CNT_HI_CNT_HI s.crs.cnt else s
  | 4 | 5 | 6 | 7 =>
    let k := (a - 0x80040000) / 0x10000
    if o = 0x4C then s.setRing k ((s.ring k).updNode (s.get (R.RING_NODE_SEL_NODE k)) (fun n => { n with lost := 0, edge := 0, drifts := 0 })) else s
  | 9 =>
    let n := o / 0x40
    if o < 0x300 ∧ o % 0x40 = 0x14 then (s.latch (R.LE_ENG_DIG_HI_DIG_HI n) (s.eng n).dig).set (R.LE_ENG_DIG_CRS_DIG_CRS n) (s.eng n).digCrs
    else if o < 0x300 ∧ o % 0x40 = 0x0C then { s with free := s.free + 1 }
    else s
  | 11 => if 0x40 ≤ o ∧ o < 0x60 then { s with free := s.free + 1 } else s
  | 12 =>
    let m := (o - 0x100) / 0x80
    if o = 0x0C then s.latch R.CAP_CASC_T_HI_T_HI s.cap.cascT
    else if 0x100 ≤ o ∧ o < 0x500 ∧ o % 0x80 = 0x4C then s.latch (R.CAP_SET_MISS_T_HI_T_HI m) (s.missT m)
    else if 0x100 ≤ o ∧ o < 0x500 ∧ o % 0x80 = 0x48 then s.setCset m { s.cset m with missT := none }
    else s
  | 17 =>
    if o = 0x00 then s.latch R.TIM_NOW_HI_NOW_HI s.now
    else if o = 0x20 then s.latch R.TIM_MASTER_HI_ID_HI s.masterId
    else s
  | _ => s

/-- A read of the register at `a`: the word and the state after. -/
def State.regRead (s : State) (a : Nat) (fs : List Fld) : Nat × State := (s.regWord fs, (s.readEffect a).clearRc fs)

end Sys2Proof.Machine
end

