-- ==== Sys2Proof/Machine/Sched.lean ====
section
/-! DEFINITION. The hardware scheduler: thread states, the four operations, dispatch, prefetched slots and context switches (R370, R372 to R377). -/
namespace Sys2Proof.Machine

/-! CSRs that a switch touches (R375): mstatus.MIE, and PMP entries 8 to 15. -/

/-- A CSR of a core by number. -/
def Core.getCsr (c : Core) (k : Nat) : Nat := Store.get 0 c.csr k

/-- Write a CSR. -/
def Core.setCsr (c : Core) (k v : Nat) : Core := { c with csr := Store.put 0 c.csr k (v % 2 ^ 32) }

/-- mstatus. -/
def csrMstatus : Nat := 0x300
/-- fcsr, held as one register. -/
def csrFcsr : Nat := 0x003

/-- mstatus.MIE. -/
def Core.mie (c : Core) : Bool := bit (c.getCsr csrMstatus) 3

/-- A PMP configuration word of entries 8 to 15 as the core holds it: L is ignored and reads 0 (R369), bits 5 and 6 of a byte read 0, and W without R is not held. -/
def noLock (v : Nat) : Nat :=
  (List.range 4).foldl (fun w j => let b := bits v (8 * j) 8; w + 2 ^ (8 * j) * (if b % 4 = 2 then b &&& 0x1D else b &&& 0x1F)) 0

/-- The context of a core's thread as the words 0 to 76 of its record (R373). -/
def Core.context (c : Core) : List Nat :=
  c.x.tail ++ [c.pc] ++ c.f ++ [c.getCsr csrFcsr, b2n c.machine + 2 * b2n c.mie, c.pw, c.getCsr 0x3A2, c.getCsr 0x3A3] ++ (List.range 8).map (fun i => c.getCsr (0x3B8 + i))

/-- A core that takes a context: MODE is restored, PMP entries 8 to 15 are loaded, the reservation is lost and WFI ends (R367, R369, R371, R375). -/
def Core.takeContext (c : Core) (w : List Nat) : Core :=
  let mode := at_ w 65
  let c1 := { c with x := 0 :: w.take 31, pc := at_ w 31 / 2 * 2, f := (w.drop 32).take 32, machine := bit mode 0, res := none, wfi := false, pw := at_ w 66 }
  let c2 := ((c1.setCsr csrFcsr (at_ w 64 % 256)).setCsr csrMstatus (setBit (c.getCsr csrMstatus) 3 (bit mode 1))).setCsr 0x3A2 (noLock (at_ w 67)) |>.setCsr 0x3A3 (noLock (at_ w 68))
  (List.range 8).foldl (fun u i => u.setCsr (0x3B8 + i) (at_ w (69 + i))) c2

/-! Thread records (R373). -/

/-- The address of a thread's record. -/
def State.tcb (s : State) (t : Nat) : Nat := s.get R.SCH_TCB_BASE_BASE * 2 ^ 17 + 512 * t

/-- The 77 words of a record that a prefetch reads. -/
def State.record (s : State) (t : Nat) : List Nat := (List.range 77).map (fun i => s.load (s.tcb t + 4 * i) 4)

/-- A context is written back. -/
def State.writeBack (s : State) (t : Nat) (w : List Nat) : State := s.sramWrite (w.zipIdx.flatMap (fun (v, i) => cells (s.tcb t + 4 * i) v 4))

/-! Threads. -/

/-- A thread that the scheduler has not seen: DORMANT. -/
def Thr.init : Thr := ⟨.dormant, 0, 0, 0⟩

/-- Thread `t`. -/
def State.thr (s : State) (t : Nat) : Thr := Store.get Thr.init s.sch.thr t

/-- Replace thread `t`. -/
def State.setThr (s : State) (t : Nat) (x : Thr) : State := { s with sch := { s.sch with thr := Store.put Thr.init s.sch.thr t x } }

/-- The thread running on core `n`. -/
def State.running (s : State) (n : Nat) : Nat := s.sch.cur.getD n 0

/-- Thread `t` becomes READY, last in its priority (R375). -/
def State.makeReady (s : State) (t : Nat) (x : Thr) : State :=
  let u := s.setThr t { x with st := .ready, ord := s.sch.ord }
  { u with sch := { u.sch with ord := u.sch.ord + 1 } }

/-! Dispatch (R375, R376). -/

/-- How much it takes to displace what runs on core `n`: 0 for the idle thread or one that is to leave, above that by priority; a thread that yields also gives way to its own priority. -/
def State.hold (s : State) (n : Nat) : Nat :=
  let t := s.running n
  if 252 ≤ t ∨ (Store.get none s.sch.out n).isSome = true then 0
  else if s.sch.yields.contains n then 2 * (s.thr t).prio + 1
  else 2 * (s.thr t).prio + 2

/-- Insert into a list sorted by priority, then by order. -/
def putReady (x : Nat × Thr) : List (Nat × Thr) → List (Nat × Thr)
  | [] => [x]
  | y :: r => if y.2.prio < x.2.prio ∨ (y.2.prio = x.2.prio ∧ x.2.ord < y.2.ord) then x :: y :: r else y :: putReady x r

/-- The READY threads in the order in which they are to run. -/
def State.readyList (s : State) : List (Nat × Thr) := (s.sch.thr.filter (fun x => x.2.st == .ready)).foldl (fun l x => putReady x l) []

/-- The core that a READY thread is to have, among cores without one: the one that runs the lowest, and of those the lowest number. -/
def State.coreFor (s : State) (x : Thr) (taken : List Nat) : Option Nat :=
  ([0, 1, 2, 3].filter (fun n => s.coreRuns n && bit x.affin n && !taken.contains n && decide (s.hold n < 2 * x.prio + 2))).foldl
    (fun b n => match b with
      | none => some n
      | some m => if s.hold n < s.hold m then some n else some m) none

/-- Which core is to receive which thread: READY threads in order, then the idle thread of a core whose thread is to leave. -/
def State.assign (s : State) : List (Nat × Nat) :=
  let a := s.readyList.foldl (fun l (t, x) => match s.coreFor x (l.map (·.1)) with | some n => l ++ [(n, t)] | none => l) []
  a ++ ([0, 1, 2, 3].filter (fun n => (Store.get none s.sch.out n).isSome && !(a.map (·.1)).contains n)).map (fun n => (n, 252 + n))

/-- The slots follow the assignment: a slot that keeps its thread keeps what it has read, another reads its thread's record, and a slot without a thread is empty. A yield that nothing takes up is over. -/
def State.dispatch (s : State) : State :=
  let a := s.assign
  let slots := [0, 1, 2, 3].foldl (fun l n => match a.find? (fun x => x.1 == n) with
    | none => Store.put none l n none
    | some (_, t) => match Store.get none s.sch.slot n with
      | some (t', _) => if t' = t then l else Store.put none l n (some (t, s.record t))
      | none => Store.put none l n (some (t, s.record t))) s.sch.slot
  { s with sch := { s.sch with slot := slots, yields := s.sch.yields.filter (fun n => (Store.get none slots n).isSome), atOnce := s.sch.atOnce.filter (fun n => (Store.get none slots n).isSome) } }

/-! The operations (R374, R376). -/

/-- The operations. -/
inductive SchOp where
  | makeReady | block | cancel | yield
  deriving DecidableEq, Repr

/-- The operation that OP names. -/
def schOpOf (v : Nat) : SchOp :=
  match v % 4 with
  | 0 => .makeReady | 1 => .block | 2 => .cancel | _ => .yield

/-- SCH_RESn shows an operation's result and its thread. -/
def State.schRes (s : State) (n r t : Nat) : State := (s.set (R.SCH_RES_RESULT n) r).set (R.SCH_RES_THREAD n) t

/-- What a RUNNING thread becomes at its core's switch; a BLOCK of the thread itself makes the next boundary a switch point (R374, R375). -/
def State.leave (s : State) (n t : Nat) (st : ThrSt) : State :=
  match s.sch.cur.findIdx? (fun x => x == t) with
  | none => s
  | some m => { s with sch := { s.sch with out := Store.put none s.sch.out m (some st), atOnce := if m = n ∧ st = .blocked then n :: s.sch.atOnce else s.sch.atOnce } }

/-- An operation of core `n` on thread `t` is applied; `beat` says that another core's operation of higher precedence on the thread acts in the same cycle. -/
def State.schOp (s : State) (n : Nat) (op : SchOp) (t : Nat) (beat : Bool) : State :=
  let cur := s.running n
  match op with
  | .yield =>
    if 252 ≤ cur then s.schRes n 3 cur
    else (({ s with sch := { s.sch with yields := n :: s.sch.yields, atOnce := n :: s.sch.atOnce } }).schRes n 0 cur).dispatch
  | _ =>
    if 252 ≤ t then s.schRes n 3 t
    else if beat then s.schRes n 2 t
    else
      let x := s.thr t
      match op, x.st with
      | .makeReady, .ready | .makeReady, .running => s.schRes n 1 t
      | .makeReady, _ =>
        let prio := s.load (s.tcb t + 264) 1
        let affin := s.load (s.tcb t + 265) 1 % 16
        if 31 < prio ∨ affin = 0 then s.schRes n 5 t
        else ((s.makeReady t { x with prio := prio, affin := affin }).schRes n 0 t).dispatch
      | .block, .dormant => s.schRes n 4 t
      | .block, .blocked => s.schRes n 1 t
      | .block, .ready => ((s.setThr t { x with st := .blocked }).schRes n 0 t).dispatch
      | .block, .running => ((s.leave n t .blocked).schRes n 0 t).dispatch
      | _, .dormant => s.schRes n 1 t
      | _, .running => ((s.leave n t .dormant).schRes n 0 t).dispatch
      | _, _ => ((s.setThr t { x with st := .dormant }).schRes n 0 t).dispatch

/-! Switches (R375). -/

/-- Core `n` is at a switch point: user mode, or mstatus.MIE set, or the boundary after a thread's own BLOCK or YIELD. -/
def State.switchPoint (s : State) (n : Nat) : Bool := !(s.core n).machine || (s.core n).mie || s.sch.atOnce.contains n

/-- The boundary after a thread's own request has passed. -/
def Sch.past (h : Sch) (n : Nat) : Sch := { h with atOnce := h.atOnce.filter (· != n) }

/-- Core `n` takes its slot: the outgoing context is written back, but under CANCEL, and the outgoing thread becomes what was asked of it, or READY; the switch takes 24 core cycles. -/
def State.switchNow (s : State) (n t : Nat) (w : List Nat) : State :=
  let o := s.running n
  let goes := Store.get none s.sch.out n
  let s1 := if goes = some .dormant then s else s.writeBack o (s.core n).context
  let s2 := if 252 ≤ o then s1 else match goes with
    | some st => s1.setThr o { s1.thr o with st := st }
    | none => s1.makeReady o (s1.thr o)
  let s3 := if 252 ≤ t then s2 else s2.setThr t { s2.thr t with st := .running }
  let s4 := s3.setCore n { (s3.core n).takeContext w with cyc := ((s3.core n).cyc + 24) % 2 ^ 64 }
  { s4 with sch := { s4.sch with cur := s4.sch.cur.set n t, slot := Store.put none s4.sch.slot n none, out := Store.put none s4.sch.out n none, yields := s4.sch.yields.filter (· != n), atOnce := s4.sch.atOnce.filter (· != n) } }.dispatch

/-- The switch that is due on core `n`, if it is at a switch point. -/
def State.switchDue (s : State) (n : Nat) : Option State :=
  match Store.get none s.sch.slot n with
  | some (t, w) => if s.coreRuns n && s.switchPoint n then some (s.switchNow n t w) else none
  | none => none

/-- A core is released into its idle thread, in machine mode with the context of the thread's record (R370). -/
def State.coreRelease (s : State) (n : Nat) : State :=
  if n = 0 ∨ bit (s.get R.SCH_CORE_RUN_RUN) (n - 1) = true then s
  else
    let s1 := s.set R.SCH_CORE_RUN_RUN (setBit (s.get R.SCH_CORE_RUN_RUN) (n - 1) true)
    (s1.setCore n { (s1.core n).takeContext (s1.record (252 + n)) with machine := true }).dispatch

/-! Timers and lines (R371, R372). -/

/-- The interrupts pending at core `n`, as mip has them. -/
def State.mip (s : State) (n : Nat) : Nat := 8 * b2n (s.msip n) + 128 * b2n (s.mtip n) + 2048 * b2n (s.meip n)

/-- A pending interrupt that mie enables ends WFI (R371). -/
def State.wfiOver (s : State) (n : Nat) : Bool := (s.mip n &&& (s.core n).getCsr 0x304) != 0

/-- Core `n` leaves WFI if an interrupt is pending for it. -/
def State.wake1 (s : State) (n : Nat) : State := if s.wfiOver n then s.setCore n { s.core n with wfi := false } else s

/-- A write of SCH_TCMPn_HI: both halves take effect (R372). -/
def State.tcmpHi (s : State) (n v : Nat) : State :=
  let t := s.set (R.SCH_TCMP_HI_TCMP_HI n) v
  { t with sch := { t.sch with tcmp := t.sch.tcmp.set n (v % 2 ^ 32 * 2 ^ 32 + t.get (R.SCH_TCMP_LO_TCMP_LO n)) } }

/-! Meanings. -/

/-- What the scheduler can change. -/
def schDo (t s : State) : Host.Outcome State Fault Refusal :=
  .next { s with sch := t.sch, cores := t.cores, mem := t.mem, tst := t.tst, flds := t.flds, bus := .done, outs := [] }

/-- MAKE_READY by core `n` on thread `t`. -/
def execMakeReady (n : Fin 4) (t : BitVec 8) (beat : Bool) (s : State) : Host.Outcome State Fault Refusal :=
  s.atReg (0x80120010 + 8 * n.val) (schDo (s.schOp n .makeReady t.toNat beat) s)

/-- BLOCK. -/
def execBlock (n : Fin 4) (t : BitVec 8) (beat : Bool) (s : State) : Host.Outcome State Fault Refusal :=
  s.atReg (0x80120010 + 8 * n.val) (schDo (s.schOp n .block t.toNat beat) s)

/-- CANCEL, which nothing precedes (R376). -/
def execCancel (n : Fin 4) (t : BitVec 8) (s : State) : Host.Outcome State Fault Refusal :=
  s.atReg (0x80120010 + 8 * n.val) (schDo (s.schOp n .cancel t.toNat false) s)

/-- YIELD. -/
def execYield (n : Fin 4) (s : State) : Host.Outcome State Fault Refusal :=
  s.atReg (0x80120010 + 8 * n.val) (schDo (s.schOp n .yield 0 false) s)

/-- CONTEXT_SWITCH: core `n` takes its slot if it is at a switch point. -/
def execContextSwitch (n : Fin 4) (s : State) : Host.Outcome State Fault Refusal :=
  let t := (s.switchDue n).getD s
  .next { s with sch := t.sch, cores := t.cores, mem := t.mem, tst := t.tst, bus := .none, outs := [] }

/-- CORE_RELEASE: a write of SCH_CORE_RUN that sets bit `n`. -/
def execCoreRelease (n : Fin 4) (s : State) : Host.Outcome State Fault Refusal :=
  s.atReg 0x80120004 (schDo (s.coreRelease n) s)

/-- TCMP_HI_WRITE. -/
def execTcmpHiWrite (n : Fin 4) (v : BitVec 32) (s : State) : Host.Outcome State Fault Refusal :=
  s.atReg (0x80120084 + 8 * n.val) (schDo (s.tcmpHi n v.toNat) s)

/-- TIMER_COMPARE_MATCH: device time reaches the compare of core `n`, and MTIP is pending. -/
def execTimerCompareMatch (n : Fin 4) (s : State) : Host.Outcome State Fault Refusal :=
  let t := ({ s with now := max s.now (s.sch.tcmp.getD n 0) }).wake1 n
  .next { s with now := t.now, cores := t.cores, bus := .none, outs := [] }

/-- EXTERNAL_INTERRUPT: a source that asserts and is enabled makes MEIP pending on core `n`. -/
def execExternalInterrupt (n : Fin 4) (src : Fin 15) (s : State) : Host.Outcome State Fault Refusal :=
  let t := if s.irqLevel src && bit (s.get (R.SCH_IRQ_EN_EN n)) src then s.wake1 n else s
  .next { s with cores := t.cores, bus := .none, outs := [] }

end Sys2Proof.Machine
end

