-- ==== Sys2Proof/Machine/Bus.lean ====
section
/-! DEFINITION. Reads over the interconnect: the address map, access sizes, gates and domains, holes (R12, R19 to R22, R231 to R233, R393, R405, R445). -/
namespace Sys2Proof.Machine

/-- The requester is the DMA engine. -/
def Req.isDma : Req → Bool
  | .dma => true
  | .core _ => false

/-- A size that the memories accept, naturally aligned: 1, 2 or 4 bytes, and 8 from the DMA engine (R445). -/
def sizeOk (q : Req) (a n : Nat) : Bool := ([1, 2, 4].contains n || (n == 8 && q.isDma)) && a % n == 0

/-- A size that the process image accepts: words, and doublewords from the DMA engine (R231). -/
def pimSizeOk (q : Req) (a n : Nat) : Bool := (n == 4 || (n == 8 && q.isDma)) && a % n == 0

/-- The hole inside a loop-engine window (R21). -/
def leHole (a : Nat) : Bool := decide (0x8000 ≤ (a - 0x50000000) % 0x40000 ∧ (a - 0x50000000) % 0x40000 < 0x20000)

/-- Bytes of the boot ROM, which are free values. -/
def romWord (a : Nat) : Nat → Nat
  | 0 => 0
  | n + 1 => Config.romByte a % 256 + 256 * romWord (a + 1) n

/-- Bytes of the journal window (R321). -/
def State.jnlWord (s : State) (a : Nat) : Nat → Nat
  | 0 => 0
  | n + 1 => s.jnlByte (a - 0x60000000) % 256 + 256 * s.jnlWord (a + 1) n

/-- A read of the process image (R231, R233): a word of a record, or the whole record in one access. -/
def State.pimRead (s : State) (q : Req) (a n : Nat) : Nat × State :=
  let p := (a - 0x20000000) / 8
  if n = 8 then (s.ptValue p + 2 ^ 32 * s.ptSecond p, s)
  else if a % 8 = 0 then s.ptReadValue q p
  else s.ptReadSecond q p

/-- What a read of a row answers when its memory is powered and the access is one it accepts. -/
def State.rowRead (s : State) (r : Region) (q : Req) (a n : Nat) : State × Bus :=
  match r with
  | .rom => (s, .data (romWord a n))
  | .jnl => (s, .data (s.jnlWord a n))
  | .pim => ((s.pimRead q a n).2.serve q.pimNo 1, .data (s.pimRead q a n).1)
  | _ => (s, .data (s.load a n))

/-- A read of `n` bytes at `a` by a requester: what the interconnect answers, and the state after. A poisoned word is a bus error, and in the journal it frees its entry (R321, R405). -/
def State.busRead (s : State) (q : Req) (a n : Nat) : State × Bus :=
  match region a with
  | none => (s, .error)
  | some .regs =>
    if !s.reach a then (s.gatedAcc a, .data 0)
    else if n ≠ 4 ∨ a % 4 ≠ 0 then (s, .error)
    else match fieldsAt a with
      | none => (s, .error)
      | some fs => ((s.regRead a fs).2, .data (s.regRead a fs).1)
  | some r =>
    if !s.domUp (memDom a) then (s.gatedAcc a, .data 0)
    else if !(if r = .pim then pimSizeOk q a n else sizeOk q a n) then (s, .error)
    else if r = .le ∧ leHole a = true then (s, .error)
    else if s.poisoned a n then (if r = .jnl then s.jRead (a / 1024 % 256) else s, .error)
    else s.rowRead r q a n

/-! Meanings of the reads that have rows of their own. -/

/-- What a read of a register can change. -/
def readDo (r : State × Bus) (s : State) : Host.Outcome State Fault Refusal :=
  .next { s with flds := r.1.flds, rings := r.1.rings, cap := r.1.cap, free := r.1.free, pim := r.1.pim, mtr := r.1.mtr, bus := r.2, outs := [] }

/-- COUNTER_READ_CLEAR: a word read of the register at `a`. -/
def execCounterReadClear (q : Req) (a : BitVec 32) (s : State) : Host.Outcome State Fault Refusal := readDo (s.busRead q a.toNat 4) s

/-- CRS_CNT_LO_READ. -/
def execCrsCntLoRead (q : Req) (s : State) : Host.Outcome State Fault Refusal := readDo (s.busRead q 0x80030008 4) s

/-- DIG_LO_READ. -/
def execDigLoRead (q : Req) (n : Fin 12) (s : State) : Host.Outcome State Fault Refusal := readDo (s.busRead q (0x80090014 + 0x40 * n.val) 4) s

/-- TIM_NOW_LO_READ. -/
def execTimNowLoRead (q : Req) (s : State) : Host.Outcome State Fault Refusal := readDo (s.busRead q 0x80110000 4) s

/-- TIM_MASTER_LO_READ. -/
def execTimMasterLoRead (q : Req) (s : State) : Host.Outcome State Fault Refusal := readDo (s.busRead q 0x80110020 4) s

/-- CAP_CASC_T_LO_READ. -/
def execCapCascTLoRead (q : Req) (s : State) : Host.Outcome State Fault Refusal := readDo (s.busRead q 0x800C000C 4) s

/-- MISS_T_LO_READ. -/
def execMissTLoRead (q : Req) (m : Fin 8) (s : State) : Host.Outcome State Fault Refusal := readDo (s.busRead q (0x800C014C + 0x80 * m.val) 4) s

/-- MISS_CNT_READ. -/
def execMissCntRead (q : Req) (m : Fin 8) (s : State) : Host.Outcome State Fault Refusal := readDo (s.busRead q (0x800C0148 + 0x80 * m.val) 4) s

end Sys2Proof.Machine
end

