-- ==== Sys2Proof/Machine/DmaChain.lean ====
section
/-! DEFINITION. The DMA engine: descriptors and their checks, requests, ABORT, and the prefetch stop (R379 to R385). -/
namespace Sys2Proof.Machine

/-! Descriptors (R379). -/

/-- KIND. -/
def DDesc.kind (d : DDesc) : Nat := bits d.ctrl 0 2
/-- WIDTH. -/
def DDesc.width (d : DDesc) : Nat := bits d.ctrl 2 2
/-- HALF_EV. -/
def DDesc.halfEv (d : DDesc) : Bool := bit d.ctrl 4
/-- FULL_EV. -/
def DDesc.fullEv (d : DDesc) : Bool := bit d.ctrl 5
/-- The list elements, 0 for other kinds. -/
def DDesc.listLen (d : DDesc) : Nat := if 2 ≤ d.kind then d.rows else 0

/-- A descriptor of eight words. -/
def descOf (w : List Nat) : DDesc := ⟨at_ w 0, at_ w 1, at_ w 2, at_ w 3, sx 32 (at_ w 4), sx 32 (at_ w 5), at_ w 6, at_ w 7⟩

/-- The bytes of one beat: a word, a doubleword, or one byte where any width will do. -/
def DDesc.beat (d : DDesc) : Nat := match d.width with | 1 => 4 | 2 => 8 | _ => 1

/-- Where the rows of a 2-D side start. -/
def rowStarts (a : Nat) (stride : Int) (rows : Nat) : List Nat := (List.range rows).map (fun (i : Nat) => ux 32 ((a : Int) + stride * (i : Int)))

/-- The ranges read, in order: start and length. -/
def DDesc.srcs (d : DDesc) (el : List (Nat × Nat)) : List (Nat × Nat) :=
  match d.kind with
  | 0 => [(d.src, d.count)]
  | 1 => (rowStarts d.src d.ss d.rows).map (fun a => (a, d.count))
  | 2 => el
  | _ => [(d.src, (el.map (·.2)).sum)]

/-- The ranges written, in order. -/
def DDesc.dsts (d : DDesc) (el : List (Nat × Nat)) : List (Nat × Nat) :=
  match d.kind with
  | 0 => [(d.dst, d.count)]
  | 1 => (rowStarts d.dst d.ds d.rows).map (fun a => (a, d.count))
  | 2 => [(d.dst, (el.map (·.2)).sum)]
  | _ => el

/-- The bytes of a descriptor. -/
def DDesc.total (d : DDesc) (el : List (Nat × Nat)) : Nat := ((d.srcs el).map (·.2)).sum

/-- Every field of the descriptor's 32 bytes in its range, reserved bits 0 (R379, R380). -/
def DDesc.headOk (d : DDesc) : Bool :=
  d.width != 3 && d.ctrl < 64 && d.next % 32 == 0 &&
  (match d.kind with
   | 0 => decide (1 ≤ d.count ∧ d.count ≤ 16777215 ∧ d.rows = 1)
   | 1 => decide (1 ≤ d.count ∧ d.count ≤ 65535 ∧ 1 ≤ d.rows ∧ d.rows ≤ 65535)
   | _ => decide (d.count = 0 ∧ 1 ≤ d.rows ∧ d.rows ≤ 256))

/-- Every field in its range, those of the list elements included. -/
def DDesc.fieldsOk (d : DDesc) (el : List (Nat × Nat)) : Bool := d.headOk && (decide (d.kind < 2) || el.all (fun e => decide (1 ≤ e.2 ∧ e.2 ≤ 65535)))

/-- A range lies in one row of the address map. -/
def inOneRow (r : Nat × Nat) : Bool := (region r.1).isSome && region (r.1 + r.2 - 1) == region r.1

/-- Two ranges overlap. -/
def rangesMeet (p q : Nat × Nat) : Bool := decide (p.1 < q.1 + q.2 ∧ q.1 < p.1 + p.2)

/-- The checks of R380 on a descriptor with its list elements. -/
def DDesc.ok (d : DDesc) (el : List (Nat × Nat)) : Bool :=
  d.fieldsOk el &&
  (let ss := d.srcs el
   let ds := d.dsts el
   (ss ++ ds).all (fun r => inOneRow r && r.1 % d.beat == 0 && r.2 % d.beat == 0 &&
      (d.width != 0 || (region r.1 != some .pim && region r.1 != some .regs))) &&
   ds.all (fun r => ! [some .rom, some .cap, some .jnl].contains (region r.1)) &&
   (d.kind == 0 || !(ss.any (fun p => ds.any (rangesMeet p)))))

/-! Reads by the engine. -/

/-- `n` bytes read one at a time. -/
def State.dmaBytes (s : State) (a : Nat) : Nat → State × Option Nat
  | 0 => (s, some 0)
  | n + 1 => match s.busRead .dma a 1 with
    | (t, .data v) => (match t.dmaBytes (a + 1) n with
      | (u, some x) => (u, some (v + 256 * x))
      | r => r)
    | (t, _) => (t, none)

/-- One word: in one beat where it is aligned, else in bytes (R445). -/
def State.dmaWord (s : State) (a : Nat) : State × Option Nat :=
  if a % 4 = 0 then match s.busRead .dma a 4 with
    | (t, .data v) => (t, some v)
    | (t, _) => (t, none)
  else s.dmaBytes a 4

/-- `n` words read in order; none when the bus answers one with an error. -/
def State.dmaWords (s : State) (a : Nat) : Nat → State × Option (List Nat)
  | 0 => (s, some [])
  | n + 1 => match s.dmaWord a with
    | (t, some v) => (match t.dmaWords (a + 4) n with
      | (u, some l) => (u, some (v :: l))
      | r => r)
    | (t, none) => (t, none)

/-- The elements of a list, 8 bytes each. -/
def elemsOf : List Nat → List (Nat × Nat)
  | a :: l :: r => (a, l) :: elemsOf r
  | _ => []

/-- A lasting read error (R384): every ACTIVE channel is HELD, and the engine is stopped; `code` is what RECOVER will give them. -/
def State.dmaHalt (s : State) (addr code : Nat) : State :=
  let t := (List.range 32).foldl (fun u n => if u.get (R.DMA_CH_STAT_STATE n) = 2 then (u.set (R.DMA_CH_STAT_STATE n) 7).setDch n { u.dch n with held := code } else u) s
  ((t.setFlag R.DMA_STAT_HALTED true).setFlag R.DMA_STAT_FAULT true).set R.DMA_FAULT_ADDR_ADDR addr

/-- A channel enters ERROR. -/
def State.dmaErr (s : State) (n code : Nat) : State :=
  ((s.set (R.DMA_CH_STAT_STATE n) 5).set (R.DMA_CH_STAT_ERR_CODE n) code).orFld R.DMA_ERR_ERR (2 ^ n)

/-- The channel starts the descriptor at `a`: it is read and its fields checked, then its element list is read and the ranges are checked (R379, R380, R384). While the engine is stopped the channel waits for RECOVER. -/
def State.dmaBegin (s : State) (n a : Nat) : State :=
  let s0 := ((s.set (R.DMA_CH_STAT_STATE n) 2).set (R.DMA_CH_CUR_CUR n) a).setDch n { s.dch n with desc := none, elems := [], moved := 0, next := a }
  if s.flag R.DMA_STAT_HALTED then s0
  else match s0.dmaWords a 8 with
    | (t, none) => t.dmaHalt a 4
    | (t, some w) =>
      let d := descOf w
      let list := if d.kind = 2 then d.src else d.dst
      if !d.headOk then t.dmaErr n 1
      else match t.dmaWords list (2 * d.listLen) with
      | (u, none) => u.dmaHalt list 4
      | (u, some l) =>
        let el := elemsOf l
        if d.ok el then (u.set (R.DMA_CH_COUNT_COUNT n) (d.total el)).setDch n { u.dch n with desc := some d, elems := el, moved := 0, next := d.next }
        else u.dmaErr n 1

/-- START (R383): a channel with a request source waits for its requests; a reserved source fails at once (R380). -/
def State.dmaStart (s : State) (n : Nat) : State :=
  if s.dmaBusy n then s
  else
    let a := s.get (R.DMA_CH_DESC_DESC n)
    let s1 := ((s.set (R.DMA_CH_STAT_ERR_CODE n) 0).set (R.DMA_CH_STAT_PEND n) 0).setDch n { DCh.init with next := a }
    let q := s.get (R.DMA_CH_CFG_REQ n)
    if q = 0 then s1.dmaBegin n a
    else if 9 < q then (s1.set (R.DMA_CH_CUR_CUR n) a).dmaErr n 1
    else (s1.set (R.DMA_CH_STAT_STATE n) 1).set (R.DMA_CH_CUR_CUR n) a

/-- A request of source `q` reaches channel `n` (R383, R384). -/
def State.dmaAsk (s : State) (q n : Nat) : State :=
  if s.get (R.DMA_CH_CFG_REQ n) ≠ q then s
  else
    let st := s.get (R.DMA_CH_STAT_STATE n)
    if st = 1 ∧ s.flag R.DMA_STAT_HALTED = false then s.dmaBegin n (s.dch n).next
    else if s.dmaBusy n then
      (if s.get (R.DMA_CH_STAT_PEND n) < 15 then s.set (R.DMA_CH_STAT_PEND n) (s.get (R.DMA_CH_STAT_PEND n) + 1) else s.setFlag (R.DMA_CH_STAT_REQ_OVF n) true)
    else s

/-- A descriptor of channel `n` is complete: the chain continues at NEXT, at once or with the next request, or ends DONE (R381, R383). -/
def State.dmaNext (s : State) (n : Nat) : State :=
  let a := (s.dch n).next
  if a = 0 then (s.set (R.DMA_CH_STAT_STATE n) 3).setDch n DCh.init
  else if s.get (R.DMA_CH_CFG_REQ n) = 0 then s.dmaBegin n a
  else if 0 < s.get (R.DMA_CH_STAT_PEND n) ∧ s.flag R.DMA_STAT_HALTED = false then (s.set (R.DMA_CH_STAT_PEND n) (s.get (R.DMA_CH_STAT_PEND n) - 1)).dmaBegin n a
  else (s.set (R.DMA_CH_STAT_STATE n) 1).setDch n { s.dch n with desc := none, elems := [], moved := 0 }

/-- ABORT, with what the channel has written by then counted off (R385). -/
def State.dmaAbort (s : State) (n : Nat) : State :=
  match s.get (R.DMA_CH_STAT_STATE n) with
  | 1 => ((s.set (R.DMA_CH_STAT_PEND n) 0).set (R.DMA_CH_COUNT_COUNT n) 0).set (R.DMA_CH_STAT_STATE n) 6
  | 2 | 7 => s.set (R.DMA_CH_STAT_STATE n) 6
  | _ => s.setFlag (R.DMA_CH_STAT_NTA n) true

/-- RECOVER of channel `n` (R384): a HELD channel enters ERROR; the others go on, with the requests that have waited. -/
def State.recover1 (addr : Nat) (s : State) (n : Nat) : State :=
  match s.get (R.DMA_CH_STAT_STATE n) with
  | 7 => (s.set (R.DMA_CH_ERR_ADDR_ADDR n) addr).dmaErr n (s.dch n).held
  | 2 => if (s.dch n).desc.isNone then s.dmaBegin n (s.dch n).next else s
  | 1 => if 0 < s.get (R.DMA_CH_STAT_PEND n) then (s.set (R.DMA_CH_STAT_PEND n) (s.get (R.DMA_CH_STAT_PEND n) - 1)).dmaBegin n (s.dch n).next else s
  | _ => s

/-- RECOVER. -/
def State.dmaRecover (s : State) : State :=
  if s.flag R.DMA_STAT_HALTED then (List.range 32).foldl (State.recover1 (s.get R.DMA_FAULT_ADDR_ADDR)) (s.setFlag R.DMA_STAT_HALTED false) else s

/-! Meanings. -/

/-- What the DMA engine can change without moving data: a descriptor may lie anywhere that answers reads. -/
def dmaDo (t s : State) (b : Bus) : Host.Outcome State Fault Refusal :=
  s.live 0x80130000 (.next { s with dma := t.dma, flds := t.flds, rings := t.rings, cap := t.cap, free := t.free, pim := t.pim, bus := b, outs := [] })

/-- DMA_START: a write that sets START of channel `n`. -/
def execDmaStart (n : Fin 32) (s : State) : Host.Outcome State Fault Refusal :=
  s.atReg (0x80130100 + 0x20 * n.val) (dmaDo (s.dmaStart n) s .done)

/-- The block-closed request of a capture set stands (R258); a course start always does. -/
def State.dmaReqDue (s : State) (q : Nat) : Bool := q == 9 || s.cap.reqs.contains (q - 1)

/-- A request of source `q`, 1 to 9, is served. -/
def State.dmaRequest (s : State) (q : Nat) : State :=
  if s.dmaReqDue q then
    (List.range 32).foldl (fun u n => u.dmaAsk q n) (if q = 9 then s else { s with cap := { s.cap with reqs := s.cap.reqs.erase (q - 1) } })
  else s

/-- DMA_REQUEST of source `q` + 1. -/
def execDmaRequest (q : Fin 9) (s : State) : Host.Outcome State Fault Refusal := dmaDo (s.dmaRequest (q.val + 1)) s .none

/-- RECOVER. -/
def execRecover (s : State) : Host.Outcome State Fault Refusal := s.atReg 0x80130000 (dmaDo s.dmaRecover s .done)

end Sys2Proof.Machine
end

