-- ==== Sys2Proof/Machine/Gpio.lean ====
section
/-! DEFINITION. The general-purpose pins (R429 to R431). -/
namespace Sys2Proof.Machine

/-- The port of a pin that is assigned to it as SFP_LOS or SFP_TX_FAULT goes down while the pin is high (R172, R212, R430). -/
def State.takeLos (s : State) (n : Nat) : State :=
  match gpioPort (s.get (R.SYS_PINFUNC_PORT n)) with
  | some l => if s.losPin n && s.losOn l then s.lnkDown l else s
  | none => s

/-- Bit `n` of GPIO_IN was `was` before: a change sets RISE or FALL while the block is clocked (R431), and a high level of SFP_LOS or SFP_TX_FAULT is a link down on the port it names (R430). -/
def State.gpioTurn (s : State) (n : Nat) (was : Bool) : State :=
  if s.gpioIn n = was ∨ s.clocked 0x80160000 = false then s.takeLos n
  else (if was then s.orFld R.GPIO_FALL_FALL (2 ^ n) else s.orFld R.GPIO_RISE_RISE (2 ^ n)).takeLos n

/-- The level at pin `n` has held for two samples. -/
def State.gpioEdge (s : State) (n : Nat) (level : Bool) : State := { s with gpio := setBit s.gpio n level }.gpioTurn n (s.gpioIn n)

/-- A port is inserted: its ring's bypass pin is high, or the cascade is entered (R178, R357). -/
def State.portIn (s : State) : Lnk → Bool
  | .ring k _ => s.ringEn k && s.inserted k
  | .cas _ => s.casEn && s.casIn

/-- What a GPIO pin drives: none is high impedance (R430). -/
def State.gpioPin (s : State) (n : Nat) : Option Bool :=
  let inv (b : Bool) : Bool := b != s.flag (R.SYS_PINFUNC_INV n)
  let out := bit (s.get R.GPIO_OUT_OUT) n
  let dis := match gpioPort (s.get (R.SYS_PINFUNC_PORT n)) with | some l => !s.portIn l | none => true
  let tx := s.get (R.SYS_PINFUNC_MODE n) == 3 && s.get (R.SYS_PINFUNC_FUNC n) == 3
  if s.dev == .reset && tx then some (inv true)
  else if !s.pinsOn then none
  else match s.get (R.SYS_PINFUNC_MODE n) with
    | 1 => some (inv out)
    | 2 => if inv out then none else some false
    | 3 => if tx then some (inv dis) else none
    | _ => none

/-- HEALTH (R401): low, high, or a pattern given as high time and period in ms. -/
inductive Health where
  | low | high
  | blink (on period : Nat)
  deriving DecidableEq, Repr

/-- HEALTH as PD0 drives it: the first condition that applies. -/
def State.health (s : State) : Health :=
  match s.dev with
  | .off => .low
  | .reset => if s.flag R.PWR_RST_CAUSE_RESET_HELD_LONG then .blink 250 2000 else .low
  | .watch => .blink 1 4000
  | d =>
    if d = .safeHold ∨ (d = .boot ∧ s.flag R.PWR_STAT_BOOT_ERR = true) ∨ s.flag R.CLK_STAT_CLK_FAIL = true then .blink 125 250
    else if d = .run then .high else .blink 500 1000

/-- GPIO_SET. -/
def execGpioSet (v : BitVec 32) (s : State) : Host.Outcome State Fault Refusal :=
  s.atReg (0x80160008) (.next { s with flds := (s.set R.GPIO_OUT_OUT (s.get R.GPIO_OUT_OUT ||| v.toNat)).flds, bus := .done, outs := [] })

/-- GPIO_CLR. -/
def execGpioClr (v : BitVec 32) (s : State) : Host.Outcome State Fault Refusal :=
  s.atReg (0x8016000C) (.next { s with flds := (s.set R.GPIO_OUT_OUT (s.get R.GPIO_OUT_OUT &&& (~~~v).toNat)).flds, bus := .done, outs := [] })

/-- GPIO_EDGE: the level at pin `n` has held for two samples. -/
def execGpioEdge (n : Fin 32) (level : Bool) (s : State) : Host.Outcome State Fault Refusal :=
  let t := s.quiet.gpioEdge n level
  .next { s with gpio := t.gpio, flds := t.flds, rings := t.rings, cas := t.cas, bus := .none, outs := [] }

end Sys2Proof.Machine
end

