-- ==== Sys2Proof/Machine/LeIsa.lean ====
section
/-! DEFINITION. The meanings of the loop-engine instructions (R127 to R146). Each row names the engine `n` that executes it and the instruction's fields; the instruction runs if the engine is RUNNING and not asleep. -/
namespace Sys2Proof.Machine

/-- Issue an instruction: what it can change is the engine, memory and the LE registers. -/
def leDo (n : Fin 12) (i : Instr) (f : Eng → LeOut) (s : State) : Host.Outcome State Fault Refusal :=
  let t := leIssue n i f s
  .next { s with engs := t.engs, mem := t.mem, tst := t.tst, flds := t.flds, bus := .none, outs := [] }

/-- An instruction on two data registers into one. -/
def leR (i : Instr) (n : Fin 12) (d a b : Fin 32) (cycles : Nat) (op : Nat → Nat → Nat × Nat) (s : State) :
    Host.Outcome State Fault Refusal :=
  leDo n i (fun e => leWr d (op (e.vr a) (e.vr b)) cycles e) s

/-- An instruction on three pairs; odd registers are illegal (R146). -/
def leP (i : Instr) (n : Fin 12) (d a b : Fin 32) (op : Nat → Nat → Nat) (s : State) :
    Host.Outcome State Fault Refusal :=
  leDo n i (fun e => if odd d || odd a || odd b then leIll
    else leWrPair d (op (e.pair a) (e.pair b) % 2 ^ 64, 0) 1 e) s

/-- NOP. -/
def execLeNop (n : Fin 12) (s : State) : Host.Outcome State Fault Refusal :=
  leDo n (.leNop n) (fun e => .ok e 0 [] 1) s

/-- ADD. -/
def execLeAdd (n : Fin 12) (d a b : Fin 32) (s : State) : Host.Outcome State Fault Refusal :=
  leR (.leAdd n d a b) n d a b 1 (fun x y => (x + y, 0)) s

/-- SUB. -/
def execLeSub (n : Fin 12) (d a b : Fin 32) (s : State) : Host.Outcome State Fault Refusal :=
  leR (.leSub n d a b) n d a b 1 (fun x y => (ux 32 ((x : Int) - y), 0)) s

/-- AND. -/
def execLeAnd (n : Fin 12) (d a b : Fin 32) (s : State) : Host.Outcome State Fault Refusal :=
  leR (.leAnd n d a b) n d a b 1 (fun x y => (x &&& y, 0)) s

/-- OR. -/
def execLeOr (n : Fin 12) (d a b : Fin 32) (s : State) : Host.Outcome State Fault Refusal :=
  leR (.leOr n d a b) n d a b 1 (fun x y => (x ||| y, 0)) s

/-- XOR. -/
def execLeXor (n : Fin 12) (d a b : Fin 32) (s : State) : Host.Outcome State Fault Refusal :=
  leR (.leXor n d a b) n d a b 1 (fun x y => (x ^^^ y, 0)) s

/-- SLL: by B[4:0]. -/
def execLeSll (n : Fin 12) (d a b : Fin 32) (s : State) : Host.Outcome State Fault Refusal :=
  leR (.leSll n d a b) n d a b 1 (fun x y => (x * 2 ^ (y % 32), 0)) s

/-- SRL: by B[4:0]. -/
def execLeSrl (n : Fin 12) (d a b : Fin 32) (s : State) : Host.Outcome State Fault Refusal :=
  leR (.leSrl n d a b) n d a b 1 (fun x y => (x / 2 ^ (y % 32), 0)) s

/-- SRA: by B[4:0]. -/
def execLeSra (n : Fin 12) (d a b : Fin 32) (s : State) : Host.Outcome State Fault Refusal :=
  leR (.leSra n d a b) n d a b 1 (fun x y => (ux 32 (sx 32 x / ((2 ^ (y % 32) : Nat) : Int)), 0)) s

/-- ADDI: a sign-extended immediate. -/
def execLeAddi (n : Fin 12) (d a : Fin 32) (imm : BitVec 16) (s : State) :
    Host.Outcome State Fault Refusal :=
  leDo n (.leAddi n d a imm) (fun e => leWr d (ux 32 (e.vr a + imm.toInt), 0) 1 e) s

/-- LUI. -/
def execLeLui (n : Fin 12) (d : Fin 32) (imm : BitVec 16) (s : State) :
    Host.Outcome State Fault Refusal :=
  leDo n (.leLui n d imm) (fun e => leWr d (imm.toNat * 65536, 0) 1 e) s

/-- ORI: a zero-extended immediate. -/
def execLeOri (n : Fin 12) (d a : Fin 32) (imm : BitVec 16) (s : State) :
    Host.Outcome State Fault Refusal :=
  leDo n (.leOri n d a imm) (fun e => leWr d (e.vr a ||| imm.toNat, 0) 1 e) s

/-- ADD64. -/
def execLeAdd64 (n : Fin 12) (d a b : Fin 32) (s : State) : Host.Outcome State Fault Refusal :=
  leP (.leAdd64 n d a b) n d a b (fun x y => x + y) s

/-- SUB64. -/
def execLeSub64 (n : Fin 12) (d a b : Fin 32) (s : State) : Host.Outcome State Fault Refusal :=
  leP (.leSub64 n d a b) n d a b (fun x y => ux 64 ((x : Int) - y)) s

/-- SLT64: a signed comparison of pairs; the destination is one register. -/
def execLeSlt64 (n : Fin 12) (d a b : Fin 32) (s : State) : Host.Outcome State Fault Refusal :=
  leDo n (.leSlt64 n d a b) (fun e => if odd a || odd b then leIll
    else leWr d (b2n (decide (sx 64 (e.pair a) < sx 64 (e.pair b))), 0) 1 e) s

/-- SLT. -/
def execLeSlt (n : Fin 12) (d a b : Fin 32) (s : State) : Host.Outcome State Fault Refusal :=
  leR (.leSlt n d a b) n d a b 1 (fun x y => (b2n (decide (sx 32 x < sx 32 y)), 0)) s

/-- FADD. -/
def execLeFadd (n : Fin 12) (d a b : Fin 32) (s : State) : Host.Outcome State Fault Refusal :=
  leR (.leFadd n d a b) n d a b 1 leAdd s

/-- FSUB. -/
def execLeFsub (n : Fin 12) (d a b : Fin 32) (s : State) : Host.Outcome State Fault Refusal :=
  leR (.leFsub n d a b) n d a b 1 leSub s

/-- FMUL. -/
def execLeFmul (n : Fin 12) (d a b : Fin 32) (s : State) : Host.Outcome State Fault Refusal :=
  leR (.leFmul n d a b) n d a b 1 leMul s

/-- FDIV: 14 engine cycles. -/
def execLeFdiv (n : Fin 12) (d a b : Fin 32) (s : State) : Host.Outcome State Fault Refusal :=
  leR (.leFdiv n d a b) n d a b 14 leDiv s

/-- FMIN. -/
def execLeFmin (n : Fin 12) (d a b : Fin 32) (s : State) : Host.Outcome State Fault Refusal :=
  leR (.leFmin n d a b) n d a b 1 leMin s

/-- FMAX. -/
def execLeFmax (n : Fin 12) (d a b : Fin 32) (s : State) : Host.Outcome State Fault Refusal :=
  leR (.leFmax n d a b) n d a b 1 leMax s

/-- FABS. -/
def execLeFabs (n : Fin 12) (d a : Fin 32) (s : State) : Host.Outcome State Fault Refusal :=
  leDo n (.leFabs n d a) (fun e => leWr d (leAbs (e.vr a), 0) 1 e) s

/-- FNEG. -/
def execLeFneg (n : Fin 12) (d a : Fin 32) (s : State) : Host.Outcome State Fault Refusal :=
  leDo n (.leFneg n d a) (fun e => leWr d (leNeg (e.vr a), 0) 1 e) s

/-- FCLT. -/
def execLeFclt (n : Fin 12) (d a b : Fin 32) (s : State) : Host.Outcome State Fault Refusal :=
  leR (.leFclt n d a b) n d a b 1 leClt s

/-- FCLAMP. -/
def execLeFclamp (n : Fin 12) (d a b c : Fin 32) (s : State) : Host.Outcome State Fault Refusal :=
  leDo n (.leFclamp n d a b c) (fun e => leWr d (leClamp (e.vr a) (e.vr b) (e.vr c)) 1 e) s

/-- CVTIF. -/
def execLeCvtif (n : Fin 12) (d a : Fin 32) (s : State) : Host.Outcome State Fault Refusal :=
  leDo n (.leCvtif n d a) (fun e => leWr d (f32OfInt (sx 32 (e.vr a)), 0) 1 e) s

/-- CVTLF: from a pair. -/
def execLeCvtlf (n : Fin 12) (d a : Fin 32) (s : State) : Host.Outcome State Fault Refusal :=
  leDo n (.leCvtlf n d a) (fun e => if odd a then leIll else leWr d (f32OfInt (sx 64 (e.pair a)), 0) 1 e) s

/-- CVTFL: to a pair. -/
def execLeCvtfl (n : Fin 12) (d a : Fin 32) (s : State) : Host.Outcome State Fault Refusal :=
  leDo n (.leCvtfl n d a) (fun e => if odd d then leIll
    else leWrPair d (ux 64 (leToInt 64 (e.vr a)).1, (leToInt 64 (e.vr a)).2) 1 e) s

/-- FINITE. -/
def execLeFinite (n : Fin 12) (d a : Fin 32) (s : State) : Host.Outcome State Fault Refusal :=
  leDo n (.leFinite n d a) (fun e => leWr d (leFinite (e.vr a), 0) 1 e) s

/-- Long accumulator `i`. -/
def Eng.acc (e : Eng) (i : Nat) : Lacc := e.lacc.getD i Lacc.zero

/-- Write a long accumulator. -/
def Eng.setAcc (e : Eng) (i : Nat) (l : Lacc) : Eng := { e with lacc := e.lacc.set i l }

/-- An instruction that changes one long accumulator. -/
def leL (c : Instr) (n : Fin 12) (i : Fin 4) (f : Eng → Lacc → Lacc × Nat) (s : State) :
    Host.Outcome State Fault Refusal :=
  leDo n c (fun e => .ok (e.setAcc i (f e (e.acc i)).1) (f e (e.acc i)).2 [] 1) s

/-- LCLR. -/
def execLeLclr (n : Fin 12) (i : Fin 4) (s : State) : Host.Outcome State Fault Refusal :=
  leL (.leLclr n i) n i (fun _ _ => (Lacc.zero, 0)) s

/-- LMAC. -/
def execLeLmac (n : Fin 12) (i : Fin 4) (p q : Fin 32) (s : State) :
    Host.Outcome State Fault Refusal :=
  leL (.leLmac n i p q) n i (fun e l => l.mac false (e.vr p) (e.vr q)) s

/-- LMSU. -/
def execLeLmsu (n : Fin 12) (i : Fin 4) (p q : Fin 32) (s : State) :
    Host.Outcome State Fault Refusal :=
  leL (.leLmsu n i p q) n i (fun e l => l.mac true (e.vr p) (e.vr q)) s

/-- Two products into one accumulator, the first first. -/
def Lacc.mac2 (l : Lacc) (p q x y : Nat) : Lacc × Nat :=
  let r := l.mac false p q
  let t := r.1.mac false x y
  (t.1, r.2 ||| t.2)

/-- LMAC2. -/
def execLeLmac2 (n : Fin 12) (i : Fin 4) (p q x y : Fin 32) (s : State) :
    Host.Outcome State Fault Refusal :=
  leL (.leLmac2 n i p q x y) n i (fun e l => l.mac2 (e.vr p) (e.vr q) (e.vr x) (e.vr y)) s

/-- LADD. -/
def execLeLadd (n : Fin 12) (i : Fin 4) (p : Fin 32) (s : State) :
    Host.Outcome State Fault Refusal :=
  leL (.leLadd n i p) n i (fun e l => l.add (e.vr p)) s

/-- The dot product of two lists of operands, in order. -/
def Lacc.dot (l : Lacc) : List Nat → List Nat → Nat → Lacc × Nat
  | x :: xs, y :: ys, fx => Lacc.dot (l.mac false x y).1 xs ys (fx ||| (l.mac false x y).2)
  | _, _, fx => (l, fx)

/-- LDOT: x at uses of Ax, y at uses of Ay, N from the low 16 bits of register S; the same address register twice is illegal (R143, R146). -/
def execLeLdot (n : Fin 12) (i : Fin 4) (x y : Fin 8) (c : Fin 32) (s : State) :
    Host.Outcome State Fault Refusal :=
  leDo n (.leLdot n i x y c) (fun e =>
    if x = y then leIll
    else
      let k := e.vr c % 65536
      match leVec s n x k e 0 with
      | .error (code, ad) => .err code ad
      | .ok (xs, e1, f1) =>
        match leVec s n y k e1 f1 with
        | .error (code, ad) => .err code ad
        | .ok (ys, e2, f2) =>
          let r := (e2.acc i).dot xs ys 0
          .ok (e2.setAcc i r.1) (f2 ||| r.2) [] ((k + 1) / 2 + 4)) s

/-- LRD. -/
def execLeLrd (n : Fin 12) (i : Fin 4) (p : Fin 32) (s : State) :
    Host.Outcome State Fault Refusal :=
  leDo n (.leLrd n i p) (fun e => leWr p ((e.acc i).toF32, 0) 1 e) s

/-- LRDQ. -/
def execLeLrdq (n : Fin 12) (i : Fin 4) (p : Fin 32) (s : State) :
    Host.Outcome State Fault Refusal :=
  leDo n (.leLrdq n i p) (fun e => if odd p then leIll
    else leWrPair p (ux 64 (e.acc i).toI64.1, (e.acc i).toI64.2) 1 e) s

/-- LST: each doubleword at its own address (R132, R136). -/
def execLeLst (n : Fin 12) (i : Fin 4) (an : Fin 8) (pm : Bool) (ofs : BitVec 14) (s : State) :
    Host.Outcome State Fault Refusal :=
  leDo n (.leLst n i an pm ofs) (fun e =>
    match e.image true an pm ofs.toInt with
    | .error (c, ad) => .err c ad
    | .ok (as, a', fx) =>
      let v := (e.acc i).image
      .ok (e.setA an a') fx
        (cells (Eng.mapAddr n e (at_ as 0)) v 8 ++ cells (Eng.mapAddr n e (at_ as 1)) (v / 2 ^ 64) 8 ++
          cells (Eng.mapAddr n e (at_ as 2)) (v / 2 ^ 128) 8) 3) s

/-- LLD. -/
def execLeLld (n : Fin 12) (i : Fin 4) (an : Fin 8) (pm : Bool) (ofs : BitVec 14) (s : State) :
    Host.Outcome State Fault Refusal :=
  leDo n (.leLld n i an pm ofs) (fun e =>
    match e.image false an pm ofs.toInt with
    | .error (c, ad) => .err c ad
    | .ok (as, a', fx) =>
      if as.any (fun a => s.poisoned (leData n + a) 8) then .err 6 none
      else
      let v := s.load (leData n + at_ as 0) 8 + s.load (leData n + at_ as 1) 8 * 2 ^ 64 +
        s.load (leData n + at_ as 2) 8 * 2 ^ 128
      .ok ((e.setA an a').setAcc i (Lacc.ofImage v)) fx [] 3) s

/-- LDW. -/
def execLeLdw (n : Fin 12) (d : Fin 32) (an : Fin 8) (pm : Bool) (ofs : BitVec 14) (s : State) :
    Host.Outcome State Fault Refusal :=
  leDo n (.leLdw n d an pm ofs) (fun e => leLoad s n 4 an pm ofs.toInt e (fun e' x => .ok (e'.setV d x) 0 [] 1)) s

/-- STW. -/
def execLeStw (n : Fin 12) (d : Fin 32) (an : Fin 8) (pm : Bool) (ofs : BitVec 14) (s : State) :
    Host.Outcome State Fault Refusal :=
  leDo n (.leStw n d an pm ofs) (fun e => leStore n 4 an pm ofs.toInt (e.vr d) e) s

/-- LDD: into a pair. -/
def execLeLdd (n : Fin 12) (d : Fin 32) (an : Fin 8) (pm : Bool) (ofs : BitVec 14) (s : State) :
    Host.Outcome State Fault Refusal :=
  leDo n (.leLdd n d an pm ofs) (fun e => if odd d then leIll
    else leLoad s n 8 an pm ofs.toInt e (fun e' x => .ok (e'.setPair d x) 0 [] 1)) s

/-- STD: from a pair. -/
def execLeStd (n : Fin 12) (d : Fin 32) (an : Fin 8) (pm : Bool) (ofs : BitVec 14) (s : State) :
    Host.Outcome State Fault Refusal :=
  leDo n (.leStd n d an pm ofs) (fun e => if odd d then leIll else leStore n 8 an pm ofs.toInt (e.pair d) e) s

/-- Write an address-class register: bits [2:0] of B and L read 0, L holds at most 0x2_0000 (R113). -/
def Eng.setClass (e : Eng) (cls i x : Nat) : Eng :=
  match cls with
  | 0 => { e with a := e.a.set i x }
  | 1 => { e with m := e.m.set i x }
  | 2 => { e with b := e.b.set i (x / 8 * 8) }
  | _ => { e with l := e.l.set i (min x 0x20000 / 8 * 8) }

/-- Read an address-class register as stored. -/
def Eng.getClass (e : Eng) (cls i : Nat) : Nat :=
  match cls with
  | 0 => at_ e.a i
  | 1 => at_ e.m i
  | 2 => at_ e.b i
  | _ => at_ e.l i

/-- MVTA: classes 0 A, 1 M, 2 B, 3 L. -/
def execLeMvta (n : Fin 12) (cls : Fin 4) (i : Fin 8) (v : Fin 32) (s : State) :
    Host.Outcome State Fault Refusal :=
  leDo n (.leMvta n cls i v) (fun e => .ok (e.setClass cls i (e.vr v)) 0 [] 1) s

/-- MVFA. -/
def execLeMvfa (n : Fin 12) (cls : Fin 4) (i : Fin 8) (v : Fin 32) (s : State) :
    Host.Outcome State Fault Refusal :=
  leDo n (.leMvfa n cls i v) (fun e => leWr v (e.getClass cls i, 0) 1 e) s

/-- ADDA: the immediate is added as post-modification adds Mn (R135). -/
def execLeAdda (n : Fin 12) (an : Fin 8) (imm : BitVec 16) (s : State) :
    Host.Outcome State Fault Refusal :=
  leDo n (.leAdda n an imm) (fun e =>
    match e.use an 0 imm.toInt with
    | none => .err 3 (some (at_ e.a an))
    | some (_, a', fx) => .ok (e.setA an a') fx [] 1) s

/-- CBIND. -/
def execLeCbind (n : Fin 12) (an : Fin 8) (en : Bool) (k : Fin 8) (s : State) :
    Host.Outcome State Fault Refusal :=
  leDo n (.leCbind n an en k) (fun e => .ok { e with bind := e.bind.set an (if en then some k.val else none) } 0 [] 1) s

/-- The best element of a vector so far: its value, its index; NaN elements are skipped and raise NAN_SEEN (R137). `gt x y` says that x beats y. -/
def vecBest (gt : Nat → Nat → Bool) : List Nat → Nat → Option (Nat × Nat) → Nat → Option (Nat × Nat) × Nat
  | [], _, best, fx => (best, fx)
  | x0 :: r, i, best, fx =>
    let x := leIn x0
    if f32NaN x then vecBest gt r (i + 1) best (fx ||| fNan)
    else
      match best with
      | none => vecBest gt r (i + 1) (some (x, i)) fx
      | some (y, j) => vecBest gt r (i + 1) (if gt x y then some (x, i) else some (y, j)) fx

/-- A vector search (R137). -/
def leSearch (i : Instr) (n : Fin 12) (gt : Nat → Nat → Bool) (d : Fin 32) (an : Fin 8) (c : Fin 32) (s : State) :
    Host.Outcome State Fault Refusal :=
  leDo n i (fun e =>
    if odd d then leIll
    else
      let k := e.vr c % 65536
      match leVec s n an k e 0 with
      | .error (code, ad) => .err code ad
      | .ok (xs, e1, f1) =>
        let r := vecBest gt xs 0 none 0
        let (v, i) := r.1.getD (qNaN, 0xFFFF)
        .ok ((e1.setV d v).setV (d + 1) i) (f1 ||| r.2) [] (k + 4)) s

/-- VMAX. -/
def execLeVmax (n : Fin 12) (d : Fin 32) (an : Fin 8) (c : Fin 32) (s : State) :
    Host.Outcome State Fault Refusal := leSearch (.leVmax n d an c) n (fun x y => f32Lt y x) d an c s

/-- VMIN. -/
def execLeVmin (n : Fin 12) (d : Fin 32) (an : Fin 8) (c : Fin 32) (s : State) :
    Host.Outcome State Fault Refusal := leSearch (.leVmin n d an c) n f32Lt d an c s

/-- JAL: 3 engine cycles as taken. -/
def execLeJal (n : Fin 12) (d : Fin 32) (target : BitVec 16) (s : State) :
    Host.Outcome State Fault Refusal :=
  leDo n (.leJal n d target) (fun e => .jump (e.setV d ((e.pc + 4) % 2 ^ 16)) target.toNat 3) s

/-- JR: PC takes the low 16 bits of A, its width (R113); a target outside instruction space fails at its fetch (R115). -/
def execLeJr (n : Fin 12) (a : Fin 32) (s : State) : Host.Outcome State Fault Refusal :=
  leDo n (.leJr n a) (fun e => .jump e (e.vr a) 3) s

/-- BR (R144): conditions 6 to 15 are illegal; condition 5 decrements first. -/
def execLeBr (n : Fin 12) (cond : Fin 16) (r : Fin 32) (ofs : BitVec 17) (s : State) :
    Host.Outcome State Fault Refusal :=
  leDo n (.leBr n cond r ofs) (fun e =>
    let x := e.vr r
    let e5 := e.setV r (ux 32 ((x : Int) - 1))
    let dest : Nat := ux 16 (e.pc + 4 * ofs.toInt)
    let go (b : Bool) (e' : Eng) : LeOut := if b then .jump e' dest 3 else .ok e' 0 [] 1
    match cond.val with
    | 0 => go true e
    | 1 => go (x == 0) e
    | 2 => go (x != 0) e
    | 3 => go (bit x 31) e
    | 4 => go (!bit x 31) e
    | 5 => go (e5.vr r != 0) e5
    | _ => leIll) s

/-- EVWAIT (R123): halt if HALT_REQ stands, sleep on an empty queue, else take the oldest event. -/
def execLeEvwait (n : Fin 12) (d : Fin 32) (s : State) : Host.Outcome State Fault Refusal :=
  leDo n (.leEvwait n d) (fun e =>
    if e.haltReq then .jump { e with st := .halted, queue := [], haltReq := false } e.pc 0
    else
      match e.queue with
      | [] => .jump { e with asleep := true, ready := [] } e.pc 0
      | v :: q => .ok { (e.setV d v.word) with queue := q, cur := some v, cyc := 0 } 0 [] 0) s

/-- SYS HALT: HALTED at once, dropping queued events; the PC is the next instruction's. -/
def execLeHalt (n : Fin 12) (s : State) : Host.Outcome State Fault Refusal :=
  leDo n (.leHalt n) (fun e => .ok { e with st := .halted, queue := [], haltReq := false } 0 [] 1) s

/-- SYS DFOLD; code 7 without a current event (R126). -/
def execLeDfold (n : Fin 12) (a : Fin 32) (s : State) : Host.Outcome State Fault Refusal :=
  leDo n (.leDfold n a) (fun e =>
    match e.cur with
    | none => .err 7 none
    | some v => .ok (e.fold v (e.vr a)) 0 [] 1) s

/-- SYS CMDC; code 7 without a current event (R125, R126). -/
def execLeCmdc (n : Fin 12) (s : State) : Host.Outcome State Fault Refusal :=
  leDo n (.leCmdc n) (fun e =>
    match e.cur with
    | none => .err 7 none
    | some v =>
      if s.poisoned (leData n + v.slot * 0x100 + 0x80) 16 then .err 6 none
      else .ok (e.publish v (s.staging n v.slot)) 0 [] 1) s

/-- SYS RDFLG. -/
def execLeRdflg (n : Fin 12) (d : Fin 32) (s : State) : Host.Outcome State Fault Refusal :=
  leDo n (.leRdflg n d) (fun e => leWr d (e.sf, 0) 1 e) s

/-- SYS CLRF. -/
def execLeClrf (n : Fin 12) (a : Fin 32) (s : State) : Host.Outcome State Fault Refusal :=
  leDo n (.leClrf n a) (fun e => .ok { e with sf := e.sf &&& (e.vr a ^^^ 0xFFFFFFFF) } 0 [] 1) s

/-- SYS RDCYC. -/
def execLeRdcyc (n : Fin 12) (d : Fin 32) (s : State) : Host.Outcome State Fault Refusal :=
  leDo n (.leRdcyc n d) (fun e => leWr d (e.cyc, 0) 1 e) s

/-- SYS RDCRS; code 7 without a current event (R126). -/
def execLeRdcrs (n : Fin 12) (d : Fin 32) (s : State) : Host.Outcome State Fault Refusal :=
  leDo n (.leRdcrs n d) (fun e =>
    match e.cur with
    | none => .err 7 none
    | some v => leWr d (v.crs % 2 ^ 32, 0) 1 e) s

/-! The encoding (R142 to R146). -/

/-- A field of a word is zero. -/
def z (w lo n : Nat) : Bool := bits w lo n == 0

/-- A format R word: bits [10:0] zero, with the registers that must be zero and those that must be even. -/
def fmtR (w : Nat) (zero even : List Nat) : Bool :=
  z w 0 11 && zero.all (fun lo => z w lo 5) && even.all (fun lo => bits w lo 1 == 0)

/-- A word that R142 to R146 make legal. -/
def leLegal (w : Nat) : Bool :=
  match bits w 26 6 with
  | 0x00 => z w 0 26
  | 0x01 => fmtR w [] [] | 0x02 => fmtR w [] [] | 0x03 => fmtR w [] [] | 0x04 => fmtR w [] []
  | 0x05 => fmtR w [] [] | 0x06 => fmtR w [] [] | 0x07 => fmtR w [] [] | 0x08 => fmtR w [] []
  | 0x09 => true
  | 0x0A => z w 16 5
  | 0x0B => true
  | 0x0C => fmtR w [] [21, 16, 11] | 0x0D => fmtR w [] [21, 16, 11]
  | 0x0E => fmtR w [] [16, 11]
  | 0x0F => fmtR w [] []
  | 0x10 => fmtR w [] [] | 0x11 => fmtR w [] [] | 0x12 => fmtR w [] [] | 0x13 => fmtR w [] []
  | 0x14 => fmtR w [] [] | 0x15 => fmtR w [] []
  | 0x16 => fmtR w [11] [] | 0x17 => fmtR w [11] []
  | 0x18 => fmtR w [] []
  | 0x19 => z w 0 6
  | 0x1A => fmtR w [] [] | 0x1B => fmtR w [] [16] | 0x1C => fmtR w [] [21] | 0x1D => fmtR w [] []
  | 0x20 => z w 0 24
  | 0x21 => z w 0 14 | 0x22 => z w 0 14
  | 0x23 => z w 0 4
  | 0x24 => z w 0 19
  | 0x25 => z w 22 2 && z w 17 2 && z w 0 9 && bits w 19 3 != bits w 14 3
  | 0x26 => z w 0 4
  | 0x27 => z w 0 4 && bits w 19 1 == 0
  | 0x28 => z w 23 3 && z w 15 3 | 0x29 => z w 15 3
  | 0x30 => z w 15 3 | 0x31 => z w 15 3
  | 0x32 => z w 15 3 && bits w 21 1 == 0 | 0x33 => z w 15 3 && bits w 21 1 == 0
  | 0x34 => z w 0 16 | 0x35 => z w 0 16
  | 0x36 => z w 21 5 && z w 16 2
  | 0x37 => z w 21 5 && z w 16 2 && z w 0 12
  | 0x38 => z w 0 11 && z w 16 2 && bits w 21 1 == 0
  | 0x39 => z w 0 11 && z w 16 2 && bits w 21 1 == 0
  | 0x3A => z w 16 5
  | 0x3B => fmtR w [21, 11] []
  | 0x3C => decide (bits w 22 4 ≤ 5)
  | 0x3D => fmtR w [16, 11] []
  | 0x3F => decide (bits w 0 16 ≤ 6)
  | _ => false

/-- An illegal word puts a RUNNING engine in ERROR with code 1 (R146); a legal word is no illegal instruction, and the row then changes nothing. -/
def execIllegalInstruction (n : Fin 12) (w : Word) (s : State) : Host.Outcome State Fault Refusal :=
  leDo n (.illegalInstruction n w) (fun e => if leLegal w.toNat then .jump e e.pc 0 else leIll) s

/-- Setting START (R122). -/
def execEngineStart (n : Fin 12) (s : State) : Host.Outcome State Fault Refusal := s.atReg (0x80090000 + 0x40 * n.val) (
  let t := s.engStart n
  .next { s with engs := t.engs, mem := t.mem, tst := t.tst, bus := .done, outs := [] })

/-- Setting HALT_REQ (R122). -/
def execEngineHaltReq (n : Fin 12) (s : State) : Host.Outcome State Fault Refusal := s.atReg (0x80090000 + 0x40 * n.val) (
  let t := s.engHaltReq n
  .next { s with engs := t.engs, bus := .done, outs := [] })

end Sys2Proof.Machine
end

