-- ==== Sys2Proof/Machine/RegWrite.lean ====
section
/-! DEFINITION. Writes of registers: the access codes, and what a write sets off (R13, R34, R49, R107, R121, R149, R190, R244, R296, R304, R318, R323, R324, R328, R337, R372, R374, R383, R385, R393, R396 to R398, R402, R406, R419, R423, R429, R430). -/
namespace Sys2Proof.Machine

/-- A field is written with `v` by its access code (R13). -/
def State.writeFld (s : State) (f : Fld) (v : Nat) : State :=
  match f.acc with
  | .rw => s.set f v
  | .w1c => s.set f (s.get f &&& (2 ^ f.w - 1 - v % 2 ^ f.w))
  | .w1s => s.set f (s.get f ||| v % 2 ^ f.w)
  | .ro => s
  | .wo => s
  | .rc => s

/-- Every field of a register is written by its access code; reserved bits are ignored (R11). -/
def State.plain (s : State) (fs : List Fld) (v : Nat) : State := fs.foldl (fun u f => u.writeFld f (bits v f.lo f.w)) s

/-- SYS_PINFUNCn (R429): in RUN and SAFE_HOLD a pin with a hardware function keeps it, and none is given one. A change of INV changes the level that GPIO_IN shows, and a pin that is high as it becomes SFP_LOS takes its port's link down (R212). -/
def State.wrPin (s : State) (n : Nat) (fs : List Fld) (v : Nat) : State :=
  if s.inCourses ∧ (s.get (R.SYS_PINFUNC_MODE n) = 3 ∨ bits v 0 2 = 3) then s
  else (s.plain fs v).gpioTurn n (s.gpioIn n)

/-- PWR_CTRL: the requests in the order of their bits. -/
def State.wrPwrCtrl (s : State) (v : Nat) : State :=
  let a := if bit v 0 then s.goRun else s
  let b := if bit v 1 then a.goStandby else a
  if bit v 2 then b.goWatch else b

/-- RINGk_MG_TX and RINGk_MG_TXD: ignored, with TX_ERR, while GO reads 1 (R216). -/
def State.wrMg (s : State) (k o : Nat) (fs : List Fld) (v : Nat) : State :=
  if s.flag (R.RING_MG_TX_GO k) then s.setFlag (R.RING_MG_STAT_TX_ERR k) true
  else if o = 0x90 ∧ bit v 31 = true then s.mgGo k (bits v 0 6) (bits v 8 8) (bits v 16 6)
  else s.plain fs v

/-- A command port: ignored, with PORT_ERR, while GO reads 1 (R49). -/
def State.wrPf (s : State) (n o : Nat) (fs : List Fld) (v : Nat) : State :=
  if s.flag (R.PF_CMD_OP_GO n) then s.setFlag R.PF_STAT_PORT_ERR true
  else
    let t := s.plain fs v
    if o % 16 = 0 ∧ bit v 31 = true then { t with pfAns := setBit t.pfAns n false } else t

/-- The loop-engine block (R107, R122, R148). -/
def State.wrLe (s : State) (o : Nat) (fs : List Fld) (v : Nat) : State :=
  if o < 0x300 ∧ o % 0x40 = 0 then
    let a := if bit v 0 then s.engStart (o / 0x40) else s
    if bit v 1 then a.engHaltReq (o / 0x40) else a
  else if o < 0x300 ∧ o % 0x40 = 8 then s.set (R.LE_ENG_ENTRY_ENTRY (o / 0x40)) (bits v 0 16 / 4 * 4)
  else if o = 0x10C0 then
    if s.flag R.LE_UPD_CTRL_GO ∨ bit v 31 = true then s.updRequest (bits v 0 8) (bits v 8 16) else s.plain fs v
  else s.plain fs v

/-- The stepper block (R149, R168): CAL_GO, and MODE, which an enabled axis keeps. -/
def State.wrStp (s : State) (o : Nat) (fs : List Fld) (v : Nat) : State :=
  if o < 0xC00 ∧ o % 0x40 = 0 then if bit v 0 then s.calGo (o / 0x40) else s
  else if o < 0xC00 ∧ o % 0x40 = 4 ∧ (s.ax (192 + o / 0x40)).enabled = true then s.plain (fs.filter (fun f => f.lo != 0)) v
  else s.plain fs v

/-- The mortar and journal block (R304, R318, R323, R324). -/
def State.wrMtr (s : State) (o : Nat) (fs : List Fld) (v : Nat) : State :=
  match o with
  | 0x000 => if bit v 0 then s.askHandover else s
  | 0x008 => if 2 ≤ bits v 0 7 ∧ bits v 0 7 ≤ 64 then s.set R.MTR_LEASE_LEASE (bits v 0 7) else s
  | 0x208 => if bit v 0 then s.jTake else s
  | 0x20C => if bit v 31 then ((s.set R.JNL_DONE_INDEX (bits v 0 8)).set R.JNL_DONE_RES_LEN (bits v 8 9)).jDone (bits v 0 8) (bits v 8 9) else s.plain fs v
  | _ => s.plain fs v

/-- The host port block (R328, R337): a GO write whose OP is neither 1 nor 2 starts nothing, and the low bits of ring bases read 0. -/
def State.wrHst (s : State) (o : Nat) (fs : List Fld) (v : Nat) : State :=
  match o with
  | 0x20 =>
    if s.hst.busy then s
    else if bit v 31 ∧ (bits v 26 2 = 1 ∨ bits v 26 2 = 2) then s.mdioGo (bits v 26 2) (bits v 21 5) (bits v 16 5) (bits v 0 16)
    else s.plain (fs.filter (fun f => f.lo != 31)) v
  | 0x30 => s.set R.HST_FWQ_RXBASE_BASE (v / 1024 * 1024)
  | 0x38 => s.set R.HST_FWQ_TXBASE_BASE (v / 1024 * 1024)
  | 0x3C => (s.plain fs v).txGo 16
  | _ => s.plain fs v

/-- TIM_CFG (R344, R362): a JUMP_TH outside 1 to 1000 is ignored and leaves the field as it is (DESIGN CHOICE, log entry 98). -/
def State.wrTim (s : State) (o : Nat) (fs : List Fld) (v : Nat) : State :=
  if o = 0x18 ∧ (bits v 8 10 = 0 ∨ 1000 < bits v 8 10) then s.plain (fs.filter (fun f => f.lo != 8)) v else s.plain fs v

/-- The cores that a write of SCH_CORE_RUN releases. -/
def State.wrRun (s : State) (v : Nat) : State := [1, 2, 3].foldl (fun u n => if bit v n then u.coreRelease n else u) s

/-- The scheduler block (R370, R372, R374). -/
def State.wrSch (s : State) (o : Nat) (fs : List Fld) (v : Nat) : State :=
  if o = 0x04 then s.wrRun v
  else if 0x10 ≤ o ∧ o < 0x30 ∧ o % 8 = 0 then s.schOp ((o - 0x10) / 8) (schOpOf (bits v 8 2)) (bits v 0 8) false
  else if 0x80 ≤ o ∧ o < 0xA0 ∧ o % 8 = 4 then s.tcmpHi ((o - 0x80) / 8) v
  else s.plain fs v

/-- The DMA block (R383 to R385, R387): CFG and DESC are ignored while the channel is WAIT_REQ, ACTIVE or HELD. -/
def State.wrDma (s : State) (o : Nat) (fs : List Fld) (v : Nat) : State :=
  if o = 0 then if bit v 0 then s.dmaRecover else s
  else if o < 0x100 then s.plain fs v
  else
    let n := (o - 0x100) / 0x20
    match (o - 0x100) % 0x20 with
    | 0x00 =>
      let a := if bit v 0 then s.dmaStart n else s
      if bit v 1 then a.dmaAbort n else a
    | 0x04 => if s.dmaBusy n then s else s.plain fs v
    | 0x08 => if s.dmaBusy n then s else s.set (R.DMA_CH_DESC_DESC n) (v / 32 * 32)
    | _ => s.plain fs v

/-- The NVM block (R419, R423). -/
def State.wrNvm (s : State) (o : Nat) (fs : List Fld) (v : Nat) : State :=
  match o with
  | 0x40 => if bit v 31 ∨ s.flag R.NVM_CMD_GO = true then s.nvmGo (bits v 0 4) (s.get R.NVM_ADDR_ADDR) (bits v 4 9) else s.plain fs v
  | 0x224 => if bit v 31 then s.fuse (bits v 0 4) else s.plain fs v
  | _ => s.plain fs v

/-- TST (R406, R407): QUICK and ROUND. -/
def State.askRound (s : State) : State := (s.setFlag R.TST_CTRL_ROUND true).tstAsk .round
/-- QUICK. -/
def State.askQuick (s : State) : State := ((s.setFlag R.TST_CTRL_QUICK true).setFlag R.MTR_STAT_TEST_RUN true).tstAsk .quick
/-- TST_CFG (R410): a ROUND_S below 60 or a SCRUB_S outside 1 to 3600 is ignored and leaves its field as it is (DESIGN CHOICE, log entry 98). -/
def State.wrTstCfg (s : State) (fs : List Fld) (v : Nat) : State :=
  s.plain (fs.filter (fun f => if f.lo = 0 then decide (60 ≤ bits v 0 16) else decide (1 ≤ bits v 16 12 ∧ bits v 16 12 ≤ 3600))) v

/-- A write of TST_CTRL, in the order of its bits. -/
def State.wrTst (s : State) (v : Nat) : State :=
  let a := if bit v 0 then s.askQuick else s
  if bit v 1 then a.askRound else a

/-- A write of `v` to the register at `a`, whose fields are `fs`. -/
def State.regWrite (s : State) (a : Nat) (fs : List Fld) (v : Nat) : State :=
  let o := a % 0x10000
  match (a - 0x80000000) / 0x10000 with
  | 0 => if 0x100 ≤ o then s.wrPin ((o - 0x100) / 4) fs v else s.plain fs v
  | 1 => if o = 0x10 then s.gateWrite v 0 else s.plain fs v
  | 2 => match o with
    | 0x04 => s.wrPwrCtrl v
    | 0x0C => s.domRequest v
    | 0x10 => s.rstKey (bits v 0 8)
    | 0x20 => s.feed (bits v 0 8)
    | _ => s.plain fs v
  | 3 => if o = 0 then (let t := s.set R.BOND_CRS_CTRL_SCHED_NEXT (bits v 0 2); if bit v 4 then t.swGo else t) else s.plain fs v
  | 4 | 5 | 6 | 7 =>
    let k := (a - 0x80040000) / 0x10000
    if o = 0x90 ∨ (0xA0 ≤ o ∧ o < 0xE0) then s.wrMg k o fs v else s.plain fs v
  | 8 => if 0x10 ≤ o ∧ o < 0x50 then s.wrPf ((o - 0x10) / 16) o fs v else s.plain fs v
  | 9 => s.wrLe o fs v
  | 10 => s.wrStp o fs v
  | 13 => if o = 4 ∧ s.flag R.SAF_CMD_GO = true then s else s.plain fs v
  | 14 => s.wrMtr o fs v
  | 15 => s.wrHst o fs v
  | 17 => s.wrTim o fs v
  | 18 => s.wrSch o fs v
  | 19 => s.wrDma o fs v
  | 20 => s.wrNvm o fs v
  | 21 => if o = 0 then s.wrTst v else if o = 8 then s.wrTstCfg fs v else s.plain fs v
  | 22 => match o with
    | 0x08 => s.set R.GPIO_OUT_OUT (s.get R.GPIO_OUT_OUT ||| v % 2 ^ 32)
    | 0x0C => s.set R.GPIO_OUT_OUT (s.get R.GPIO_OUT_OUT &&& (2 ^ 32 - 1 - v % 2 ^ 32))
    | _ => s.plain fs v
  | _ => s.plain fs v

end Sys2Proof.Machine
end

