-- ==== Sys2Proof/Machine/BusWrite.lean ====
section
/-! DEFINITION. Writes over the interconnect (R11 to R13, R19 to R22, R42, R43, R105, R121, R231, R232, R393, R445). -/
namespace Sys2Proof.Machine

/-- The writable bits of the byte at `a`. Offsets 0x3C0 to 0x3FF of an axis block, for which the layout of R41 names nothing, are plain memory that reads and writes, and no hole under R20 (DESIGN CHOICE, log entry 36). -/
def State.byteMask (s : State) (a : Nat) : Nat :=
  match region a with
  | some .axis =>
    let o := (a - 0x30000000) % 0x1000
    if a < 0x300F0000 then
      if o < 0x100 then parMask o
      else if 0x180 ≤ o ∧ o < 0x1C0 then stageMask 48 (o - 0x180)
      else if 0x400 ≤ o ∧ o < 0xF00 then lpMask (bit (s.load (a - o + 0x400) 4) 22) (o - 0x400)
      else 0xFF
    else if a < 0x300F8000 then grpMask (o % 0x400)
    else 0
  | some .cam => camMask a
  | _ => 0xFF

/-- The bytes that a write of `n` bytes of `v` at `a` leaves. -/
def State.writeCells (s : State) (a v : Nat) : Nat → List (Nat × BitVec 8)
  | 0 => []
  | n + 1 =>
    let m := s.byteMask a
    let r := s.writeCells (a + 1) (v / 256) n
    if m = 0 then r
    else (a, BitVec.ofNat 8 ((s.byte a).toNat &&& (0xFF - m) ||| v % 256 &&& m)) :: r

/-- The core that a requester is. -/
def Req.coreNo : Req → Option Nat
  | .core n => some n.val
  | .dma => none

/-- A write to memory that takes it: the bytes, and reservations of other requesters on their words (R367). -/
def State.memWrite (s : State) (q : Req) (a n v : Nat) : State :=
  let w := s.writeCells a v n
  (s.poke w).unreserve w q.coreNo

/-- What a write to a row does when its memory is powered and the access is one it accepts. -/
def State.rowWrite (s : State) (r : Region) (q : Req) (a n v : Nat) : State × Bus :=
  match r with
  | .rom => (s, .error)
  | .cap => (s, .error)
  | .jnl => (s, .error)
  | .pim => if a % 8 = 0 then (s.serve q.pimNo 1).ptWrite ((a - 0x20000000) / 8) (v % 2 ^ 32) else (s.count R.PIM_WR_CNT_REJ, .error)
  | .le =>
    if leHole a then (s, .error)
    else if (s.eng ((a - 0x50000000) / 0x40000)).st = .halted then (s.memWrite q a n v, .done)
    else (s.count R.LE_WIN_ERR_CNT_COUNT, .error)
  | _ => (s.memWrite q a n v, .done)

/-- A write of `n` bytes of `v` at `a` by a requester. -/
def State.busWrite (s : State) (q : Req) (a n v : Nat) : State × Bus :=
  match region a with
  | none => (s, .error)
  | some .regs =>
    if !s.reach a then (s.gatedAcc a, .done)
    else if n ≠ 4 ∨ a % 4 ≠ 0 then (s, .error)
    else match fieldsAt a with
      | none => (s, .error)
      | some fs => (s.regWrite a fs (v % 2 ^ 32), .done)
  | some r =>
    if !s.domUp (memDom a) then (s.gatedAcc a, .done)
    else if !(if r = .pim then pimSizeOk q a n else sizeOk q a n) then (s, .error)
    else s.rowWrite r q a n v

/-- REGISTER_WRITE: a write of 1, 2, 4 or 8 bytes; a write to an address outside the register blocks is a write over the interconnect all the same. -/
def execRegisterWrite (q : Req) (a : BitVec 32) (size : Fin 4) (v : BitVec 64) (s : State) : Host.Outcome State Fault Refusal :=
  let r := s.quiet.busWrite q a.toNat (2 ^ size.val) v.toNat
  .next { r.1 with bus := r.2, pending := s.pending, jtag := s.jtag, rstLow := s.rstLow }

end Sys2Proof.Machine
end

