-- ==== Sys2Proof/Machine/DmaMove.lean ====
section
/-! DEFINITION. The data that the DMA engine moves, and how a descriptor ends (R380 to R385). Channels interleave burst by burst as R378 arbitrates them; what has been moved is brought up to date at each event of a channel (DESIGN CHOICE, log entry 62). -/
namespace Sys2Proof.Machine

/-- The beats of a range of `k` beats of `w` bytes. -/
def beatsOf (w : Nat) (r : Nat × Nat) : List Nat := (List.range (r.2 / w)).map (fun i => r.1 + w * i)

/-- The beats of a descriptor, source and destination, in the order of their writes: descending for a LINEAR move to higher addresses that overlaps its source (R380). -/
def DDesc.beats (d : DDesc) (el : List (Nat × Nat)) : List (Nat × Nat) :=
  let l := ((d.srcs el).flatMap (beatsOf d.beat)).zip ((d.dsts el).flatMap (beatsOf d.beat))
  if d.kind = 0 ∧ d.src < d.dst ∧ d.dst < d.src + d.count then l.reverse else l

/-- How a run of beats ends: all moved, or at a beat whose read or write the bus refused. -/
inductive Moved where
  | all
  | read (a : Nat)
  | write (a : Nat) (last : Bool)
  deriving DecidableEq, Repr

/-- Beats of `w` bytes are moved in order for channel `n`; the count of beats moved comes with the outcome. A capture block whose last byte is read is drained (R258, R383). -/
def State.moveBeats (s : State) (n w : Nat) : List (Nat × Nat) → State × Nat × Moved
  | [] => (s, 0, .all)
  | (a, b) :: r =>
    match s.busRead .dma a w with
    | (t, .data v) =>
      (match (if 0x40000000 ≤ a then t.capDrain n a w else t).busWrite .dma b w v with
       | (u, .error) => (u, 0, .write b r.isEmpty)
       | (u, _) =>
         let q := u.moveBeats n w r
         (q.1, q.2.1 + 1, q.2.2))
    | (t, _) => (t, 0, .read a)

/-- The bytes moved so far are noted, with COUNT, and the half event once half are written (R381, R382). -/
def State.movedTo (s : State) (n m total : Nat) (half : Bool) : State :=
  let t := (s.setDch n { s.dch n with moved := m }).set (R.DMA_CH_COUNT_COUNT n) (total - m)
  if half ∧ total / 2 ≤ m ∧ (s.dch n).moved < total / 2 then t.orFld R.DMA_HALF_HALF (2 ^ n) else t

/-- A lasting write error (R384). -/
def State.writeFail (s : State) (n addr : Nat) (last : Bool) : State :=
  let t := s.set (R.DMA_CH_ERR_ADDR_ADDR n) addr
  if last then (((t.set (R.DMA_CH_STAT_STATE n) 4).set (R.DMA_CH_STAT_ERR_CODE n) 2).set (R.DMA_CH_COUNT_COUNT n) 0).orFld R.DMA_ERR_ERR (2 ^ n)
  else t.dmaErr n 2

/-- Channel `n` goes on with its descriptor until `goal` bytes are written; a beat that the bus refuses is refused again when it is repeated, and the error is lasting (R384). -/
def State.dmaBurst (s : State) (n goal : Nat) : State :=
  let c := s.dch n
  match c.desc with
  | none => s
  | some d =>
    let total := d.total c.elems
    let w := d.beat
    let r := s.moveBeats n w ((d.beats c.elems).drop (c.moved / w) |>.take (ceilDiv (min goal total - c.moved) w))
    let m := c.moved + w * r.2.1
    let t := r.1.movedTo n m total d.halfEv
    match r.2.2 with
    | .all => t
    | .read a => t.dmaHalt a 3
    | .write a last => t.writeFail n a (last && decide (m + w = total))

/-- The bytes that an ACTIVE channel has still to move; 0 for any other. -/
def State.dmaLeft (s : State) (n : Nat) : Nat :=
  match (s.dch n).desc with
  | some d => if s.get (R.DMA_CH_STAT_STATE n) = 2 then d.total (s.dch n).elems - (s.dch n).moved else 0
  | none => 0

/-- The channel whose burst the engine takes: of the highest PRIO among those with a burst to issue, round-robin within the level (R378). -/
def State.dmaPick (s : State) : Option Nat :=
  let l := (List.range 32).filter (fun n => 0 < s.dmaLeft n)
  let p := l.foldl (fun m n => max m (s.get (R.DMA_CH_CFG_PRIO n))) 0
  let last := s.dmaTurn.getD p 31
  ((List.range 32).map (fun i => (last + 1 + i) % 32)).find? (fun n => l.contains n && s.get (R.DMA_CH_CFG_PRIO n) == p)

/-- Bursts of at most 64 bytes are issued, each channel in its turn, until channel `n` has written `goal` bytes, fails, or the engine stops (R378). -/
def State.dmaArb (n goal : Nat) : Nat → State → State
  | 0, s => s
  | k + 1, s =>
    if goal ≤ (s.dch n).moved ∨ s.dmaLeft n = 0 ∨ s.flag R.DMA_STAT_HALTED = true then s
    else match s.dmaPick with
      | none => s
      | some m =>
        let far := (s.dch m).moved + 64
        State.dmaArb n goal k ({ s with dmaTurn := s.dmaTurn.set (s.get (R.DMA_CH_CFG_PRIO m)) m }.dmaBurst m (if m = n then min goal far else far))

/-- The bursts that are left of every channel, and one. -/
def State.dmaFuel (s : State) : Nat := (List.range 32).foldl (fun k m => k + ceilDiv (s.dmaLeft m) 64) 1

/-- Channel `n` goes on until `goal` bytes of its descriptor are written, while the others have their turns (R378); COUNT shows what is left (R381). The answer says whether it got there. -/
def State.dmaMove (s : State) (n goal : Nat) : State × Bool :=
  match (s.dch n).desc with
  | none => (s, false)
  | some d =>
    if s.get (R.DMA_CH_STAT_STATE n) ≠ 2 ∨ s.flag R.DMA_STAT_HALTED = true then (s, false)
    else
      let total := d.total (s.dch n).elems
      let stop := min goal total
      let t := State.dmaArb n stop s.dmaFuel (s.set (R.DMA_CH_COUNT_COUNT n) (total - (s.dch n).moved))
      (t, decide (stop ≤ (t.dch n).moved))

/-- The full event of a descriptor whose last write has completed (R382); a one-byte descriptor's half is due from its start. -/
def State.fullEvent (s : State) (n : Nat) (d : DDesc) : State :=
  let t := if d.halfEv ∧ (d.total (s.dch n).elems) / 2 = 0 then s.orFld R.DMA_HALF_HALF (2 ^ n) else s
  if d.fullEv then t.orFld R.DMA_FULL_FULL (2 ^ n) else t

/-- The rest of a descriptor is moved and its events set; the answer says that it is complete. -/
def State.dmaFinish (s : State) (n : Nat) : State × Bool :=
  match (s.dch n).desc with
  | none => (s, false)
  | some d =>
    let r := s.dmaMove n (d.total (s.dch n).elems)
    if r.2 then (r.1.fullEvent n d, true) else r

/-- DESCRIPTOR_COMPLETE. -/
def State.descComplete (s : State) (n : Nat) : State :=
  let r := s.dmaFinish n
  if r.2 then r.1.dmaNext n else r.1

/-- HALF_EVENT. -/
def State.halfEvent (s : State) (n : Nat) : State :=
  match (s.dch n).desc with
  | some d => if d.halfEv then (s.dmaMove n (d.total (s.dch n).elems / 2)).1 else s
  | none => s

/-- DMA_ABORT (R385): `written` bytes have been written by then; `tie` says that the descriptor under way completes in the engine cycle in which ABORT is applied. -/
def State.dmaAbortAt (s : State) (n written : Nat) (tie : Bool) : State :=
  if s.get (R.DMA_CH_STAT_STATE n) ≠ 2 then s.dmaAbort n
  else if tie then
    let r := s.dmaFinish n
    if !r.2 then r.1
    else if (r.1.dch n).next = 0 then (r.1.dmaNext n).setFlag (R.DMA_CH_STAT_NTA n) true
    else r.1.set (R.DMA_CH_STAT_STATE n) 6
  else (s.dmaMove n written).1.dmaAbort n

/-- DMA_BUS_ERROR (R384): a beat of channel `n` at `addr` fails after `written` bytes of its descriptor; `again` says that the repeat succeeds. A lasting write error on the last beat leaves every other byte written. -/
def State.dmaBusError (s : State) (n : Nat) (k : DErr) (addr : Nat) (again : Bool) (written : Nat) (last : Bool) : State :=
  if s.get (R.DMA_CH_STAT_STATE n) ≠ 2 ∨ s.flag R.DMA_STAT_HALTED = true then s
  else if again then s.count R.DMA_TRANS_CNT_COUNT
  else
    let total := match (s.dch n).desc with | some d => d.total (s.dch n).elems - d.beat | none => 0
    let r := s.dmaMove n (if k = .write ∧ last = true then total else min written total)
    if !r.2 ∧ (s.dch n).desc.isSome = true then r.1
    else match k with
      | .read => r.1.dmaHalt addr 3
      | .desc => r.1.dmaHalt addr 4
      | .write => r.1.writeFail n addr last

/-! Meanings. -/

/-- What a movement of data can change: whatever a write over the interconnect reaches. -/
def moveDo (t s : State) : Host.Outcome State Fault Refusal := s.live 0x80130000 (.next { t with bus := .none, pending := s.pending, jtag := s.jtag, rstLow := s.rstLow })

/-- HALF_EVENT. -/
def execHalfEvent (n : Fin 32) (s : State) : Host.Outcome State Fault Refusal := moveDo (s.quiet.halfEvent n) s

/-- DESCRIPTOR_COMPLETE. -/
def execDescriptorComplete (n : Fin 32) (s : State) : Host.Outcome State Fault Refusal := moveDo (s.quiet.descComplete n) s

/-- DMA_BUS_ERROR. -/
def execDmaBusError (n : Fin 32) (k : DErr) (addr : BitVec 32) (again : Bool) (written : Nat) (last : Bool) (s : State) : Host.Outcome State Fault Refusal :=
  moveDo (s.quiet.dmaBusError n k addr.toNat again written last) s

/-- DMA_ABORT: a write that sets ABORT of channel `n`. -/
def execDmaAbort (n : Fin 32) (written : Nat) (tie : Bool) (s : State) : Host.Outcome State Fault Refusal :=
  s.atReg (0x80130100 + 0x20 * n.val) (moveDo (s.quiet.dmaAbortAt n written tie) s)

end Sys2Proof.Machine
end

