-- ==== Sys2Proof/Machine/PfRows.lean ====
section
/-! DEFINITION. The commands of the profile engines as rows, and the events of an axis that come by themselves (R46 to R82, R251). -/
namespace Sys2Proof.Machine

/-- The footprint of a profile command. -/
def pfDo (n : Fin 4) (op : Nat) (target : BitVec 8) (isGroup : Bool) (s : State) : Host.Outcome State Fault Refusal :=
  let t := (s.pfRun n ⟨op, target.toNat, isGroup, s.stage isGroup target.toNat⟩).axisEvents s.tsNow
  s.atReg (0x80080010 + 0x10 * n.val) <| .next { s with axes := t.axes, grps := t.grps, chans := t.chans, loops := t.loops, upd := t.upd, engs := t.engs, crs := t.crs, mem := t.mem, tst := t.tst, flds := t.flds, cap := t.cap, pfAns := t.pfAns, bus := .none, outs := [] }

/-- ENABLE. -/
def execEnable (n : Fin 4) (target : BitVec 8) (isGroup : Bool) (s : State) : Host.Outcome State Fault Refusal := pfDo n 1 target isGroup s
/-- DISABLE. -/
def execDisable (n : Fin 4) (target : BitVec 8) (isGroup : Bool) (s : State) : Host.Outcome State Fault Refusal := pfDo n 2 target isGroup s
/-- QUEUE. -/
def execQueue (n : Fin 4) (target : BitVec 8) (isGroup : Bool) (s : State) : Host.Outcome State Fault Refusal := pfDo n 3 target isGroup s
/-- REPLACE. -/
def execReplace (n : Fin 4) (target : BitVec 8) (isGroup : Bool) (s : State) : Host.Outcome State Fault Refusal := pfDo n 4 target isGroup s
/-- STOP. -/
def execStop (n : Fin 4) (target : BitVec 8) (isGroup : Bool) (s : State) : Host.Outcome State Fault Refusal := pfDo n 5 target isGroup s
/-- ESTOP. -/
def execEstop (n : Fin 4) (target : BitVec 8) (isGroup : Bool) (s : State) : Host.Outcome State Fault Refusal := pfDo n 6 target isGroup s
/-- CLEAR_FAULT. -/
def execClearFault (n : Fin 4) (target : BitVec 8) (isGroup : Bool) (s : State) : Host.Outcome State Fault Refusal := pfDo n 7 target isGroup s
/-- HOME. -/
def execHome (n : Fin 4) (target : BitVec 8) (isGroup : Bool) (s : State) : Host.Outcome State Fault Refusal := pfDo n 8 target isGroup s
/-- RELOAD. -/
def execReload (n : Fin 4) (target : BitVec 8) (isGroup : Bool) (s : State) : Host.Outcome State Fault Refusal := pfDo n 9 target isGroup s
/-- SET_GROUP. -/
def execSetGroup (n : Fin 4) (target : BitVec 8) (isGroup : Bool) (s : State) : Host.Outcome State Fault Refusal := pfDo n 0x0A target isGroup s

/-- BAD_OPCODE: an issue whose opcode is not in the table; a defined opcode is no such issue and is applied as itself. -/
def execBadOpcode (n : Fin 4) (op : BitVec 8) (target : BitVec 8) (isGroup : Bool) (s : State) : Host.Outcome State Fault Refusal :=
  pfDo n op.toNat target isGroup s

/-- DWELL_EXPIRE: an active DWELL in the last course of its hold time ends (R52). -/
def execDwellExpire (a : Fin 240) (s : State) : Host.Outcome State Fault Refusal :=
  let x := s.ax a
  let t := if (x.st = .standstill ∨ x.st = .homing ∨ x.st = .group) ∧ (x.dwell = some 0 ∨ x.dwell = some 1) ∧ x.active = true then (((s.setAx a { x.leave 3 with dwell := none }).settleAll.noteEvents s).publishAll).axisEvents s.tsNow else s
  .next { s with axes := t.axes, grps := t.grps, mem := t.mem, tst := t.tst, flds := t.flds, cap := t.cap, bus := .none, outs := [] }

/-- LIMIT_DEBOUNCE: an input whose run of samples has reached N changes (R79); inputs 0 LP, 1 LN, 2 HM. -/
def execLimitDebounce (a : Fin 240) (i : Fin 3) (s : State) : Host.Outcome State Fault Refusal :=
  let x := s.ax a
  let n := debN x i (s.get R.BOND_CRS_PERIOD_PERIOD_NS)
  let y : Ax := if i.val = 0 then { x with lp := x.lp.settle n } else if i.val = 1 then { x with ln := x.ln.settle n } else { x with hm := x.hm.settle n }
  .next { s with axes := Store.put Ax.init s.axes a y, bus := .none, outs := [] }

/-- HOME_DWELL_EXPIRE: the condition of HM_HARDSTOP has held for HOME_DWELL, and the home point is reached (R77, R165). -/
def execHomeDwellExpire (a : Fin 240) (s : State) : Host.Outcome State Fault Refusal :=
  let x := s.ax a
  let y : Ax :=
    match x.homing with
    | some h =>
      if x.par.homeMethod = 3 ∧ h.step = .search ∧ (a.val < 192 ∨ s.homeStall a = true) ∧ x.par.homeDwell * 1000000 ≤ h.held + s.get R.BOND_CRS_PERIOD_PERIOD_NS then
        match h.mark with
        | some m => x.hardHome a m
        | none => x
      else x
    | none => x
  let t := ((s.setAx a y).noteEvents s).axisEvents s.tsNow
  .next { s with axes := t.axes, flds := t.flds, cap := t.cap, bus := .none, outs := [] }

end Sys2Proof.Machine
end

