-- ==== Sys2Proof/Types/Rv.lean ====
section
/-! DEFINITION. The RV32IMAFC instructions of an application core, as the referenced manual has them (R364), each in its 32-bit form. Register numbers and immediates are numbers; an immediate is its 32-bit two's complement pattern. -/
namespace Sys2Proof.Machine

/-- The conditions of the branches. -/
inductive RvCmp where
  | eq | ne | lt | ge | ltu | geu
  deriving DecidableEq, Repr

/-- The integer operations on two operands, M extension included. -/
inductive RvAlu where
  | add | sub | sll | slt | sltu | xor | srl | sra | or | and
  | mul | mulh | mulhsu | mulhu | div | divu | rem | remu
  deriving DecidableEq, Repr

/-- The operations of the AMO instructions. -/
inductive RvAmo where
  | swap | add | xor | and | or | min | max | minu | maxu
  deriving DecidableEq, Repr

/-- How a CSR instruction combines its operand: write, set bits, clear bits. -/
inductive RvCsrOp where
  | rw | rs | rc
  deriving DecidableEq, Repr

/-- The arithmetic of two FP operands. -/
inductive RvFop where
  | add | sub | mul | div
  deriving DecidableEq, Repr

/-- The FP comparisons. -/
inductive RvFcmp where
  | eq | lt | le
  deriving DecidableEq, Repr

/-- The sign injections. -/
inductive RvSgn where
  | j | jn | jx
  deriving DecidableEq, Repr

/-- An instruction. In `fma`, `np` negates the product and `nc` the addend. -/
inductive Rv where
  | lui (rd imm : Nat)
  | auipc (rd imm : Nat)
  | jal (rd off : Nat)
  | jalr (rd rs1 imm : Nat)
  | branch (c : RvCmp) (rs1 rs2 off : Nat)
  | load (size : Nat) (signed : Bool) (rd rs1 imm : Nat)
  | store (size : Nat) (rs1 rs2 imm : Nat)
  | alui (op : RvAlu) (rd rs1 imm : Nat)
  | alu (op : RvAlu) (rd rs1 rs2 : Nat)
  | fence
  | fenceI
  | ecall
  | ebreak
  | mret
  | wfi
  | csr (op : RvCsrOp) (imm : Bool) (rd src k : Nat)
  | lr (rd rs1 : Nat)
  | sc (rd rs1 rs2 : Nat)
  | amo (op : RvAmo) (rd rs1 rs2 : Nat)
  | flw (rd rs1 imm : Nat)
  | fsw (rs1 rs2 imm : Nat)
  | fma (np nc : Bool) (rd rs1 rs2 rs3 rm : Nat)
  | farith (op : RvFop) (rd rs1 rs2 rm : Nat)
  | fsqrt (rd rs1 rm : Nat)
  | fsgn (k : RvSgn) (rd rs1 rs2 : Nat)
  | fminmax (max : Bool) (rd rs1 rs2 : Nat)
  | fcvtWS (uns : Bool) (rd rs1 rm : Nat)
  | fcvtSW (uns : Bool) (rd rs1 rm : Nat)
  | fmvXW (rd rs1 : Nat)
  | fmvWX (rd rs1 : Nat)
  | fclass (rd rs1 : Nat)
  | fcmp (k : RvFcmp) (rd rs1 rs2 : Nat)
  deriving DecidableEq, Repr

end Sys2Proof.Machine
end

