-- ==== Sys2Proof/Machine/RvCsr.lean ====
section
/-! DEFINITION. The control and status registers of a core, its memory protection, and its traps (R364, R365, R367, R369, R371, R372). What the referenced manual gives is PRESUMED from it; log entry 63 names each choice it leaves. -/
namespace Sys2Proof.Machine

/-! Registers. -/

/-- An integer register; X0 reads 0. -/
def Core.getX (c : Core) (r : Nat) : Nat := if r = 0 then 0 else at_ c.x r

/-- Write an integer register; a write of X0 is discarded. -/
def Core.setX (c : Core) (r v : Nat) : Core := if r = 0 then c else { c with x := c.x.set r (v % 2 ^ 32) }

/-- An FP register. -/
def Core.getF (c : Core) (r : Nat) : Nat := at_ c.f r

/-- mstatus.FS is not Off. -/
def Core.fpOn (c : Core) : Bool := bits (c.getCsr csrMstatus) 13 2 != 0

/-- mstatus.FS becomes Dirty. -/
def Core.dirty (c : Core) : Core := c.setCsr csrMstatus (setBits (c.getCsr csrMstatus) 13 2 3)

/-- Write an FP register. -/
def Core.setF (c : Core) (r v : Nat) : Core := { c with f := c.f.set r (v % 2 ^ 32) }.dirty

/-- Exception flags accrue in fcsr. -/
def Core.accrue (c : Core) (fl : Nat) : Core := if fl = 0 then c else (c.setCsr csrFcsr (c.getCsr csrFcsr ||| fl)).dirty

/-- The rounding mode in effect; none where frm is reserved. -/
def Core.rm (c : Core) (rm : Nat) : Option Nat :=
  let r := if rm = 7 then bits (c.getCsr csrFcsr) 5 3 else rm
  if 5 ≤ r then none else some r

/-! Physical memory protection (R369). -/

/-- The configuration byte of entry `i`. -/
def Core.pmpCfg (c : Core) (i : Nat) : Nat := bits (c.getCsr (0x3A0 + i / 4)) (8 * (i % 4)) 8

/-- The address register of entry `i`. -/
def Core.pmpAddr (c : Core) (i : Nat) : Nat := c.getCsr (0x3B0 + i)

/-- How many of the low `k` bits of `v` are ones before the first zero. -/
def trailingOnes : Nat → Nat → Nat
  | 0, _ => 0
  | k + 1, v => if v % 2 = 1 then 1 + trailingOnes k (v / 2) else 0

/-- The range of entry `i`; none where it is off. -/
def Core.pmpRange (c : Core) (i : Nat) : Option (Nat × Nat) :=
  let a := c.pmpAddr i
  match bits (c.pmpCfg i) 3 2 with
  | 0 => none
  | 1 => some (if i = 0 then 0 else 4 * c.pmpAddr (i - 1), 4 * a)
  | 2 => some (4 * a, 4 * a + 4)
  | _ =>
    let t := trailingOnes 32 a
    let base := a / 2 ^ (t + 1) * 2 ^ (t + 1) * 4
    some (base, base + 2 ^ (t + 3))

/-- An access of `n` bytes at `a` in machine or user mode with permission bit `p` (0 R, 1 W, 2 X): the lowest entry that matches a byte decides, must match all, and binds machine mode only when locked; where none matches, machine mode may and user mode may not. -/
def Core.pmpOk (c : Core) (m : Bool) (a n p : Nat) : Bool :=
  match (List.range 16).findSome? (fun i => match c.pmpRange i with
      | some (lo, hi) => if a < hi ∧ lo < a + n then some (i, decide (lo ≤ a ∧ a + n ≤ hi)) else none
      | none => none) with
  | none => m
  | some (i, all) => all && ((m && !bit (c.pmpCfg i) 7) || bit (c.pmpCfg i) p)

/-- The mode of loads and stores: that of mstatus.MPP under MPRV. -/
def Core.dataMode (c : Core) : Bool :=
  let st := c.getCsr csrMstatus
  if bit st 17 then bits st 11 2 == 3 else c.machine

/-- A load or store is permitted. -/
def Core.dataOk (c : Core) (a n p : Nat) : Bool := c.pmpOk c.dataMode a n p

/-! CSRs. -/

/-- A counter half: its low word, or its high word. -/
def half (v : Nat) (hi : Bool) : Nat := if hi then v / 2 ^ 32 % 2 ^ 32 else v % 2 ^ 32

/-- A 64-bit count with one half replaced. -/
def setHalf (v : Nat) (hi : Bool) (x : Nat) : Nat := if hi then v % 2 ^ 32 + x % 2 ^ 32 * 2 ^ 32 else v / 2 ^ 32 * 2 ^ 32 + x % 2 ^ 32

/-- What a CSR of core `n` reads; none for a CSR that the core does not have. -/
def State.csrRead (s : State) (n k : Nat) : Option Nat :=
  let c := s.core n
  if k = 0x001 then some (bits (c.getCsr csrFcsr) 0 5)
  else if k = 0x002 then some (bits (c.getCsr csrFcsr) 5 3)
  else if k = 0x003 then some (bits (c.getCsr csrFcsr) 0 8)
  else if k = 0x300 then some (c.getCsr csrMstatus % 2 ^ 31 + (if bits (c.getCsr csrMstatus) 13 2 = 3 then 2 ^ 31 else 0))
  else if k = 0x301 then some 0x40101125
  else if k = 0x344 then some (s.mip n)
  else if k = 0x304 ∨ k = 0x305 ∨ k = 0x306 ∨ k = 0x30A ∨ (0x340 ≤ k ∧ k ≤ 0x343) ∨ (0x3A0 ≤ k ∧ k ≤ 0x3A3) ∨ (0x3B0 ≤ k ∧ k ≤ 0x3BF) then some (c.getCsr k)
  else if k = 0x310 ∨ k = 0x31A ∨ k = 0x320 ∨ (0x323 ≤ k ∧ k ≤ 0x33F) then some 0
  else if k = 0xB00 ∨ k = 0xC00 then some (half c.cyc false)
  else if k = 0xB80 ∨ k = 0xC80 then some (half c.cyc true)
  else if k = 0xB02 ∨ k = 0xC02 then some (half c.ret false)
  else if k = 0xB82 ∨ k = 0xC82 then some (half c.ret true)
  else if k = 0xC01 then some (half s.now false)
  else if k = 0xC81 then some (half s.now true)
  else if (0xB03 ≤ k ∧ k ≤ 0xB1F) ∨ (0xB83 ≤ k ∧ k ≤ 0xB9F) ∨ (0xC03 ≤ k ∧ k ≤ 0xC1F) ∨ (0xC83 ≤ k ∧ k ≤ 0xC9F) then some 0
  else if k = 0xF11 ∨ k = 0xF12 ∨ k = 0xF15 then some 0
  else if k = 0xF13 then some (s.get R.SYS_REV_MINOR + 65536 * s.get R.SYS_REV_MAJOR)
  else if k = 0xF14 then some n
  else none

/-- The core's mode may access CSR `k`: machine CSRs need machine mode, user mode reads the counters that mcounteren names, and the FP CSRs need FS. -/
def Core.csrMay (c : Core) (k : Nat) : Bool :=
  (c.machine || bits k 8 2 == 0) &&
  (c.machine || !(decide (0xC00 ≤ k ∧ k < 0xC20) || decide (0xC80 ≤ k ∧ k < 0xCA0)) || bit (c.getCsr 0x306) (k % 32)) &&
  (c.fpOn || !(k == 1 || k == 2 || k == 3))

/-- The value that a write of mstatus leaves: the fields of a machine with machine and user mode; an MPP that names no mode keeps the old one. -/
def legalStatus (old v : Nat) : Nat :=
  let mpp := bits v 11 2
  setBits (v &&& 0x00226088) 11 2 (if mpp = 1 ∨ mpp = 2 then bits old 11 2 else mpp)

/-- A configuration byte of PMP as a write leaves it: bits 5 and 6 read 0, W without R is not held, and L is honoured in entries 0 to 7 only. -/
def legalCfg (lockable : Bool) (b : Nat) : Nat :=
  let v := if b % 4 = 2 then b &&& 0x9D else b &&& 0x9F
  if lockable then v else v &&& 0x1F

/-- A write of PMP configuration register `g`: locked entries keep their byte. -/
def Core.setPmpCfg (c : Core) (g v : Nat) : Core :=
  c.setCsr (0x3A0 + g) ((List.range 4).foldl (fun w j =>
    w + 2 ^ (8 * j) * (if bit (c.pmpCfg (4 * g + j)) 7 then c.pmpCfg (4 * g + j) else legalCfg (decide (g < 2)) (bits v (8 * j) 8))) 0)

/-- A write of a PMP address register: ignored while its entry is locked, or the next is locked as the top of a range. -/
def Core.setPmpAddr (c : Core) (i v : Nat) : Core :=
  let top := decide (i < 15) && bit (c.pmpCfg (i + 1)) 7 && bits (c.pmpCfg (i + 1)) 3 2 == 1
  if bit (c.pmpCfg i) 7 || top then c else c.setCsr (0x3B0 + i) v

/-- A write of a CSR; fields that are not the core's keep their value. -/
def Core.csrWrite (c : Core) (k v : Nat) : Core :=
  if k = 0x001 then (c.setCsr csrFcsr (setBits (c.getCsr csrFcsr) 0 5 v)).dirty
  else if k = 0x002 then (c.setCsr csrFcsr (setBits (c.getCsr csrFcsr) 5 3 v)).dirty
  else if k = 0x003 then (c.setCsr csrFcsr (bits v 0 8)).dirty
  else if k = 0x300 then c.setCsr k (legalStatus (c.getCsr k) v)
  else if k = 0x304 then c.setCsr k (v &&& 0x888)
  else if k = 0x305 then c.setCsr k (v &&& 0xFFFFFFFD)
  else if k = 0x306 then c.setCsr k (v &&& 7)
  else if k = 0x30A then c.setCsr k (v &&& 1)
  else if k = 0x341 then c.setCsr k (v &&& 0xFFFFFFFE)
  else if k = 0x340 ∨ k = 0x342 ∨ k = 0x343 then c.setCsr k v
  else if 0x3A0 ≤ k ∧ k ≤ 0x3A3 then c.setPmpCfg (k - 0x3A0) v
  else if 0x3B0 ≤ k ∧ k ≤ 0x3BF then c.setPmpAddr (k - 0x3B0) v
  else if k = 0xB00 then { c with cyc := setHalf c.cyc false v }
  else if k = 0xB80 then { c with cyc := setHalf c.cyc true v }
  else if k = 0xB02 then { c with ret := setHalf c.ret false v }
  else if k = 0xB82 then { c with ret := setHalf c.ret true v }
  else c

/-! Traps. -/

/-- The core takes a trap into machine mode: mepc, mcause, mtval and mstatus are written, the reservation is lost (R367), and an interrupt goes to its own vector where mtvec asks for it. -/
def Core.trap (c : Core) (intr : Bool) (cause tval : Nat) : Core :=
  let st := c.getCsr csrMstatus
  let tv := c.getCsr 0x305
  let st' := setBits (setBit (setBit st 7 (bit st 3)) 3 false) 11 2 (if c.machine then 3 else 0)
  let d := (((c.setCsr csrMstatus st').setCsr 0x341 c.pc).setCsr 0x342 (cause + (if intr then 2 ^ 31 else 0))).setCsr 0x343 tval
  { d with machine := true, res := none, wfi := false, pc := (tv / 4 * 4 + (if intr && bit tv 0 then 4 * cause else 0)) % 2 ^ 32 }

/-- MRET. -/
def Core.mret (c : Core) : Core :=
  let st := c.getCsr csrMstatus
  let m := bits st 11 2 == 3
  let st' := setBits (setBit (setBit st 3 (bit st 7)) 7 true) 11 2 0
  { c.setCsr csrMstatus (if m then st' else setBit st' 17 false) with machine := m, pc := c.getCsr 0x341 }

/-- The interrupt that core `n` takes at this boundary: external, then software, then timer, where mie enables it and the core is in user mode or mstatus.MIE is set. -/
def State.intr (s : State) (n : Nat) : Option Nat :=
  let c := s.core n
  let p := s.mip n &&& c.getCsr 0x304
  if c.machine && !c.mie then none
  else [11, 3, 7].find? (fun i => bit p i)

end Sys2Proof.Machine
end

