-- ==== Sys2Proof/Machine/RvDecode.lean ====
section
/-! DEFINITION. Decoding of RV32IMAFC with Zicsr and Zifencei (R364). The encodings are the referenced manual's (PRESUMED, log entry 63); every encoding it reserves decodes to nothing. -/
namespace Sys2Proof.Machine

/-- The low `w` bits of `v`, sign-extended to 32 bits. -/
def sext (w v : Nat) : Nat := ux 32 (sx w v)

/-! The 32-bit forms: immediates. -/

/-- The I immediate. -/
def immI (w : Nat) : Nat := sext 12 (bits w 20 12)
/-- The S immediate. -/
def immS (w : Nat) : Nat := sext 12 (bits w 7 5 + bits w 25 7 * 2 ^ 5)
/-- The B immediate. -/
def immB (w : Nat) : Nat := sext 13 (bits w 8 4 * 2 + bits w 25 6 * 2 ^ 5 + bits w 7 1 * 2 ^ 11 + bits w 31 1 * 2 ^ 12)
/-- The U immediate. -/
def immU (w : Nat) : Nat := bits w 12 20 * 2 ^ 12
/-- The J immediate. -/
def immJ (w : Nat) : Nat := sext 21 (bits w 21 10 * 2 + bits w 20 1 * 2 ^ 11 + bits w 12 8 * 2 ^ 12 + bits w 31 1 * 2 ^ 20)

/-- The condition of a branch by funct3. -/
def rvCmp : Nat → Option RvCmp
  | 0 => some .eq | 1 => some .ne | 4 => some .lt | 5 => some .ge | 6 => some .ltu | 7 => some .geu
  | _ => none

/-- A register-register operation by funct7 and funct3. -/
def rvAlu : Nat → Nat → Option RvAlu
  | 0, 0 => some .add | 0, 1 => some .sll | 0, 2 => some .slt | 0, 3 => some .sltu
  | 0, 4 => some .xor | 0, 5 => some .srl | 0, 6 => some .or | 0, 7 => some .and
  | 0x20, 0 => some .sub | 0x20, 5 => some .sra
  | 1, 0 => some .mul | 1, 1 => some .mulh | 1, 2 => some .mulhsu | 1, 3 => some .mulhu
  | 1, 4 => some .div | 1, 5 => some .divu | 1, 6 => some .rem | 1, 7 => some .remu
  | _, _ => none

/-- A register-immediate operation by funct3 and the bits above. -/
def rvAlui (f3 f7 : Nat) : Option RvAlu :=
  match f3 with
  | 0 => some .add | 2 => some .slt | 3 => some .sltu | 4 => some .xor | 6 => some .or | 7 => some .and
  | 1 => if f7 = 0 then some .sll else none
  | _ => if f7 = 0 then some .srl else if f7 = 0x20 then some .sra else none

/-- An AMO by funct5. -/
def rvAmo : Nat → Option RvAmo
  | 1 => some .swap | 0 => some .add | 4 => some .xor | 12 => some .and | 8 => some .or
  | 16 => some .min | 20 => some .max | 24 => some .minu | 28 => some .maxu
  | _ => none

/-- The SYSTEM opcode. -/
def rvSystem (w : Nat) : Option Rv :=
  let rd := bits w 7 5
  let src := bits w 15 5
  let k := bits w 20 12
  match bits w 12 3 with
  | 0 => if rd ≠ 0 ∨ src ≠ 0 then none
    else match k with
      | 0 => some .ecall | 1 => some .ebreak | 0x302 => some .mret | 0x105 => some .wfi
      | _ => none
  | 1 => some (.csr .rw false rd src k)
  | 2 => some (.csr .rs false rd src k)
  | 3 => some (.csr .rc false rd src k)
  | 5 => some (.csr .rw true rd src k)
  | 6 => some (.csr .rs true rd src k)
  | 7 => some (.csr .rc true rd src k)
  | _ => none

/-- The OP-FP opcode. -/
def rvFp (w : Nat) : Option Rv :=
  let rd := bits w 7 5
  let a := bits w 15 5
  let b := bits w 20 5
  let rm := bits w 12 3
  match bits w 25 7 with
  | 0x00 => some (.farith .add rd a b rm)
  | 0x04 => some (.farith .sub rd a b rm)
  | 0x08 => some (.farith .mul rd a b rm)
  | 0x0C => some (.farith .div rd a b rm)
  | 0x2C => if b = 0 then some (.fsqrt rd a rm) else none
  | 0x10 => match rm with
    | 0 => some (.fsgn .j rd a b) | 1 => some (.fsgn .jn rd a b) | 2 => some (.fsgn .jx rd a b)
    | _ => none
  | 0x14 => match rm with
    | 0 => some (.fminmax false rd a b) | 1 => some (.fminmax true rd a b)
    | _ => none
  | 0x60 => if b = 0 then some (.fcvtWS false rd a rm) else if b = 1 then some (.fcvtWS true rd a rm) else none
  | 0x68 => if b = 0 then some (.fcvtSW false rd a rm) else if b = 1 then some (.fcvtSW true rd a rm) else none
  | 0x50 => match rm with
    | 2 => some (.fcmp .eq rd a b) | 1 => some (.fcmp .lt rd a b) | 0 => some (.fcmp .le rd a b)
    | _ => none
  | 0x70 => if b = 0 ∧ rm = 0 then some (.fmvXW rd a) else if b = 0 ∧ rm = 1 then some (.fclass rd a) else none
  | 0x78 => if b = 0 ∧ rm = 0 then some (.fmvWX rd a) else none
  | _ => none

/-- The rounding modes 5 and 6 are reserved. -/
def rmOk (w : Nat) : Bool := bits w 12 3 != 5 && bits w 12 3 != 6

/-- A 32-bit instruction. -/
def rv32 (w : Nat) : Option Rv :=
  let rd := bits w 7 5
  let f3 := bits w 12 3
  let a := bits w 15 5
  let b := bits w 20 5
  let f7 := bits w 25 7
  match bits w 0 7 with
  | 0x37 => some (.lui rd (immU w))
  | 0x17 => some (.auipc rd (immU w))
  | 0x6F => some (.jal rd (immJ w))
  | 0x67 => if f3 = 0 then some (.jalr rd a (immI w)) else none
  | 0x63 => (rvCmp f3).map (fun c => .branch c a b (immB w))
  | 0x03 => match f3 with
    | 0 => some (.load 1 true rd a (immI w)) | 1 => some (.load 2 true rd a (immI w)) | 2 => some (.load 4 true rd a (immI w))
    | 4 => some (.load 1 false rd a (immI w)) | 5 => some (.load 2 false rd a (immI w))
    | _ => none
  | 0x23 => match f3 with
    | 0 => some (.store 1 a b (immS w)) | 1 => some (.store 2 a b (immS w)) | 2 => some (.store 4 a b (immS w))
    | _ => none
  | 0x13 => (rvAlui f3 f7).map (fun op => .alui op rd a (immI w))
  | 0x33 => (rvAlu f7 f3).map (fun op => .alu op rd a b)
  | 0x0F => match f3 with
    | 0 => some .fence | 1 => some .fenceI
    | _ => none
  | 0x73 => rvSystem w
  | 0x2F => if f3 ≠ 2 then none
    else match bits w 27 5 with
      | 2 => if b = 0 then some (.lr rd a) else none
      | 3 => some (.sc rd a b)
      | k => (rvAmo k).map (fun op => .amo op rd a b)
  | 0x07 => if f3 = 2 then some (.flw rd a (immI w)) else none
  | 0x27 => if f3 = 2 then some (.fsw a b (immS w)) else none
  | 0x43 => if bits w 25 2 = 0 ∧ rmOk w = true then some (.fma false false rd a b (bits w 27 5) f3) else none
  | 0x47 => if bits w 25 2 = 0 ∧ rmOk w = true then some (.fma false true rd a b (bits w 27 5) f3) else none
  | 0x4B => if bits w 25 2 = 0 ∧ rmOk w = true then some (.fma true false rd a b (bits w 27 5) f3) else none
  | 0x4F => if bits w 25 2 = 0 ∧ rmOk w = true then some (.fma true true rd a b (bits w 27 5) f3) else none
  | 0x53 => if rmOk w then rvFp w else none
  | _ => none

/-! The 16-bit forms (C extension). -/

/-- The register that a three-bit field names. -/
def creg (w lo : Nat) : Nat := 8 + bits w lo 3

/-- The offset of the word loads and stores of quadrant 0. -/
def cOffW (w : Nat) : Nat := bits w 6 1 * 4 + bits w 10 3 * 8 + bits w 5 1 * 64

/-- The offset of the word loads from the stack. -/
def cOffLsp (w : Nat) : Nat := bits w 4 3 * 4 + bits w 12 1 * 32 + bits w 2 2 * 64

/-- The offset of the word stores to the stack. -/
def cOffSsp (w : Nat) : Nat := bits w 9 4 * 4 + bits w 7 2 * 64

/-- The six-bit immediate, sign-extended. -/
def cImm (w : Nat) : Nat := sext 6 (bits w 2 5 + bits w 12 1 * 32)

/-- The jump offset. -/
def cOffJ (w : Nat) : Nat :=
  sext 12 (bits w 3 3 * 2 + bits w 11 1 * 16 + bits w 2 1 * 32 + bits w 7 1 * 64 + bits w 6 1 * 128 + bits w 9 2 * 256 + bits w 8 1 * 1024 + bits w 12 1 * 2048)

/-- The branch offset. -/
def cOffB (w : Nat) : Nat :=
  sext 9 (bits w 3 2 * 2 + bits w 10 2 * 8 + bits w 2 1 * 32 + bits w 5 2 * 64 + bits w 12 1 * 256)

/-- Quadrant 0. -/
def rvC0 (w : Nat) : Option Rv :=
  match bits w 13 3 with
  | 0 =>
    let i := bits w 6 1 * 4 + bits w 5 1 * 8 + bits w 11 2 * 16 + bits w 7 4 * 64
    if i = 0 then none else some (.alui .add (creg w 2) 2 i)
  | 2 => some (.load 4 true (creg w 2) (creg w 7) (cOffW w))
  | 3 => some (.flw (creg w 2) (creg w 7) (cOffW w))
  | 6 => some (.store 4 (creg w 7) (creg w 2) (cOffW w))
  | 7 => some (.fsw (creg w 7) (creg w 2) (cOffW w))
  | _ => none

/-- The register operations of quadrant 1. -/
def rvC1a (w : Nat) : Option Rv :=
  let rd := creg w 7
  match bits w 10 2 with
  | 0 => if bit w 12 then none else some (.alui .srl rd rd (bits w 2 5))
  | 1 => if bit w 12 then none else some (.alui .sra rd rd (bits w 2 5))
  | 2 => some (.alui .and rd rd (cImm w))
  | _ => if bit w 12 then none
    else match bits w 5 2 with
      | 0 => some (.alu .sub rd rd (creg w 2))
      | 1 => some (.alu .xor rd rd (creg w 2))
      | 2 => some (.alu .or rd rd (creg w 2))
      | _ => some (.alu .and rd rd (creg w 2))

/-- Quadrant 1. -/
def rvC1 (w : Nat) : Option Rv :=
  let rd := bits w 7 5
  match bits w 13 3 with
  | 0 => some (.alui .add rd rd (cImm w))
  | 1 => some (.jal 1 (cOffJ w))
  | 2 => some (.alui .add rd 0 (cImm w))
  | 3 =>
    if cImm w = 0 then none
    else if rd = 2 then some (.alui .add 2 2 (sext 10 (bits w 6 1 * 16 + bits w 2 1 * 32 + bits w 5 1 * 64 + bits w 3 2 * 128 + bits w 12 1 * 512)))
    else some (.lui rd (cImm w * 2 ^ 12 % 2 ^ 32))
  | 4 => rvC1a w
  | 5 => some (.jal 0 (cOffJ w))
  | 6 => some (.branch .eq (creg w 7) 0 (cOffB w))
  | _ => some (.branch .ne (creg w 7) 0 (cOffB w))

/-- Quadrant 2. -/
def rvC2 (w : Nat) : Option Rv :=
  let rd := bits w 7 5
  let r2 := bits w 2 5
  match bits w 13 3 with
  | 0 => if bit w 12 then none else some (.alui .sll rd rd r2)
  | 2 => if rd = 0 then none else some (.load 4 true rd 2 (cOffLsp w))
  | 3 => some (.flw rd 2 (cOffLsp w))
  | 4 =>
    if bit w 12 then
      (if r2 ≠ 0 then some (.alu .add rd rd r2) else if rd = 0 then some .ebreak else some (.jalr 1 rd 0))
    else
      (if r2 ≠ 0 then some (.alu .add rd 0 r2) else if rd = 0 then none else some (.jalr 0 rd 0))
  | 6 => some (.store 4 2 r2 (cOffSsp w))
  | 7 => some (.fsw 2 r2 (cOffSsp w))
  | _ => none

/-- An instruction of either length, and its length in bytes. -/
def rvDecode (w : Nat) : Option Rv × Nat :=
  match w % 4 with
  | 3 => (rv32 (w % 2 ^ 32), 4)
  | 2 => (rvC2 (w % 2 ^ 16), 2)
  | 1 => (rvC1 (w % 2 ^ 16), 2)
  | _ => (rvC0 (w % 2 ^ 16), 2)

end Sys2Proof.Machine
end

