-- ==== Sys2Proof/Machine/RvFloat.lean ====
section
/-! DEFINITION. The F extension's arithmetic: IEEE 754 binary32 in full, subnormals included (R364). Exact results are naturals `n / d` in units of 2^-149, the subnormal step, and are rounded once. What the referenced manual adds (canonical NaN, tininess after rounding, minimum and maximum) is PRESUMED from it, log entry 63. -/
namespace Sys2Proof.Machine

/-! The exception flags: NX 1, UF 2, OF 4, DZ 8, NV 16. A result is a pattern with the flags it raises. -/

/-- The canonical NaN. -/
def rvNaN : Nat := 0x7FC00000

/-- An invalid operation. -/
def rvInvalid : Nat × Nat := (rvNaN, 16)

/-- A signalling NaN. -/
def f32SNaN (x : Nat) : Bool := f32NaN x && !bit x 22

/-- The sign as a pattern. -/
def sgn32 (neg : Bool) : Nat := if neg then 2 ^ 31 else 0

/-- Whether a remainder `r` of `d` after the quotient `q` rounds away from zero, by rounding mode. -/
def rmUp (rm : Nat) (neg : Bool) (q r d : Nat) : Bool :=
  match rm with
  | 0 => decide (d < 2 * r) || (decide (2 * r = d) && q % 2 == 1)
  | 1 => false
  | 2 => neg && r != 0
  | 3 => !neg && r != 0
  | _ => decide (d ≤ 2 * r)

/-- `n / d` rounded to a natural in a mode. -/
def rmNat (rm : Nat) (neg : Bool) (n d : Nat) : Nat := n / d + b2n (rmUp rm neg (n / d) (n % d) d)

/-- What an overflow gives: infinity, or the largest finite value in a mode that rounds toward zero there. -/
def rmOver (rm : Nat) (neg : Bool) : Nat :=
  if rm = 1 ∨ (rm = 2 ∧ neg = false) ∨ (rm = 3 ∧ neg = true) then 0x7F7FFFFF else 0x7F800000

/-- A magnitude `n / d` in units of 2^-149, rounded, with the flags. -/
def rmRound (rm : Nat) (neg : Bool) (n d : Nat) : Nat × Nat :=
  let e := (n / d).log2
  let sh := if 24 ≤ e then e - 23 else 0
  let p := sh * 2 ^ 23 + rmNat rm neg n (d * 2 ^ sh)
  let nx := b2n (n % (d * 2 ^ sh) != 0)
  if 0x7F800000 ≤ p then (sgn32 neg + rmOver rm neg, 5)
  else
    let tiny := decide (n < d * 2 ^ 23) && decide (rmNat rm neg (2 * n) d < 2 ^ 24)
    (sgn32 neg + p, nx + (if tiny && nx == 1 then 2 else 0))

/-- A rounded exact value of magnitude `n / d`; an exact zero takes the sign `zneg`. -/
def rmVal (rm : Nat) (neg zneg : Bool) (n d : Nat) : Nat × Nat := if n = 0 then (sgn32 zneg, 0) else rmRound rm neg n d

/-- A quiet result of NaN operands: the canonical NaN, invalid where one is signalling. -/
def rvQuiet (l : List Nat) : Nat × Nat := (rvNaN, if l.any f32SNaN then 16 else 0)

/-- The sign of an exact zero that is the sum of values of signs `s` and `t`. -/
def zeroSign (rm : Nat) (s t : Bool) : Bool := if s == t then s else rm == 2

/-- Addition. -/
def rvAdd (rm a b : Nat) : Nat × Nat :=
  if f32NaN a || f32NaN b then rvQuiet [a, b]
  else if f32Inf a then (if f32Inf b && f32Neg a != f32Neg b then rvInvalid else (a, 0))
  else if f32Inf b then (b, 0)
  else
    let v := f32Int a + f32Int b
    rmVal rm (decide (v < 0)) (zeroSign rm (f32Neg a) (f32Neg b)) v.natAbs 1

/-- A pattern with its sign changed. -/
def f32Negate (x : Nat) : Nat := x ^^^ 2 ^ 31

/-- Subtraction. -/
def rvSub (rm a b : Nat) : Nat × Nat := if f32NaN a || f32NaN b then rvQuiet [a, b] else rvAdd rm a (f32Negate b)

/-- Multiplication. -/
def rvMul (rm a b : Nat) : Nat × Nat :=
  let neg := f32Neg a != f32Neg b
  if f32NaN a || f32NaN b then rvQuiet [a, b]
  else if (f32Inf a && f32Zero b) || (f32Zero a && f32Inf b) then rvInvalid
  else if f32Inf a || f32Inf b then (sgn32 neg + 0x7F800000, 0)
  else rmVal rm neg neg ((f32Int a).natAbs * (f32Int b).natAbs) (2 ^ 149)

/-- Division. -/
def rvDiv (rm a b : Nat) : Nat × Nat :=
  let neg := f32Neg a != f32Neg b
  if f32NaN a || f32NaN b then rvQuiet [a, b]
  else if (f32Inf a && f32Inf b) || (f32Zero a && f32Zero b) then rvInvalid
  else if f32Inf a then (sgn32 neg + 0x7F800000, 0)
  else if f32Inf b then (sgn32 neg, 0)
  else if f32Zero b then (sgn32 neg + 0x7F800000, 8)
  else rmVal rm neg neg ((f32Int a).natAbs * 2 ^ 149) (f32Int b).natAbs

/-- The square root: the integer root carries far more bits than the result, and a last bit says that it is inexact. -/
def rvSqrt (rm a : Nat) : Nat × Nat :=
  if f32NaN a then rvQuiet [a]
  else if f32Zero a then (a, 0)
  else if f32Neg a then rvInvalid
  else if f32Inf a then (a, 0)
  else
    let n := (f32Int a).natAbs * 2 ^ 149
    let r := isqrt n
    rmVal rm false false (2 * r + b2n (r * r != n)) 2

/-- The fused multiply-add `±(a × b) ± c`, rounded once. -/
def rvFma (rm : Nat) (np nc : Bool) (a b c : Nat) : Nat × Nat :=
  let pn := (f32Neg a != f32Neg b) != np
  let cn := f32Neg c != nc
  let bad := (f32Inf a && f32Zero b) || (f32Zero a && f32Inf b)
  if f32NaN a || f32NaN b || f32NaN c then (rvNaN, if bad || [a, b, c].any f32SNaN then 16 else 0)
  else if bad then rvInvalid
  else if f32Inf a || f32Inf b then (if f32Inf c && pn != cn then rvInvalid else (sgn32 pn + 0x7F800000, 0))
  else if f32Inf c then (sgn32 cn + 0x7F800000, 0)
  else
    let p : Int := ((f32Int a).natAbs * (f32Int b).natAbs : Nat)
    let q : Int := ((f32Int c).natAbs * 2 ^ 149 : Nat)
    let v := (if pn then -p else p) + (if cn then -q else q)
    rmVal rm (decide (v < 0)) (zeroSign rm pn cn) v.natAbs (2 ^ 149)

/-- The arithmetic of two operands. -/
def rvFop (op : RvFop) (rm a b : Nat) : Nat × Nat :=
  match op with
  | .add => rvAdd rm a b
  | .sub => rvSub rm a b
  | .mul => rvMul rm a b
  | .div => rvDiv rm a b

/-- `a < b` of numbers. -/
def rvLt (a b : Nat) : Bool :=
  let v := fun x => if f32Inf x then (if f32Neg x then -(2 ^ 300 : Int) else 2 ^ 300) else f32Int x
  decide (v a < v b)

/-- The comparisons: equality is quiet, the others signal on every NaN. -/
def rvFcmp (k : RvFcmp) (a b : Nat) : Nat × Nat :=
  if f32NaN a || f32NaN b then (0, if k = .eq then (if f32SNaN a || f32SNaN b then 16 else 0) else 16)
  else match k with
    | .eq => (b2n (!rvLt a b && !rvLt b a), 0)
    | .lt => (b2n (rvLt a b), 0)
    | .le => (b2n (!rvLt b a), 0)

/-- Minimum and maximum: -0 is below +0, and a number wins over a NaN. -/
def rvMinMax (max : Bool) (a b : Nat) : Nat × Nat :=
  let fl := if f32SNaN a || f32SNaN b then 16 else 0
  if f32NaN a && f32NaN b then (rvNaN, fl)
  else if f32NaN a then (b, fl)
  else if f32NaN b then (a, fl)
  else
    let less := rvLt a b || (f32Zero a && f32Zero b && f32Neg a)
    (if less != max then a else b, fl)

/-- The sign injections. -/
def rvSgn (k : RvSgn) (a b : Nat) : Nat :=
  let s := match k with
    | .j => f32Neg b
    | .jn => !f32Neg b
    | .jx => f32Neg a != f32Neg b
  a % 2 ^ 31 + sgn32 s

/-- FCVT.W.S and FCVT.WU.S: rounded in the mode; a value out of range gives the nearest end of the range, a NaN the upper one. -/
def rvToInt (uns : Bool) (rm a : Nat) : Nat × Nat :=
  let hi : Int := if uns then 2 ^ 32 - 1 else 2 ^ 31 - 1
  let lo : Int := if uns then 0 else -(2 ^ 31)
  if f32NaN a then (ux 32 hi, 16)
  else if f32Inf a then (ux 32 (if f32Neg a then lo else hi), 16)
  else
    let n := (f32Int a).natAbs
    let m : Int := (rmNat rm (f32Neg a) n (2 ^ 149) : Nat)
    let v := if f32Neg a then -m else m
    if v < lo then (ux 32 lo, 16) else if hi < v then (ux 32 hi, 16)
    else (ux 32 v, b2n (n % 2 ^ 149 != 0))

/-- FCVT.S.W and FCVT.S.WU. -/
def rvOfInt (uns : Bool) (rm x : Nat) : Nat × Nat :=
  let v : Int := if uns then (x : Int) else sx 32 x
  rmVal rm (decide (v < 0)) false (v.natAbs * 2 ^ 149) 1

/-- FCLASS.S. -/
def rvClass (a : Nat) : Nat :=
  if f32NaN a then (if f32SNaN a then 2 ^ 8 else 2 ^ 9)
  else if f32Inf a then (if f32Neg a then 2 ^ 0 else 2 ^ 7)
  else if f32Zero a then (if f32Neg a then 2 ^ 3 else 2 ^ 4)
  else if f32Exp a = 0 then (if f32Neg a then 2 ^ 2 else 2 ^ 5)
  else if f32Neg a then 2 ^ 1 else 2 ^ 6

end Sys2Proof.Machine
end

