-- ==== Sys2Proof/Machine/Rv.lean ====
section
/-! DEFINITION. The application cores' instructions: fetch through the instruction cache, execution, and what happens at an instruction boundary (R364 to R371, R375). -/
namespace Sys2Proof.Machine

/-! Integer operations. -/

/-- A condition of a branch. -/
def rvTest (k : RvCmp) (a b : Nat) : Bool :=
  match k with
  | .eq => a == b
  | .ne => a != b
  | .lt => decide (sx 32 a < sx 32 b)
  | .ge => decide (sx 32 b ≤ sx 32 a)
  | .ltu => decide (a < b)
  | .geu => decide (b ≤ a)

/-- The result of an integer operation. Division by zero gives all ones and the dividend as remainder; the signed quotient that overflows wraps. -/
def rvOp (op : RvAlu) (a b : Nat) : Nat :=
  match op with
  | .add => (a + b) % 2 ^ 32
  | .sub => ux 32 ((a : Int) - b)
  | .sll => a * 2 ^ (b % 32) % 2 ^ 32
  | .slt => b2n (decide (sx 32 a < sx 32 b))
  | .sltu => b2n (decide (a < b))
  | .xor => a ^^^ b
  | .srl => a / 2 ^ (b % 32)
  | .sra => ux 32 (sx 32 a / ((2 ^ (b % 32) : Nat) : Int))
  | .or => a ||| b
  | .and => a &&& b
  | .mul => a * b % 2 ^ 32
  | .mulh => ux 32 (sx 32 a * sx 32 b / ((2 ^ 32 : Nat) : Int))
  | .mulhsu => ux 32 (sx 32 a * (b : Int) / ((2 ^ 32 : Nat) : Int))
  | .mulhu => a * b / 2 ^ 32
  | .div => if b = 0 then 2 ^ 32 - 1 else ux 32 (Int.tdiv (sx 32 a) (sx 32 b))
  | .divu => if b = 0 then 2 ^ 32 - 1 else a / b
  | .rem => if b = 0 then a else ux 32 (Int.tmod (sx 32 a) (sx 32 b))
  | .remu => if b = 0 then a else a % b

/-- What an AMO stores, from memory's value and the register's. -/
def rvAmoOp (op : RvAmo) (m b : Nat) : Nat :=
  match op with
  | .swap => b
  | .add => (m + b) % 2 ^ 32
  | .xor => m ^^^ b
  | .and => m &&& b
  | .or => m ||| b
  | .min => if sx 32 m < sx 32 b then m else b
  | .max => if sx 32 m < sx 32 b then b else m
  | .minu => min m b
  | .maxu => max m b

/-! Traps. -/

/-- Core `n` takes an exception at its instruction. -/
def State.rvTrap (s : State) (n cause tval : Nat) : State := s.setCore n ((s.core n).trap false cause tval)

/-- An exception whose mtval the referenced manual leaves between 0 and a value. -/
def State.rvTrapOr (s : State) (n cause tval : Nat) : State := (s.draw 2).2.rvTrap n cause (if (s.draw 2).1 = 0 then 0 else tval)

/-- The core past an instruction of `len` bytes, which retires. -/
def Core.next (c : Core) (len : Nat) : Core := { c with pc := (c.pc + len) % 2 ^ 32, ret := (c.ret + 1) % 2 ^ 64 }

/-- Core `n` completes its instruction as `f` leaves it. -/
def State.retire (s : State) (n len : Nat) (f : Core → Core) : State := s.setCore n (f ((s.core n).next len))

/-! Loads, stores and atomics (R367, R368). -/

/-- A load: misaligned, protected and refused accesses trap; otherwise `f` takes the value. -/
def State.rvLoad (s : State) (n : Fin 4) (len size a : Nat) (f : Nat → Core → Core) : State :=
  if a % size ≠ 0 then s.rvTrapOr n 4 a
  else if !(s.core n).dataOk a size 0 then s.rvTrap n 5 a
  else match s.busRead (.core n) a size with
    | (t, .data v) => t.retire n len (f v)
    | (t, _) => t.rvTrap n 5 a

/-- A store: the core has gone on when the write takes effect, so that what the write does to the core stands. -/
def State.rvStore (s : State) (n : Fin 4) (len size a v : Nat) : State :=
  if a % size ≠ 0 then s.rvTrapOr n 6 a
  else if !(s.core n).dataOk a size 1 then s.rvTrap n 7 a
  else match (s.retire n len id).busWrite (.core n) a size v with
    | (t, .error) => t.setCore n ((s.core n).trap false 7 a)
    | (t, _) => t

/-- LR.W. -/
def State.rvLr (s : State) (n : Fin 4) (len rd a : Nat) : State :=
  if a % 4 ≠ 0 then s.rvTrapOr n 4 a
  else if !inSram a then s.rvTrap n 5 a
  else s.rvLoad n len 4 a (fun v c => { c.setX rd v with res := some a })

/-- SC.W: it stores, and answers 0, only while the reservation of its word holds; the reservation is spent either way. -/
def State.rvSc (s : State) (n : Fin 4) (len rd a v : Nat) : State :=
  if a % 4 ≠ 0 then s.rvTrapOr n 6 a
  else if !(s.core n).dataOk a 4 1 then s.rvTrap n 7 a
  else if (s.core n).res = some a then
    (s.retire n len (fun c => { c.setX rd 0 with res := none })).busWrite (.core n) a 4 v |>.1
  else s.retire n len (fun c => { c.setX rd 1 with res := none })

/-- An AMO: read and write of the word in one step. -/
def State.rvAmo (s : State) (n : Fin 4) (len : Nat) (op : RvAmo) (rd a b : Nat) : State :=
  if a % 4 ≠ 0 then s.rvTrapOr n 6 a
  else if inSram a = false ∨ (s.core n).dataOk a 4 0 = false ∨ (s.core n).dataOk a 4 1 = false then s.rvTrap n 7 a
  else match s.busRead (.core n) a 4 with
    | (t, .data m) => (t.retire n len (fun c => c.setX rd m)).busWrite (.core n) a 4 (rvAmoOp op m b) |>.1
    | (t, _) => t.rvTrap n 7 a

/-! CSR, FP and system instructions. -/

/-- An illegal instruction `raw`. -/
def State.rvIllegal (s : State) (n raw : Nat) : State := s.rvTrapOr n 2 raw

/-- A CSR instruction: the old value goes to rd, and the new one is written but where a set or clear names no bits. -/
def State.rvCsr (s : State) (n : Nat) (len raw : Nat) (op : RvCsrOp) (imm : Bool) (rd src k : Nat) : State :=
  let c := s.core n
  let v := if imm then src else c.getX src
  let wr := op == .rw || src != 0
  match s.csrRead n k with
  | none => s.rvIllegal n raw
  | some old =>
    if c.csrMay k = false ∨ (wr = true ∧ bits k 10 2 = 3) then s.rvIllegal n raw
    else
      let new := match op with
        | .rw => v
        | .rs => old ||| v
        | .rc => old &&& (2 ^ 32 - 1 - v)
      s.retire n len (fun d => (if wr then d.csrWrite k new else d).setX rd old)

/-- An FP instruction: illegal while FS is Off or its rounding mode is reserved. -/
def State.rvFp (s : State) (n len raw rm : Nat) (f : Nat → Core → Core) : State :=
  if !(s.core n).fpOn then s.rvIllegal n raw
  else match (s.core n).rm rm with
    | none => s.rvIllegal n raw
    | some r => s.retire n len (f r)

/-- An FP result with its flags goes to an FP register. -/
def Core.putF (c : Core) (rd : Nat) (r : Nat × Nat) : Core := (c.setF rd r.1).accrue r.2

/-- An FP result with its flags goes to an integer register. -/
def Core.putX (c : Core) (rd : Nat) (r : Nat × Nat) : Core := (c.setX rd r.1).accrue r.2

/-- WFI: the core sleeps unless an interrupt is pending or a switch is due already. -/
def State.rvWfi (s : State) (n len raw : Nat) : State :=
  if !(s.core n).machine && bit ((s.core n).getCsr csrMstatus) 21 then s.rvIllegal n raw
  else s.retire n len (fun c => { c with wfi := !(s.wfiOver n || (Store.get none s.sch.slot n).isSome) })

/-- Core `n` executes an instruction of `len` bytes. -/
def State.rvExec (s : State) (n : Fin 4) (i : Rv) (len raw : Nat) : State :=
  let c := s.core n
  let x := c.getX
  let go := s.retire n len
  match i with
  | .lui rd imm => go (·.setX rd imm)
  | .auipc rd imm => go (·.setX rd (c.pc + imm))
  | .jal rd off => go (fun d => { d.setX rd d.pc with pc := (c.pc + off) % 2 ^ 32 })
  | .jalr rd a imm => go (fun d => { d.setX rd d.pc with pc := (x a + imm) % 2 ^ 32 / 2 * 2 })
  | .branch k a b off => go (fun d => if rvTest k (x a) (x b) then { d with pc := (c.pc + off) % 2 ^ 32 } else d)
  | .load sz sg rd a imm => s.rvLoad n len sz ((x a + imm) % 2 ^ 32) (fun v d => d.setX rd (if sg then sext (8 * sz) v else v))
  | .store sz a b imm => s.rvStore n len sz ((x a + imm) % 2 ^ 32) (x b % 2 ^ (8 * sz))
  | .alui op rd a imm => go (·.setX rd (rvOp op (x a) imm))
  | .alu op rd a b => go (·.setX rd (rvOp op (x a) (x b)))
  | .fence => go id
  | .fenceI => go (fun d => { d with ic := some s.mem })
  | .ecall => s.rvTrap n (if c.machine then 11 else 8) 0
  | .ebreak => s.rvTrapOr n 3 c.pc
  | .mret => if c.machine then go Core.mret else s.rvIllegal n raw
  | .wfi => s.rvWfi n len raw
  | .csr op imm rd src k => s.rvCsr n len raw op imm rd src k
  | .lr rd a => s.rvLr n len rd (x a)
  | .sc rd a b => s.rvSc n len rd (x a) (x b)
  | .amo op rd a b => s.rvAmo n len op rd (x a) (x b)
  | .flw rd a imm => if c.fpOn then s.rvLoad n len 4 ((x a + imm) % 2 ^ 32) (fun v d => d.setF rd v) else s.rvIllegal n raw
  | .fsw a b imm => if c.fpOn then s.rvStore n len 4 ((x a + imm) % 2 ^ 32) (c.getF b) else s.rvIllegal n raw
  | .fma np nc rd a b d rm => s.rvFp n len raw rm (fun r k => k.putF rd (rvFma r np nc (c.getF a) (c.getF b) (c.getF d)))
  | .farith op rd a b rm => s.rvFp n len raw rm (fun r k => k.putF rd (rvFop op r (c.getF a) (c.getF b)))
  | .fsqrt rd a rm => s.rvFp n len raw rm (fun r k => k.putF rd (rvSqrt r (c.getF a)))
  | .fsgn k rd a b => s.rvFp n len raw 0 (fun _ d => d.setF rd (rvSgn k (c.getF a) (c.getF b)))
  | .fminmax m rd a b => s.rvFp n len raw 0 (fun _ d => d.putF rd (rvMinMax m (c.getF a) (c.getF b)))
  | .fcvtWS u rd a rm => s.rvFp n len raw rm (fun r d => d.putX rd (rvToInt u r (c.getF a)))
  | .fcvtSW u rd a rm => s.rvFp n len raw rm (fun r d => d.putF rd (rvOfInt u r (x a)))
  | .fmvXW rd a => s.rvFp n len raw 0 (fun _ d => d.setX rd (c.getF a))
  | .fmvWX rd a => s.rvFp n len raw 0 (fun _ d => d.setF rd (x a))
  | .fclass rd a => s.rvFp n len raw 0 (fun _ d => d.setX rd (rvClass (c.getF a)))
  | .fcmp k rd a b => s.rvFp n len raw 0 (fun _ d => d.putX rd (rvFcmp k (c.getF a) (c.getF b)))

/-! Fetch (R366, R368, R369). -/

/-- `n` bytes of a memory from `a`, little-endian. -/
def cellsAt (m : Store (BitVec 8)) (a : Nat) : Nat → Nat
  | 0 => 0
  | n + 1 => (Memory.get m a).toNat + 256 * cellsAt m (a + 1) n

/-- The cache of core `n` delivers the word at `a`, which memory has as `v`: the old word where it still holds one and the free choice falls on it. What is delivered is cached. -/
def State.cached (s : State) (n a v : Nat) : State × Nat :=
  let old := match (s.core n).ic with
    | none => v
    | some m => cellsAt m a 4
  let r : State × Nat := if old = v then (s, v) else ((s.draw 2).2, if (s.draw 2).1 = 0 then v else old)
  (r.1.setCore n { r.1.core n with ic := some (Memory.putAll (((s.core n).ic).getD s.mem) (cells a r.2 4)) }, r.2)

/-- What a read over the interconnect finds in the word at `a` (R405): a corrected or transient error is counted, a lasting one poisons the word. Registers, the boot ROM and unpowered memories have none. -/
def State.eccFound (s : State) (a : Nat) (e : EccRes) : State :=
  match (region a).bind Region.ecc with
  | some k => if s.domUp (memDom a) then s.eccRead k a e else s
  | none => s

/-- Core `n` fetches the aligned word at `a`; none is a bus error. A gated or unpowered block reads 0 without one, and a word of a register block is read as any other (R19, R368; log entry 63). -/
def State.fetchWord (s : State) (n : Fin 4) (a : Nat) : State × Option Nat :=
  match region a with
  | none => (s, none)
  | some r => match s.busRead (.core n) a 4 with
    | (t, .data v) => if r = .rom ∨ r = .pim ∨ r = .jnl ∨ r = .regs ∨ s.domUp (memDom a) = false then (t, some v) else ((t.cached n a v).1, some (t.cached n a v).2)
    | (t, _) => (t, none)

/-- One 16-bit parcel of an instruction; none is an access fault. -/
def State.fetchHalf (s : State) (n : Fin 4) (a : Nat) : State × Option Nat :=
  if !(s.core n).pmpOk (s.core n).machine a 2 2 then (s, none)
  else match s.fetchWord n (a / 4 * 4) with
    | (t, some v) => (t, some (v / 2 ^ (8 * (a % 4)) % 2 ^ 16))
    | (t, none) => (t, none)

/-- The instruction at the pc, or the address at which its fetch faults. -/
def State.fetch (s : State) (n : Fin 4) : State × Except Nat Nat :=
  let a := (s.core n).pc
  match s.fetchHalf n a with
  | (t, none) => (t, .error a)
  | (t, some lo) =>
    if lo % 4 ≠ 3 then (t, .ok lo)
    else match t.fetchHalf n ((a + 2) % 2 ^ 32) with
      | (u, none) => (u, .error ((a + 2) % 2 ^ 32))
      | (u, some hi) => (u, .ok (lo + 2 ^ 16 * hi))

/-! The instruction boundary. -/

/-- What happens at the boundary in place of an instruction: nothing on a core that does not run, a context switch, the wait of WFI, or an interrupt. -/
def State.boundary (s : State) (n : Nat) : Option State :=
  if !s.coreRuns n then some s
  else match s.switchDue n with
    | some t => some t
    | none =>
      if (s.core n).wfi && !s.wfiOver n && (Store.get none s.sch.slot n).isNone then some s
      else match s.intr n with
        | some i => some { s.setCore n ((s.core n).trap true i 0) with sch := s.sch.past n }
        | none => none

/-- An instruction begins: the boundary has passed, and core clock cycles are counted, one or more. -/
def State.begun (s : State) (n : Nat) : State :=
  let t := { s with sch := s.sch.past n, free := s.free + 1 }
  t.setCore n { s.core n with wfi := false, cyc := ((s.core n).cyc + 1 + Config.freeNat s.free) % 2 ^ 64 }

/-- The instruction that core `n` comes to, as fetched: the state after the fetch, and the instruction with its length and its word. -/
def State.comes (s : State) (n : Fin 4) : State × Except Nat (Option Rv × Nat × Nat) :=
  match (s.begun n).fetch n with
  | (t, .error a) => (t, .error a)
  | (t, .ok w) => (t, .ok ((rvDecode w).1, (rvDecode w).2, w))

/-- The address and size of what an instruction reads from memory. -/
def Rv.reads (i : Rv) (x : Nat → Nat) : Option (Nat × Nat) :=
  match i with
  | .load sz _ _ a imm => some ((x a + imm) % 2 ^ 32, sz)
  | .flw _ a imm => some ((x a + imm) % 2 ^ 32, 4)
  | .lr _ a => some (x a, 4)
  | .amo _ _ a _ => some (x a, 4)
  | _ => none

/-- What the load of an instruction finds in memory, where the read takes place. -/
def State.loadFound (s : State) (n : Fin 4) (i : Rv) (e : EccRes) : State :=
  match i.reads (s.core n).getX with
  | some (a, z) => if a % z = 0 ∧ (s.core n).dataOk a z 0 = true then s.eccFound a e else s
  | none => s

/-- One step of a core; its fetch, and its load, may find an error in memory (R368). -/
def State.coreStep (s : State) (q : CoreTurn) : State :=
  let n := q.core
  match s.boundary n with
  | some t => t
  | none => match (s.eccFound ((s.core n).pc / 4 * 4) q.fetch).comes n with
    | (t, .error a) => t.rvTrap n 1 a
    | (t, .ok (none, _, w)) => t.rvIllegal n w
    | (t, .ok (some i, len, w)) => (t.loadFound n i q.load).rvExec n i len w

/-- One step of core `n` where it comes to an instruction of a class; nothing otherwise. -/
def State.coreStepIf (s : State) (n : Fin 4) (p : Rv → Bool) : State :=
  match s.boundary n, s.comes n with
  | none, (t, .ok (some i, len, w)) => if p i then t.rvExec n i len w else s
  | _, _ => s

/-! Meanings. -/

/-- What a core's instruction leaves: anything it writes can be reached by it. -/
def coreDo (t s : State) : Host.Outcome State Fault Refusal := .next { t with bus := .none, pending := s.pending, jtag := s.jtag, rstLow := s.rstLow }

/-- CORE_INSTRUCTION: a core executes the instruction it comes to. -/
def execCoreInstruction (q : CoreTurn) (s : State) : Host.Outcome State Fault Refusal := coreDo (s.quiet.coreStep q) s

/-- FENCE_I, where core `n` comes to one. -/
def execFenceI (n : Fin 4) (s : State) : Host.Outcome State Fault Refusal :=
  coreDo (s.quiet.coreStepIf n (fun i => match i with | .fenceI => true | _ => false)) s

/-- LR_W. -/
def execLrW (n : Fin 4) (s : State) : Host.Outcome State Fault Refusal :=
  coreDo (s.quiet.coreStepIf n (fun i => match i with | .lr _ _ => true | _ => false)) s

/-- SC_W. -/
def execScW (n : Fin 4) (s : State) : Host.Outcome State Fault Refusal :=
  coreDo (s.quiet.coreStepIf n (fun i => match i with | .sc _ _ _ => true | _ => false)) s

/-- AMO. -/
def execAmo (n : Fin 4) (s : State) : Host.Outcome State Fault Refusal :=
  coreDo (s.quiet.coreStepIf n (fun i => match i with | .amo _ _ _ _ => true | _ => false)) s

/-- WFI. -/
def execWfi (n : Fin 4) (s : State) : Host.Outcome State Fault Refusal :=
  coreDo (s.quiet.coreStepIf n (fun i => match i with | .wfi => true | _ => false)) s

end Sys2Proof.Machine
end

