-- ==== Sys2Proof/Machine/Dispatch.lean ====
section
/-! DEFINITION. The meaning of each command, one arm per constructor. -/
namespace Sys2Proof.Machine

def exec (i : Instr) (s : State) : Host.Outcome State Fault Refusal :=
  match i with
  | .registerWrite q a size v => Sys2Proof.Machine.execRegisterWrite q a size v s
  | .counterReadClear q a => Sys2Proof.Machine.execCounterReadClear q a s
  | .crsCntLoRead q => Sys2Proof.Machine.execCrsCntLoRead q s
  | .digLoRead q n => Sys2Proof.Machine.execDigLoRead q n s
  | .timNowLoRead q => Sys2Proof.Machine.execTimNowLoRead q s
  | .timMasterLoRead q => Sys2Proof.Machine.execTimMasterLoRead q s
  | .capCascTLoRead q => Sys2Proof.Machine.execCapCascTLoRead q s
  | .missTLoRead q m => Sys2Proof.Machine.execMissTLoRead q m s
  | .missCntRead q m => Sys2Proof.Machine.execMissCntRead q m s
  | .courseStart late => Sys2Proof.Machine.execCourseStart late s
  | .sampleInstant pins => Sys2Proof.Machine.execSampleInstant pins s
  | .actuationInstant => Sys2Proof.Machine.execActuationInstant s
  | .syncGapStart => Sys2Proof.Machine.execSyncGapStart s
  | .feedbackMissing a => Sys2Proof.Machine.execFeedbackMissing a s
  | .swGo => Sys2Proof.Machine.execSwGo s
  | .selfTestSlice unit addr cut first second logicPct memPct => Sys2Proof.Machine.execSelfTestSlice unit addr cut first second logicPct memPct s
  | .enable n target isGroup => Sys2Proof.Machine.execEnable n target isGroup s
  | .disable n target isGroup => Sys2Proof.Machine.execDisable n target isGroup s
  | .queue n target isGroup => Sys2Proof.Machine.execQueue n target isGroup s
  | .replace n target isGroup => Sys2Proof.Machine.execReplace n target isGroup s
  | .stop n target isGroup => Sys2Proof.Machine.execStop n target isGroup s
  | .estop n target isGroup => Sys2Proof.Machine.execEstop n target isGroup s
  | .clearFault n target isGroup => Sys2Proof.Machine.execClearFault n target isGroup s
  | .home n target isGroup => Sys2Proof.Machine.execHome n target isGroup s
  | .reload n target isGroup => Sys2Proof.Machine.execReload n target isGroup s
  | .setGroup n target isGroup => Sys2Proof.Machine.execSetGroup n target isGroup s
  | .badOpcode n op target isGroup => Sys2Proof.Machine.execBadOpcode n op target isGroup s
  | .dwellExpire a => Sys2Proof.Machine.execDwellExpire a s
  | .limitDebounce a i1 => Sys2Proof.Machine.execLimitDebounce a i1 s
  | .homeDwellExpire a => Sys2Proof.Machine.execHomeDwellExpire a s
  | .axisLoop n => Sys2Proof.Machine.execAxisLoop n s
  | .followingErrorLimit a => Sys2Proof.Machine.execFollowingErrorLimit a s
  | .velocityErrorLimit a => Sys2Proof.Machine.execVelocityErrorLimit a s
  | .feedbackLost a => Sys2Proof.Machine.execFeedbackLost a s
  | .liveUpdateRequest axis course => Sys2Proof.Machine.execLiveUpdateRequest axis course s
  | .liveUpdateApply => Sys2Proof.Machine.execLiveUpdateApply s
  | .engineStart n => Sys2Proof.Machine.execEngineStart n s
  | .engineHaltReq n => Sys2Proof.Machine.execEngineHaltReq n s
  | .leNop n => Sys2Proof.Machine.execLeNop n s
  | .leAdd n d a b => Sys2Proof.Machine.execLeAdd n d a b s
  | .leSub n d a b => Sys2Proof.Machine.execLeSub n d a b s
  | .leAnd n d a b => Sys2Proof.Machine.execLeAnd n d a b s
  | .leOr n d a b => Sys2Proof.Machine.execLeOr n d a b s
  | .leXor n d a b => Sys2Proof.Machine.execLeXor n d a b s
  | .leSll n d a b => Sys2Proof.Machine.execLeSll n d a b s
  | .leSrl n d a b => Sys2Proof.Machine.execLeSrl n d a b s
  | .leSra n d a b => Sys2Proof.Machine.execLeSra n d a b s
  | .leAddi n d a imm => Sys2Proof.Machine.execLeAddi n d a imm s
  | .leLui n d imm => Sys2Proof.Machine.execLeLui n d imm s
  | .leOri n d a imm => Sys2Proof.Machine.execLeOri n d a imm s
  | .leAdd64 n d a b => Sys2Proof.Machine.execLeAdd64 n d a b s
  | .leSub64 n d a b => Sys2Proof.Machine.execLeSub64 n d a b s
  | .leSlt64 n d a b => Sys2Proof.Machine.execLeSlt64 n d a b s
  | .leSlt n d a b => Sys2Proof.Machine.execLeSlt n d a b s
  | .leFadd n d a b => Sys2Proof.Machine.execLeFadd n d a b s
  | .leFsub n d a b => Sys2Proof.Machine.execLeFsub n d a b s
  | .leFmul n d a b => Sys2Proof.Machine.execLeFmul n d a b s
  | .leFdiv n d a b => Sys2Proof.Machine.execLeFdiv n d a b s
  | .leFmin n d a b => Sys2Proof.Machine.execLeFmin n d a b s
  | .leFmax n d a b => Sys2Proof.Machine.execLeFmax n d a b s
  | .leFabs n d a => Sys2Proof.Machine.execLeFabs n d a s
  | .leFneg n d a => Sys2Proof.Machine.execLeFneg n d a s
  | .leFclt n d a b => Sys2Proof.Machine.execLeFclt n d a b s
  | .leFclamp n d a b c => Sys2Proof.Machine.execLeFclamp n d a b c s
  | .leCvtif n d a => Sys2Proof.Machine.execLeCvtif n d a s
  | .leCvtlf n d a => Sys2Proof.Machine.execLeCvtlf n d a s
  | .leCvtfl n d a => Sys2Proof.Machine.execLeCvtfl n d a s
  | .leFinite n d a => Sys2Proof.Machine.execLeFinite n d a s
  | .leLclr n i1 => Sys2Proof.Machine.execLeLclr n i1 s
  | .leLmac n i1 p q => Sys2Proof.Machine.execLeLmac n i1 p q s
  | .leLmsu n i1 p q => Sys2Proof.Machine.execLeLmsu n i1 p q s
  | .leLmac2 n i1 p q x y => Sys2Proof.Machine.execLeLmac2 n i1 p q x y s
  | .leLadd n i1 p => Sys2Proof.Machine.execLeLadd n i1 p s
  | .leLdot n i1 x y c => Sys2Proof.Machine.execLeLdot n i1 x y c s
  | .leLrd n i1 p => Sys2Proof.Machine.execLeLrd n i1 p s
  | .leLrdq n i1 p => Sys2Proof.Machine.execLeLrdq n i1 p s
  | .leLst n i1 an pm ofs => Sys2Proof.Machine.execLeLst n i1 an pm ofs s
  | .leLld n i1 an pm ofs => Sys2Proof.Machine.execLeLld n i1 an pm ofs s
  | .leLdw n d an pm ofs => Sys2Proof.Machine.execLeLdw n d an pm ofs s
  | .leStw n d an pm ofs => Sys2Proof.Machine.execLeStw n d an pm ofs s
  | .leLdd n d an pm ofs => Sys2Proof.Machine.execLeLdd n d an pm ofs s
  | .leStd n d an pm ofs => Sys2Proof.Machine.execLeStd n d an pm ofs s
  | .leMvta n cls i1 v => Sys2Proof.Machine.execLeMvta n cls i1 v s
  | .leMvfa n cls i1 v => Sys2Proof.Machine.execLeMvfa n cls i1 v s
  | .leAdda n an imm => Sys2Proof.Machine.execLeAdda n an imm s
  | .leCbind n an en k => Sys2Proof.Machine.execLeCbind n an en k s
  | .leVmax n d an c => Sys2Proof.Machine.execLeVmax n d an c s
  | .leVmin n d an c => Sys2Proof.Machine.execLeVmin n d an c s
  | .leJal n d target => Sys2Proof.Machine.execLeJal n d target s
  | .leJr n a => Sys2Proof.Machine.execLeJr n a s
  | .leBr n cond r ofs => Sys2Proof.Machine.execLeBr n cond r ofs s
  | .leEvwait n d => Sys2Proof.Machine.execLeEvwait n d s
  | .leHalt n => Sys2Proof.Machine.execLeHalt n s
  | .leDfold n a => Sys2Proof.Machine.execLeDfold n a s
  | .leCmdc n => Sys2Proof.Machine.execLeCmdc n s
  | .leRdflg n d => Sys2Proof.Machine.execLeRdflg n d s
  | .leClrf n a => Sys2Proof.Machine.execLeClrf n a s
  | .leRdcyc n d => Sys2Proof.Machine.execLeRdcyc n d s
  | .leRdcrs n d => Sys2Proof.Machine.execLeRdcrs n d s
  | .illegalInstruction n w => Sys2Proof.Machine.execIllegalInstruction n w s
  | .indexUpdate n => Sys2Proof.Machine.execIndexUpdate n s
  | .stepPulse n => Sys2Proof.Machine.execStepPulse n s
  | .blankingEnd n b beat => Sys2Proof.Machine.execBlankingEnd n b beat s
  | .comparatorTrip n b ton => Sys2Proof.Machine.execComparatorTrip n b ton s
  | .onTimeMax n b => Sys2Proof.Machine.execOnTimeMax n b s
  | .fastDecayEnd n b => Sys2Proof.Machine.execFastDecayEnd n b s
  | .slowDecayMidpoint n b beat => Sys2Proof.Machine.execSlowDecayMidpoint n b beat s
  | .offTimeEnd n b => Sys2Proof.Machine.execOffTimeEnd n b s
  | .bridgeFaultRetryEnd n b => Sys2Proof.Machine.execBridgeFaultRetryEnd n b s
  | .adcConversion n b code t => Sys2Proof.Machine.execAdcConversion n b code t s
  | .holdDelayExpire n => Sys2Proof.Machine.execHoldDelayExpire n s
  | .externalDriveFault n => Sys2Proof.Machine.execExternalDriveFault n s
  | .encoderEdge n a b => Sys2Proof.Machine.execEncoderEdge n a b s
  | .stall n => Sys2Proof.Machine.execStall n s
  | .calGo n => Sys2Proof.Machine.execCalGo n s
  | .calibrationEnd n ca cb aa ab => Sys2Proof.Machine.execCalibrationEnd n ca cb aa ab s
  | .feedback c => Sys2Proof.Machine.execFeedback c s
  | .reference c => Sys2Proof.Machine.execReference c s
  | .ioIn c => Sys2Proof.Machine.execIoIn c s
  | .safety c => Sys2Proof.Machine.execSafety c s
  | .join c => Sys2Proof.Machine.execJoin c s
  | .fill c => Sys2Proof.Machine.execFill c s
  | .mgmtStatus c => Sys2Proof.Machine.execMgmtStatus c s
  | .tableAck c => Sys2Proof.Machine.execTableAck c s
  | .mgmtNone c => Sys2Proof.Machine.execMgmtNone c s
  | .mgmtServiceData c => Sys2Proof.Machine.execMgmtServiceData c s
  | .mgmtRefusedOpcode c => Sys2Proof.Machine.execMgmtRefusedOpcode c s
  | .brickForward c => Sys2Proof.Machine.execBrickForward c s
  | .brickEntryDue k i1 ofs => Sys2Proof.Machine.execBrickEntryDue k i1 ofs s
  | .ioOutSnapshot k i1 => Sys2Proof.Machine.execIoOutSnapshot k i1 s
  | .mgTxGo k dest op len => Sys2Proof.Machine.execMgTxGo k dest op len s
  | .mgRxRelease k => Sys2Proof.Machine.execMgRxRelease k s
  | .brickLost k i1 => Sys2Proof.Machine.execBrickLost k i1 s
  | .ltRequestSend l t1 => Sys2Proof.Machine.execLtRequestSend l t1 s
  | .ltRequest l seq t2 => Sys2Proof.Machine.execLtRequest l seq t2 s
  | .ltResponse l seq value t4 => Sys2Proof.Machine.execLtResponse l seq value t4 s
  | .linkDown l => Sys2Proof.Machine.execLinkDown l s
  | .linkSync l => Sys2Proof.Machine.execLinkSync l s
  | .forwardingResume l => Sys2Proof.Machine.execForwardingResume l s
  | .startupListenPeriod => Sys2Proof.Machine.execStartupListenPeriod s
  | .ringInsert k => Sys2Proof.Machine.execRingInsert k s
  | .insertQuietEnd => Sys2Proof.Machine.execInsertQuietEnd s
  | .enrolPhaseEnd => Sys2Proof.Machine.execEnrolPhaseEnd s
  | .claimTimeout k a => Sys2Proof.Machine.execClaimTimeout k a s
  | .pointWrite q p v => Sys2Proof.Machine.execPointWrite q p v s
  | .pointValueRead q p => Sys2Proof.Machine.execPointValueRead q p s
  | .pointStatusRead q p => Sys2Proof.Machine.execPointStatusRead q p s
  | .outputResyncPass recs last => Sys2Proof.Machine.execOutputResyncPass recs last s
  | .arm m => Sys2Proof.Machine.execArm m s
  | .captureAbort m => Sys2Proof.Machine.execCaptureAbort m s
  | .force m => Sys2Proof.Machine.execForce m s
  | .captureRow m => Sys2Proof.Machine.execCaptureRow m s
  | .trigInEdge m high t => Sys2Proof.Machine.execTrigInEdge m high t s
  | .trigOutPulseEnd m t => Sys2Proof.Machine.execTrigOutPulseEnd m t s
  | .safetyCycleStart => Sys2Proof.Machine.execSafetyCycleStart s
  | .vectorCompare equal late => Sys2Proof.Machine.execVectorCompare equal late s
  | .siSample raw tp => Sys2Proof.Machine.execSiSample raw tp s
  | .testPulseStart j => Sys2Proof.Machine.execTestPulseStart j s
  | .testPulseEnd j => Sys2Proof.Machine.execTestPulseEnd j s
  | .sofbSample fb sense kf => Sys2Proof.Machine.execSofbSample fb sense kf s
  | .outputTestPulseStart n => Sys2Proof.Machine.execOutputTestPulseStart n s
  | .outputTestPulseEnd n => Sys2Proof.Machine.execOutputTestPulseEnd n s
  | .outputTestRepeat n readsOff => Sys2Proof.Machine.execOutputTestRepeat n readsOff s
  | .kfCheckTimeout j => Sys2Proof.Machine.execKfCheckTimeout j s
  | .connectionWatchdogExpire c => Sys2Proof.Machine.execConnectionWatchdogExpire c s
  | .islandClockCheck ppm => Sys2Proof.Machine.execIslandClockCheck ppm s
  | .ss1StoInstant c => Sys2Proof.Machine.execSs1StoInstant c s
  | .logicTimerExpire => Sys2Proof.Machine.execLogicTimerExpire s
  | .sbcFault c => Sys2Proof.Machine.execSbcFault c s
  | .islandStart test => Sys2Proof.Machine.execIslandStart test s
  | .ack => Sys2Proof.Machine.execAck s
  | .restart => Sys2Proof.Machine.execRestart s
  | .nsreq arg => Sys2Proof.Machine.execNsreq arg s
  | .renew f epoch course granted => Sys2Proof.Machine.execRenew f epoch course granted s
  | .journal f i1 e => Sys2Proof.Machine.execJournal f i1 e s
  | .jack f i1 => Sys2Proof.Machine.execJack f i1 s
  | .safetyFrame f cycle words => Sys2Proof.Machine.execSafetyFrame f cycle words s
  | .digest f course d => Sys2Proof.Machine.execDigest f course d s
  | .copy f c => Sys2Proof.Machine.execCopy f c s
  | .weather f w => Sys2Proof.Machine.execWeather f w s
  | .bulk f b => Sys2Proof.Machine.execBulk f b s
  | .hello f h => Sys2Proof.Machine.execHello f h s
  | .handoverFrame f course => Sys2Proof.Machine.execHandoverFrame f course s
  | .frameAckTimeout seq copy ok => Sys2Proof.Machine.execFrameAckTimeout seq copy ok s
  | .mortarLinkDown => Sys2Proof.Machine.execMortarLinkDown s
  | .weatherSend => Sys2Proof.Machine.execWeatherSend s
  | .weatherTimeout => Sys2Proof.Machine.execWeatherTimeout s
  | .fenceExpire => Sys2Proof.Machine.execFenceExpire s
  | .leaseCheck => Sys2Proof.Machine.execLeaseCheck s
  | .claimProbe => Sys2Proof.Machine.execClaimProbe s
  | .claimConfirm => Sys2Proof.Machine.execClaimConfirm s
  | .peerActRise => Sys2Proof.Machine.execPeerActRise s
  | .quickSelfTestEnd own peer => Sys2Proof.Machine.execQuickSelfTestEnd own peer s
  | .handoverRequest => Sys2Proof.Machine.execHandoverRequest s
  | .jnlTake => Sys2Proof.Machine.execJnlTake s
  | .jnlDone i1 len => Sys2Proof.Machine.execJnlDone i1 len s
  | .clientSlotExpire k => Sys2Proof.Machine.execClientSlotExpire k s
  | .command u => Sys2Proof.Machine.execCommand u s
  | .service u => Sys2Proof.Machine.execService u s
  | .fwqTxSubmit head => Sys2Proof.Machine.execFwqTxSubmit head s
  | .timeRestep => Sys2Proof.Machine.execTimeRestep s
  | .handover => Sys2Proof.Machine.execHandover s
  | .schedSwitch => Sys2Proof.Machine.execSchedSwitch s
  | .safeHoldEnter => Sys2Proof.Machine.execSafeHoldEnter s
  | .safeHoldLeave => Sys2Proof.Machine.execSafeHoldLeave s
  | .hostLinkChange sync gig => Sys2Proof.Machine.execHostLinkChange sync gig s
  | .phyPoll status gig => Sys2Proof.Machine.execPhyPoll status gig s
  | .mdioWrite phy reg data => Sys2Proof.Machine.execMdioWrite phy reg data s
  | .mdioRead phy reg => Sys2Proof.Machine.execMdioRead phy reg s
  | .mdioComplete v => Sys2Proof.Machine.execMdioComplete v s
  | .arpRequest target ip mac => Sys2Proof.Machine.execArpRequest target ip mac s
  | .arpReply ip mac => Sys2Proof.Machine.execArpReply ip mac s
  | .arpCacheExpire ip => Sys2Proof.Machine.execArpCacheExpire ip s
  | .arpResolveTimeout ip => Sys2Proof.Machine.execArpResolveTimeout ip s
  | .icmpEchoRequest ip d => Sys2Proof.Machine.execIcmpEchoRequest ip d s
  | .sync p t1 two => Sys2Proof.Machine.execSync p t1 two s
  | .followUp p t1 => Sys2Proof.Machine.execFollowUp p t1 s
  | .delayReq raw => Sys2Proof.Machine.execDelayReq raw s
  | .delayResp p t4 => Sys2Proof.Machine.execDelayResp p t4 s
  | .announce p a => Sys2Proof.Machine.execAnnounce p a s
  | .syncTimeout => Sys2Proof.Machine.execSyncTimeout s
  | .announceTimeout => Sys2Proof.Machine.execAnnounceTimeout s
  | .mark f m => Sys2Proof.Machine.execMark f m s
  | .markMissing => Sys2Proof.Machine.execMarkMissing s
  | .cascadeInsert => Sys2Proof.Machine.execCascadeInsert s
  | .setp f p => Sys2Proof.Machine.execSetp f p s
  | .msg f b => Sys2Proof.Machine.execMsg f b s
  | .trig f t sender set_ => Sys2Proof.Machine.execTrig f t sender set_ s
  | .cascadeStatus f flags epoch => Sys2Proof.Machine.execCascadeStatus f flags epoch s
  | .plan f plan => Sys2Proof.Machine.execPlan f plan s
  | .positionPresenceExpire p => Sys2Proof.Machine.execPositionPresenceExpire p s
  | .enum n => Sys2Proof.Machine.execEnum n s
  | .image p block d ack crcOk => Sys2Proof.Machine.execImage p block d ack crcOk s
  | .extest v => Sys2Proof.Machine.execExtest v s
  | .idcode => Sys2Proof.Machine.execIdcode s
  | .samplePreload pins v => Sys2Proof.Machine.execSamplePreload pins v s
  | .highz => Sys2Proof.Machine.execHighz s
  | .clamp => Sys2Proof.Machine.execClamp s
  | .bypass code => Sys2Proof.Machine.execBypass code s
  | .coreInstruction q => Sys2Proof.Machine.execCoreInstruction q s
  | .fenceI n => Sys2Proof.Machine.execFenceI n s
  | .lrW n => Sys2Proof.Machine.execLrW n s
  | .scW n => Sys2Proof.Machine.execScW n s
  | .amo n => Sys2Proof.Machine.execAmo n s
  | .wfi n => Sys2Proof.Machine.execWfi n s
  | .timerCompareMatch n => Sys2Proof.Machine.execTimerCompareMatch n s
  | .tcmpHiWrite n v => Sys2Proof.Machine.execTcmpHiWrite n v s
  | .externalInterrupt n src => Sys2Proof.Machine.execExternalInterrupt n src s
  | .coreRelease n => Sys2Proof.Machine.execCoreRelease n s
  | .makeReady n t beat => Sys2Proof.Machine.execMakeReady n t beat s
  | .block n t beat => Sys2Proof.Machine.execBlock n t beat s
  | .cancel n t => Sys2Proof.Machine.execCancel n t s
  | .yield n => Sys2Proof.Machine.execYield n s
  | .contextSwitch n => Sys2Proof.Machine.execContextSwitch n s
  | .dmaStart n => Sys2Proof.Machine.execDmaStart n s
  | .dmaRequest q => Sys2Proof.Machine.execDmaRequest q s
  | .descriptorComplete n => Sys2Proof.Machine.execDescriptorComplete n s
  | .dmaBusError n k addr again written last => Sys2Proof.Machine.execDmaBusError n k addr again written last s
  | .dmaAbort n written tie => Sys2Proof.Machine.execDmaAbort n written tie s
  | .recover => Sys2Proof.Machine.execRecover s
  | .oscillatorStable lsx ratio => Sys2Proof.Machine.execOscillatorStable lsx ratio s
  | .oscillatorTimeout lsx => Sys2Proof.Machine.execOscillatorTimeout lsx s
  | .clockMonitorWindow hsx irc lsx lrc stopped => Sys2Proof.Machine.execClockMonitorWindow hsx irc lsx lrc stopped s
  | .ratioRelearn ratio => Sys2Proof.Machine.execRatioRelearn ratio s
  | .muxForce => Sys2Proof.Machine.execMuxForce s
  | .clockGateWrite v busy => Sys2Proof.Machine.execClockGateWrite v busy s
  | .gateCloseDeferred i1 => Sys2Proof.Machine.execGateCloseDeferred i1 s
  | .domainRequest v => Sys2Proof.Machine.execDomainRequest v s
  | .domainPowerUp d pass => Sys2Proof.Machine.execDomainPowerUp d pass s
  | .powerOn memberB root => Sys2Proof.Machine.execPowerOn memberB root s
  | .vsupLow mv => Sys2Proof.Machine.execVsupLow mv s
  | .vsupFail => Sys2Proof.Machine.execVsupFail s
  | .overtemp tj => Sys2Proof.Machine.execOvertemp tj s
  | .goRun => Sys2Proof.Machine.execGoRun s
  | .goStandby => Sys2Proof.Machine.execGoStandby s
  | .goWatch => Sys2Proof.Machine.execGoWatch s
  | .wake kind => Sys2Proof.Machine.execWake kind s
  | .pinReset => Sys2Proof.Machine.execPinReset s
  | .resetHeldLong => Sys2Proof.Machine.execResetHeldLong s
  | .softwareReset => Sys2Proof.Machine.execSoftwareReset s
  | .resetEntry c => Sys2Proof.Machine.execResetEntry c s
  | .resetRelease hold memberB root => Sys2Proof.Machine.execResetRelease hold memberB root s
  | .watchdogFeed v => Sys2Proof.Machine.execWatchdogFeed v s
  | .watchdogExpire => Sys2Proof.Machine.execWatchdogExpire s
  | .round => Sys2Proof.Machine.execRound s
  | .quick => Sys2Proof.Machine.execQuick s
  | .selfTestRoundStart => Sys2Proof.Machine.execSelfTestRoundStart s
  | .roundDeadline quick => Sys2Proof.Machine.execRoundDeadline quick s
  | .scrubRead m addr r => Sys2Proof.Machine.execScrubRead m addr r s
  | .sfdpTimeout => Sys2Proof.Machine.execSfdpTimeout s
  | .sectionLoad nvm a b x => Sys2Proof.Machine.execSectionLoad nvm a b x s
  | .bootComplete digest digestOk keyOk sigOk selfTest cals => Sys2Proof.Machine.execBootComplete digest digestOk keyOk sigOk selfTest cals s
  | .nvmRead addr len => Sys2Proof.Machine.execNvmRead addr len s
  | .nvmProgram addr len => Sys2Proof.Machine.execNvmProgram addr len s
  | .erase4k addr => Sys2Proof.Machine.execErase4k addr s
  | .erase64k addr => Sys2Proof.Machine.execErase64k addr s
  | .nvmOpComplete d ok1 ok2 => Sys2Proof.Machine.execNvmOpComplete d ok1 ok2 s
  | .fuseProgram w => Sys2Proof.Machine.execFuseProgram w s
  | .gpioSet v => Sys2Proof.Machine.execGpioSet v s
  | .gpioClr v => Sys2Proof.Machine.execGpioClr v s
  | .gpioEdge n level => Sys2Proof.Machine.execGpioEdge n level s
  | .sfpLos l => Sys2Proof.Machine.execSfpLos l s
  | .peerActFall => Sys2Proof.Machine.execPeerActFall s
  | .headBrick c => Sys2Proof.Machine.execHeadBrick c s
  | .ownBrickReturn c => Sys2Proof.Machine.execOwnBrickReturn c s
  | .plannedFrameDue setp => Sys2Proof.Machine.execPlannedFrameDue setp s
  | .halfEvent n => Sys2Proof.Machine.execHalfEvent n s

end Sys2Proof.Machine
end

