-- ==== Sys2Proof/Machine/Step.lean ====
section
/-! DEFINITION. One step of the device: the command at the front of the queue, or, with none waiting, one cycle of device time. -/
namespace Sys2Proof.Machine

/-- What the device does with no command waiting: one cycle of TIM's clock while TIM is powered and out of reset and its tree runs: a clock mux that waits stops the tree (R338, R392; DESIGN CHOICE, log entry 3). Cascade frames that wait for a port leave once they may (R349). -/
def State.idle (s : State) : State :=
  if s.domUp (blockDom 0x80110000) && s.dev != .reset && !s.pwr.muxFast then
    let t := { s with now := s.timCycle.now, tim := s.timCycle.tim, bus := .none, outs := [] }
    { t with cas := t.casPump.cas, outs := t.casPump.outs }
  else { s with bus := .none, outs := [] }

/-- One step. -/
def step (s : State) : Host.Outcome State Fault Refusal :=
  match s.pending with
  | [] => .next s.idle
  | c :: r => exec c { s with pending := r }

/-- The state with the command that a word spells at the front of its queue; unchanged where it spells none. -/
def State.withFetchWord (s : State) (nbits w : Nat) : State :=
  match Sys2Proof.decodeTableWord nbits w with
  | some c => { s with pending := c :: s.pending }
  | none => s

end Sys2Proof.Machine
end

