-- ==== Sys2Proof/Machine/LeCode.lean ====
section
/-! DEFINITION. The encoding of the loop-engine instructions (R142 to R146): the instruction that a word stands for, and the word of an instruction. A field that R142 and R143 give no meaning and do not require to be zero (B of CVTIF, CVTLF, CVTFL and FINITE; Q, S and T of LRD and LRDQ; D[4:2] of LLD; D or A of a SYS function that does not name it) is ignored in a word and written as zero. -/
namespace Sys2Proof.Machine

/-- A register field. -/
def fld5 (w lo : Nat) : Fin 32 := Fin.ofNat 32 (bits w lo 5)
/-- A three-bit field. -/
def fld3 (w lo : Nat) : Fin 8 := Fin.ofNat 8 (bits w lo 3)
/-- A two-bit field. -/
def fld2 (w lo : Nat) : Fin 4 := Fin.ofNat 4 (bits w lo 2)

/-- The instruction of format R, I, Q, L, M, X, V, B, J or S that a word's fields give, whether or not the word is legal. -/
def leFields (n : Fin 12) (w : Nat) : Option Instr :=
  let d := fld5 w 21
  let a := fld5 w 16
  let b := fld5 w 11
  let imm := BitVec.ofNat 16 (bits w 0 16)
  let acc := fld2 w 24
  let p := fld5 w 19
  let q := fld5 w 14
  let an := fld3 w 18
  let pm := bit w 14
  let ofs := BitVec.ofNat 14 (bits w 0 14)
  match bits w 26 6 with
  | 0x00 => some (.leNop n)
  | 0x01 => some (.leAdd n d a b)
  | 0x02 => some (.leSub n d a b)
  | 0x03 => some (.leAnd n d a b)
  | 0x04 => some (.leOr n d a b)
  | 0x05 => some (.leXor n d a b)
  | 0x06 => some (.leSll n d a b)
  | 0x07 => some (.leSrl n d a b)
  | 0x08 => some (.leSra n d a b)
  | 0x0C => some (.leAdd64 n d a b)
  | 0x0D => some (.leSub64 n d a b)
  | 0x0E => some (.leSlt64 n d a b)
  | 0x0F => some (.leSlt n d a b)
  | 0x10 => some (.leFadd n d a b)
  | 0x11 => some (.leFsub n d a b)
  | 0x12 => some (.leFmul n d a b)
  | 0x13 => some (.leFdiv n d a b)
  | 0x14 => some (.leFmin n d a b)
  | 0x15 => some (.leFmax n d a b)
  | 0x16 => some (.leFabs n d a)
  | 0x17 => some (.leFneg n d a)
  | 0x18 => some (.leFclt n d a b)
  | 0x1A => some (.leCvtif n d a)
  | 0x1B => some (.leCvtlf n d a)
  | 0x1C => some (.leCvtfl n d a)
  | 0x1D => some (.leFinite n d a)
  | 0x09 => some (.leAddi n d a imm)
  | 0x0A => some (.leLui n d imm)
  | 0x0B => some (.leOri n d a imm)
  | 0x19 => some (.leFclamp n d a b (fld5 w 6))
  | 0x20 => some (.leLclr n acc)
  | 0x21 => some (.leLmac n acc p q)
  | 0x22 => some (.leLmsu n acc p q)
  | 0x23 => some (.leLmac2 n acc p q (fld5 w 9) (fld5 w 4))
  | 0x24 => some (.leLadd n acc p)
  | 0x25 => some (.leLdot n acc (fld3 w 19) (fld3 w 14) (fld5 w 9))
  | 0x26 => some (.leLrd n acc p)
  | 0x27 => some (.leLrdq n acc p)
  | 0x28 => some (.leLst n (fld2 w 21) an pm ofs)
  | 0x29 => some (.leLld n (fld2 w 21) an pm ofs)
  | 0x30 => some (.leLdw n d an pm ofs)
  | 0x31 => some (.leStw n d an pm ofs)
  | 0x32 => some (.leLdd n d an pm ofs)
  | 0x33 => some (.leStd n d an pm ofs)
  | 0x34 => some (.leMvta n (fld2 w 16) an d)
  | 0x35 => some (.leMvfa n (fld2 w 16) an d)
  | 0x36 => some (.leAdda n an imm)
  | 0x37 => some (.leCbind n an (bit w 15) (fld3 w 12))
  | 0x38 => some (.leVmax n d an b)
  | 0x39 => some (.leVmin n d an b)
  | 0x3A => some (.leJal n d imm)
  | 0x3B => some (.leJr n a)
  | 0x3C => some (.leBr n (Fin.ofNat 16 (bits w 22 4)) (fld5 w 17) (BitVec.ofNat 17 (bits w 0 17)))
  | 0x3D => some (.leEvwait n d)
  | 0x3F => match bits w 0 16 with
    | 0 => some (.leHalt n) | 1 => some (.leDfold n a) | 2 => some (.leCmdc n) | 3 => some (.leRdflg n d)
    | 4 => some (.leClrf n a) | 5 => some (.leRdcyc n d) | 6 => some (.leRdcrs n d)
    | _ => none
  | _ => none

/-- The command that engine `n` executes where its word is `w`: the instruction, or the illegal-instruction error (R146). -/
def leDecode (n : Fin 12) (w : Word) : Instr := if leLegal w.toNat then (leFields n w.toNat).getD (.illegalInstruction n w) else .illegalInstruction n w

/-- The operands are ones that R142 to R146 allow: pairs even, LDOT on two address registers, a defined condition. -/
def leOk (i : Instr) : Bool :=
  match i with
  | .leAdd64 _ d a b => !odd d && !odd a && !odd b
  | .leSub64 _ d a b => !odd d && !odd a && !odd b
  | .leSlt64 _ _ a b => !odd a && !odd b
  | .leCvtlf _ _ a => !odd a
  | .leCvtfl _ d _ => !odd d
  | .leLrdq _ _ p => !odd p
  | .leLdot _ _ x y _ => x != y
  | .leLdd _ d _ _ _ => !odd d
  | .leStd _ d _ _ _ => !odd d
  | .leVmax _ d _ _ => !odd d
  | .leVmin _ d _ _ => !odd d
  | .leBr _ cond _ _ => decide (cond.val ≤ 5)
  | _ => true

/-- A word from its opcode and its other bits. -/
def leOp (op rest : Nat) : Option Word := some (BitVec.ofNat 32 (op * 2 ^ 26 + rest))

/-- Format R and Q fields. -/
def encR (d a b c : Nat) : Nat := d * 2 ^ 21 + a * 2 ^ 16 + b * 2 ^ 11 + c * 2 ^ 6
/-- Format L fields. -/
def encL (acc p q x y : Nat) : Nat := acc * 2 ^ 24 + p * 2 ^ 19 + q * 2 ^ 14 + x * 2 ^ 9 + y * 2 ^ 4
/-- Format M fields. -/
def encM (d an : Nat) (pm : Bool) (ofs : Nat) : Nat := d * 2 ^ 21 + an * 2 ^ 18 + b2n pm * 2 ^ 14 + ofs
/-- Format S fields. -/
def encS (d a f : Nat) : Nat := d * 2 ^ 21 + a * 2 ^ 16 + f

/-- The word of a loop-engine instruction; none for another command. -/
def leEncode (i : Instr) : Option Word :=
  match i with
  | .leNop _ => leOp 0x00 0
  | .leAdd _ d a b => leOp 0x01 (encR d a b 0)
  | .leSub _ d a b => leOp 0x02 (encR d a b 0)
  | .leAnd _ d a b => leOp 0x03 (encR d a b 0)
  | .leOr _ d a b => leOp 0x04 (encR d a b 0)
  | .leXor _ d a b => leOp 0x05 (encR d a b 0)
  | .leSll _ d a b => leOp 0x06 (encR d a b 0)
  | .leSrl _ d a b => leOp 0x07 (encR d a b 0)
  | .leSra _ d a b => leOp 0x08 (encR d a b 0)
  | .leAdd64 _ d a b => leOp 0x0C (encR d a b 0)
  | .leSub64 _ d a b => leOp 0x0D (encR d a b 0)
  | .leSlt64 _ d a b => leOp 0x0E (encR d a b 0)
  | .leSlt _ d a b => leOp 0x0F (encR d a b 0)
  | .leFadd _ d a b => leOp 0x10 (encR d a b 0)
  | .leFsub _ d a b => leOp 0x11 (encR d a b 0)
  | .leFmul _ d a b => leOp 0x12 (encR d a b 0)
  | .leFdiv _ d a b => leOp 0x13 (encR d a b 0)
  | .leFmin _ d a b => leOp 0x14 (encR d a b 0)
  | .leFmax _ d a b => leOp 0x15 (encR d a b 0)
  | .leFclt _ d a b => leOp 0x18 (encR d a b 0)
  | .leFabs _ d a => leOp 0x16 (encR d a 0 0)
  | .leFneg _ d a => leOp 0x17 (encR d a 0 0)
  | .leCvtif _ d a => leOp 0x1A (encR d a 0 0)
  | .leCvtlf _ d a => leOp 0x1B (encR d a 0 0)
  | .leCvtfl _ d a => leOp 0x1C (encR d a 0 0)
  | .leFinite _ d a => leOp 0x1D (encR d a 0 0)
  | .leAddi _ d a imm => leOp 0x09 (encS d a imm.toNat)
  | .leLui _ d imm => leOp 0x0A (encS d 0 imm.toNat)
  | .leOri _ d a imm => leOp 0x0B (encS d a imm.toNat)
  | .leFclamp _ d a b c => leOp 0x19 (encR d a b c)
  | .leLclr _ i => leOp 0x20 (encL i 0 0 0 0)
  | .leLmac _ i p q => leOp 0x21 (encL i p q 0 0)
  | .leLmsu _ i p q => leOp 0x22 (encL i p q 0 0)
  | .leLmac2 _ i p q x y => leOp 0x23 (encL i p q x y)
  | .leLadd _ i p => leOp 0x24 (encL i p 0 0 0)
  | .leLdot _ i x y c => leOp 0x25 (encL i x y c 0)
  | .leLrd _ i p => leOp 0x26 (encL i p 0 0 0)
  | .leLrdq _ i p => leOp 0x27 (encL i p 0 0 0)
  | .leLst _ i an pm ofs => leOp 0x28 (encM i an pm ofs.toNat)
  | .leLld _ i an pm ofs => leOp 0x29 (encM i an pm ofs.toNat)
  | .leLdw _ d an pm ofs => leOp 0x30 (encM d an pm ofs.toNat)
  | .leStw _ d an pm ofs => leOp 0x31 (encM d an pm ofs.toNat)
  | .leLdd _ d an pm ofs => leOp 0x32 (encM d an pm ofs.toNat)
  | .leStd _ d an pm ofs => leOp 0x33 (encM d an pm ofs.toNat)
  | .leMvta _ cls i v => leOp 0x34 (v * 2 ^ 21 + i * 2 ^ 18 + cls * 2 ^ 16)
  | .leMvfa _ cls i v => leOp 0x35 (v * 2 ^ 21 + i * 2 ^ 18 + cls * 2 ^ 16)
  | .leAdda _ an imm => leOp 0x36 (an * 2 ^ 18 + imm.toNat)
  | .leCbind _ an en k => leOp 0x37 (an * 2 ^ 18 + b2n en * 2 ^ 15 + k * 2 ^ 12)
  | .leVmax _ d an c => leOp 0x38 (d * 2 ^ 21 + an * 2 ^ 18 + c * 2 ^ 11)
  | .leVmin _ d an c => leOp 0x39 (d * 2 ^ 21 + an * 2 ^ 18 + c * 2 ^ 11)
  | .leJal _ d target => leOp 0x3A (encS d 0 target.toNat)
  | .leJr _ a => leOp 0x3B (encR 0 a 0 0)
  | .leBr _ cond r ofs => leOp 0x3C (cond * 2 ^ 22 + r * 2 ^ 17 + ofs.toNat)
  | .leEvwait _ d => leOp 0x3D (encR d 0 0 0)
  | .leHalt _ => leOp 0x3F 0
  | .leDfold _ a => leOp 0x3F (encS 0 a 1)
  | .leCmdc _ => leOp 0x3F 2
  | .leRdflg _ d => leOp 0x3F (encS d 0 3)
  | .leClrf _ a => leOp 0x3F (encS 0 a 4)
  | .leRdcyc _ d => leOp 0x3F (encS d 0 5)
  | .leRdcrs _ d => leOp 0x3F (encS d 0 6)
  | _ => none

end Sys2Proof.Machine
end

