-- ==== Sys2Proof/WellFormed.lean ====
section
/-! DEFINITION. What a command's operands must satisfy for something of the kind to reach the device: lengths and widths that the layouts of the spec give. The meanings are total and do not ask for it. -/
namespace Sys2Proof
open Machine

/-- A brick copy has a header, a payload of at most 2048 bytes and a CRC (R181), and arrives at a device time. -/
def Machine.Copy.wf (c : Copy) : Bool := decide (16 ≤ c.bytes.length ∧ c.bytes.length ≤ 2064 ∧ c.at_ < 2 ^ 64)

/-- A mortar frame's sequence number has 16 bits (R301). -/
def Machine.MtrFrm.wf (f : MtrFrm) : Bool := decide (f.seq < 2 ^ 16)

/-- A journal entry keeps to its fields (R321). -/
def Machine.JEnt.wf (e : JEnt) : Bool :=
  decide (e.client < 2 ^ 16 ∧ e.st ≤ 4 ∧ e.seq < 2 ^ 32 ∧ e.acc < 2 ^ 64 ∧ e.doneC < 2 ^ 64 ∧ e.body.length ≤ 512 ∧ e.result.length ≤ 448)

/-- A weather report's fields keep to the WX_ registers (R316). -/
def Machine.Weather.wf (w : Weather) : Bool :=
  decide (w.testRes < 4 ∧ w.seq < 2 ^ 16 ∧ w.logicPct ≤ 100 ∧ w.memPct ≤ 100 ∧ w.roundS < 2 ^ 16 ∧ w.mismatch < 2 ^ 32 ∧ w.safeDiv < 2 ^ 32)

/-- A UDP payload fits a Dripota message or one that R333 discards. -/
def Machine.Udp.wf (u : Udp) : Bool := decide (u.bytes.length ≤ 1472)

/-- A MARK's fields (R349). -/
def Machine.Mark.wf (m : Mark) : Bool :=
  decide (m.time < 2 ^ 64 ∧ m.course < 2 ^ 64 ∧ m.corr < 2 ^ 32 ∧ m.sched < 4 ∧ m.next < 4 ∧ m.left < 256 ∧ m.stepSeq < 256)

/-- A load record keeps to what it loads (R416). -/
def Machine.LoadItem.wf (x : LoadItem) : Bool :=
  match x with
  | .reg .. | .stray | .entry .. => true
  | .mem _ b => decide (0 < b.length)
  | .sched _ _ b => decide (b.ents.length ≤ 1024)
  | .map _ els => els.all (fun e => decide (e < 2 ^ 32))
  | .node _ a _ k => decide (2 ≤ a ∧ a < 64 ∧ k < 256)
  | .ranges r => decide (r.length ≤ 4096)
  | .seg _ _ g => decide (g.count ≤ 512)
  | .island g => decide (g.inps.length ≤ 32 ∧ g.outs.length ≤ 20) && g.blocks.all (fun b => decide (b.length = 16)) && g.conns.all (fun x => match x.2 with | some q => (match q.axis with | some b => decide (b.length = 64) | none => true) | none => true)
  | .system _ _ sfc img => decide (sfc < 2 ^ 32 ∧ img < 2 ^ 32)
  | .plan w => decide (w.length = 64)

/-- A section's load records. -/
def Machine.SecRead.wf (x : SecRead) : Bool := x.items.all LoadItem.wf

/-- A command that the device can be given. -/
def Instr.wf (i : Instr) : Bool :=
  match i with
  | .adcConversion _ _ _ t => decide (t < 2 ^ 64)
  | .feedback c => c.wf
  | .reference c => c.wf
  | .ioIn c => c.wf
  | .safety c => c.wf
  | .join c => c.wf
  | .fill c => c.wf
  | .mgmtStatus c => c.wf
  | .tableAck c => c.wf
  | .mgmtNone c => c.wf
  | .mgmtServiceData c => c.wf
  | .mgmtRefusedOpcode c => c.wf
  | .brickForward c => c.wf
  | .ltRequestSend _ t1 => decide (t1 < 2 ^ 64)
  | .ltRequest _ _ t2 => decide (t2 < 2 ^ 64)
  | .ltResponse _ _ _ t4 => decide (t4 < 2 ^ 64)
  | .outputResyncPass recs _ => recs.all (fun r => decide (r.point < 262144 ∧ r.value < 2 ^ 32))
  | .trigInEdge _ _ t => decide (t < 2 ^ 64)
  | .trigOutPulseEnd _ t => decide (t < 2 ^ 64)
  | .renew f epoch course granted => f.wf && decide (epoch < 2 ^ 16 ∧ course < 2 ^ 64 ∧ granted < 2 ^ 64)
  | .journal f _ e => f.wf && e.wf
  | .jack f _ => f.wf
  | .safetyFrame f _ words => f.wf && words.all (fun w => decide (w < 2 ^ 32))
  | .digest f course d => f.wf && decide (course < 2 ^ 64) && decide (d.length = 12) && d.all (fun x => decide (x.1 < 2 ^ 64))
  | .copy f _ => f.wf
  | .weather f w => f.wf && w.wf
  | .bulk f b => f.wf && b.ents.all (fun x => decide (x.1 < 256) && x.2.wf) && b.cls.all (fun x => decide (x.1 < 16))
  | .hello f h => f.wf && decide (h.sysId < 2 ^ 32 ∧ h.sysRev < 2 ^ 32 ∧ h.epoch < 2 ^ 16 ∧ h.sfc < 2 ^ 32)
  | .handoverFrame f course => f.wf && decide (course < 2 ^ 64)
  | .command u => u.wf
  | .service u => u.wf
  | .icmpEchoRequest _ d => decide (d.length ≤ 1472)
  | .mark _ m => m.wf
  | .setp _ p => decide (p.length ≤ 536)
  | .msg _ b => decide (b.length ≤ 536)
  | .trig _ t _ _ => decide (t < 2 ^ 64)
  | .plan _ p => decide (p.length = 64)
  | .image _ _ d _ _ => decide (d.length ≤ 4096)
  | .dmaBusError _ _ _ _ written _ => decide (written < 2 ^ 24 * 2 ^ 16)
  | .dmaAbort _ written _ => decide (written < 2 ^ 24 * 2 ^ 16)
  | .sectionLoad _ _ _ x => x.wf
  | .bootComplete dg _ _ _ _ _ => decide (dg.length = 8)
  | .nvmOpComplete d _ _ => decide (d.length ≤ 256)
  | .headBrick c => c.wf
  | .ownBrickReturn c => c.wf
  | .registerWrite .. | .counterReadClear .. | .crsCntLoRead .. | .digLoRead .. | .timNowLoRead .. | .timMasterLoRead .. | .capCascTLoRead ..
  | .missTLoRead .. | .missCntRead .. | .courseStart .. | .sampleInstant .. | .actuationInstant | .syncGapStart | .feedbackMissing .. | .swGo
  | .selfTestSlice .. | .enable .. | .disable .. | .queue .. | .replace .. | .stop .. | .estop .. | .clearFault .. | .home .. | .reload ..
  | .setGroup .. | .badOpcode .. | .dwellExpire .. | .limitDebounce .. | .homeDwellExpire .. | .axisLoop .. | .followingErrorLimit ..
  | .velocityErrorLimit .. | .feedbackLost .. | .liveUpdateRequest .. | .liveUpdateApply | .engineStart .. | .engineHaltReq .. | .leNop ..
  | .leAdd .. | .leSub .. | .leAnd .. | .leOr .. | .leXor .. | .leSll .. | .leSrl .. | .leSra .. | .leAddi .. | .leLui .. | .leOri .. | .leAdd64 ..
  | .leSub64 .. | .leSlt64 .. | .leSlt .. | .leFadd .. | .leFsub .. | .leFmul .. | .leFdiv .. | .leFmin .. | .leFmax .. | .leFabs .. | .leFneg ..
  | .leFclt .. | .leFclamp .. | .leCvtif .. | .leCvtlf .. | .leCvtfl .. | .leFinite .. | .leLclr .. | .leLmac .. | .leLmsu .. | .leLmac2 ..
  | .leLadd .. | .leLdot .. | .leLrd .. | .leLrdq .. | .leLst .. | .leLld .. | .leLdw .. | .leStw .. | .leLdd .. | .leStd .. | .leMvta ..
  | .leMvfa .. | .leAdda .. | .leCbind .. | .leVmax .. | .leVmin .. | .leJal .. | .leJr .. | .leBr .. | .leEvwait .. | .leHalt .. | .leDfold ..
  | .leCmdc .. | .leRdflg .. | .leClrf .. | .leRdcyc .. | .leRdcrs .. | .illegalInstruction .. | .indexUpdate .. | .stepPulse .. | .blankingEnd ..
  | .comparatorTrip .. | .onTimeMax .. | .fastDecayEnd .. | .slowDecayMidpoint .. | .offTimeEnd .. | .bridgeFaultRetryEnd .. | .holdDelayExpire ..
  | .externalDriveFault .. | .encoderEdge .. | .stall .. | .calGo .. | .calibrationEnd .. | .brickEntryDue .. | .ioOutSnapshot .. | .mgTxGo ..
  | .mgRxRelease .. | .brickLost .. | .linkDown .. | .linkSync .. | .forwardingResume .. | .startupListenPeriod | .ringInsert .. | .insertQuietEnd
  | .enrolPhaseEnd | .claimTimeout .. | .pointWrite .. | .pointValueRead .. | .pointStatusRead .. | .arm .. | .captureAbort .. | .force ..
  | .captureRow .. | .safetyCycleStart | .vectorCompare .. | .siSample .. | .testPulseStart .. | .testPulseEnd .. | .sofbSample ..
  | .outputTestPulseStart .. | .outputTestPulseEnd .. | .outputTestRepeat .. | .kfCheckTimeout .. | .connectionWatchdogExpire ..
  | .islandClockCheck .. | .ss1StoInstant .. | .logicTimerExpire | .sbcFault .. | .islandStart .. | .ack | .restart | .nsreq .. | .frameAckTimeout ..
  | .mortarLinkDown | .weatherSend | .weatherTimeout | .fenceExpire | .leaseCheck | .claimProbe | .claimConfirm | .peerActRise | .quickSelfTestEnd ..
  | .handoverRequest | .jnlTake | .jnlDone .. | .clientSlotExpire .. | .fwqTxSubmit .. | .timeRestep | .handover | .schedSwitch | .safeHoldEnter
  | .safeHoldLeave | .hostLinkChange .. | .phyPoll .. | .mdioWrite .. | .mdioRead .. | .mdioComplete .. | .arpRequest .. | .arpReply ..
  | .arpCacheExpire .. | .arpResolveTimeout .. | .sync .. | .followUp .. | .delayReq .. | .delayResp .. | .announce .. | .syncTimeout
  | .announceTimeout | .markMissing | .cascadeInsert | .cascadeStatus .. | .positionPresenceExpire .. | .enum .. | .extest .. | .idcode
  | .samplePreload .. | .highz | .clamp | .bypass .. | .coreInstruction .. | .fenceI .. | .lrW .. | .scW .. | .amo .. | .wfi ..
  | .timerCompareMatch .. | .tcmpHiWrite .. | .externalInterrupt .. | .coreRelease .. | .makeReady .. | .block .. | .cancel .. | .yield ..
  | .contextSwitch .. | .dmaStart .. | .dmaRequest .. | .descriptorComplete .. | .recover | .oscillatorStable .. | .oscillatorTimeout ..
  | .clockMonitorWindow .. | .ratioRelearn .. | .muxForce | .clockGateWrite .. | .gateCloseDeferred .. | .domainRequest .. | .domainPowerUp ..
  | .powerOn .. | .vsupLow .. | .vsupFail | .overtemp .. | .goRun | .goStandby | .goWatch | .wake .. | .pinReset | .resetHeldLong | .softwareReset
  | .resetEntry .. | .resetRelease .. | .watchdogFeed .. | .watchdogExpire | .round | .quick | .selfTestRoundStart | .roundDeadline ..
  | .scrubRead .. | .sfdpTimeout | .nvmRead .. | .nvmProgram .. | .erase4k .. | .erase64k .. | .fuseProgram .. | .gpioSet .. | .gpioClr ..
  | .gpioEdge .. | .sfpLos .. | .peerActFall | .plannedFrameDue .. | .halfEvent .. => true

end Sys2Proof
end

