-- ==== Sys2Proof/Safety.lean ====
section
/-! DEFINITION. What counts as a safe run, in the terms the statements use. -/
namespace Sys2Proof.Machine

/-- A command completes in a state: it answers a next state, neither a fault nor a refusal. -/
def Completes (c : Instr) (s : State) : Prop := ∃ t, exec c s = .next t

/-- A command completes in a state, and the next state is as `p` says. -/
def Ends (c : Instr) (s : State) (p : State → Prop) : Prop := ∃ t, exec c s = .next t ∧ p t

/-- The TAP is what its instruction register and RESET_n make it: boundary scan acts on the pins only while RESET_n is held low (R360). -/
def State.tapOk (s : State) : Prop := s.jtag.pin s.rstLow = s.jtag

/-- Every register field but those named keeps its value. -/
def FldsBut (s t : State) (fs : List Fld) : Prop := ∀ f : Fld, (∀ g ∈ fs, g.key ≠ f.key) → t.get f = s.get f

/-- Every byte of memory outside the `n` bytes at `a` reads as before. -/
def BytesBut (s t : State) (a n : Nat) : Prop := ∀ x, x < a ∨ a + n ≤ x → t.byte x = s.byte x

/-- Nothing has changed but the named register fields, and the answer and emissions of the last command. -/
def OnlyFlds (s t : State) (fs : List Fld) : Prop := FldsBut s t fs ∧ t = { s with flds := t.flds, bus := t.bus, outs := t.outs }

/-- Nothing at all has changed but the answer and emissions of the last command. -/
def Unchanged (s t : State) : Prop := t = { s with bus := t.bus, outs := t.outs }

/-- Nothing but stepper channel `n`, the named register fields, and the answer and emissions of the last command has changed. -/
def OnlyChan (s t : State) (n : Nat) (fs : List Fld) : Prop :=
  (∀ m, m ≠ n → t.chan m = s.chan m) ∧ FldsBut s t fs ∧ t = { s with chans := t.chans, flds := t.flds, bus := t.bus, outs := t.outs }

/-- As `OnlyChan`, and axis `192 + n`, which the channel drives. -/
def OnlyChanAx (s t : State) (n : Nat) (fs : List Fld) : Prop :=
  (∀ m, m ≠ n → t.chan m = s.chan m) ∧ (∀ a, a ≠ 192 + n → t.ax a = s.ax a) ∧ FldsBut s t fs ∧
    t = { s with chans := t.chans, axes := t.axes, flds := t.flds, bus := t.bus, outs := t.outs }

/-- The bit of a channel in STP_FLT0 or STP_FLT1 reads 1. -/
def State.stpFlt (s : State) (n : Nat) : Bool := if n < 32 then bit (s.get R.STP_FLT0_FLT) n else bit (s.get R.STP_FLT1_FLT) (n - 32)

/-- Port `n` has answered its command with a result code in the present course (R49). -/
def Answered (s t : State) (n : Fin 4) (r : Nat) : Prop :=
  t.get (R.PF_CMD_STAT_RESULT n) = r ∧ t.get (R.PF_CMD_STAT_COURSE n) = s.crs.cnt % 2 ^ 16 ∧ t.flag (R.PF_CMD_OP_GO n) = false

/-- What the arrival of a brick on a ring can change: nothing else has. -/
def RxFrame (s t : State) : Prop :=
  t = { s with rings := t.rings, bond := t.bond, crs := t.crs, now := t.now, free := t.free, cap := t.cap, axes := t.axes, engs := t.engs, pim := t.pim, isl := t.isl, mtr := t.mtr, chans := t.chans, pwr := t.pwr, mem := t.mem, tst := t.tst, flds := t.flds, bus := t.bus, outs := t.outs }

/-- A counter field has counted one more event, saturating at its largest value. -/
def Counted (s t : State) (f : Fld) : Prop := t.get f = min (s.get f + 1) (2 ^ f.w - 1)

/-- Nothing but ring `k`, the named register fields, and the answer and emissions of the last command has changed. -/
def OnlyRing (s t : State) (k : Nat) (fs : List Fld) : Prop :=
  (∀ j, j ≠ k → t.ring j = s.ring j) ∧ FldsBut s t fs ∧ t = { s with rings := t.rings, flds := t.flds, bus := t.bus, outs := t.outs }

/-! Loop engines. -/

/-- Engine `n` executes an instruction: RUNNING, not asleep in EVWAIT, with a PC that it may fetch from and a word there that is not poisoned (R115, R122, R405). -/
def LeRuns (s : State) (n : Fin 12) : Prop :=
  (s.eng n).st = .running ∧ (s.eng n).asleep = false ∧ leFetchOk (s.eng n).pc = true ∧
  (s.poisoned (leProg n + (s.eng n).pc) 4 && decide ((s.eng n).pc < 0x8000)) = false

/-- The engine past an instruction that occupies some cycles, after the wait for its operands, and raises some flags. -/
def leNext (i : Instr) (e : Eng) (raised cycles : Nat) : Eng :=
  { e.spend i cycles with pc := (e.pc + 4) % 2 ^ 16, sf := e.sf ||| raised }

/-- Nothing but engine `n`, memory and the LE's own fields of engine `n` has changed. -/
def LeKeeps (s t : State) (n : Nat) : Prop :=
  (∀ m, m ≠ n → t.eng m = s.eng m) ∧
  (∀ f : Fld, f.key ≠ (R.LE_ENG_FLAGS_FLAGS n).key → f.key ≠ R.LE_ENG_ERR_ERR.key → f.key ≠ (R.LE_ENG_ERR_ADDR_ADDR n).key → t.get f = s.get f) ∧
  t = { s with engs := t.engs, mem := t.mem, tst := t.tst, flds := t.flds, bus := t.bus, outs := t.outs }

/-- A command completes as an instruction of engine `n` that leaves `e`, raises flags, occupies cycles and stores the bytes `w`: the engine is at the next instruction, the flags stand in FLAGS too, every byte not stored to reads as before, and nothing else changes. -/
def LeDone (c : Instr) (s : State) (n : Fin 12) (e : Eng) (raised cycles : Nat) (w : List (Nat × BitVec 8)) : Prop :=
  Ends c s (fun t => t.eng n = leNext c e raised cycles ∧ t.get (R.LE_ENG_FLAGS_FLAGS n) = (s.get (R.LE_ENG_FLAGS_FLAGS n) ||| raised) % 2 ^ 7 ∧
    t.mem = Memory.putAll s.mem w ∧ (∀ a, (∀ p ∈ w, p.1 ≠ a) → t.byte a = s.byte a) ∧ LeKeeps s t n)

/-- A command completes as a jump of engine `n`, which is left as `e` at a new PC; memory is unchanged. -/
def LeJumps (c : Instr) (s : State) (n : Fin 12) (e : Eng) (pc cycles : Nat) : Prop :=
  Ends c s (fun t => t.eng n = { e.spend c cycles with pc := pc % 2 ^ 16 } ∧ t.mem = s.mem ∧ LeKeeps s t n)

/-- A command puts engine `n` in ERROR with a code: it records the code, keeps its PC, drops its queued events and sets its bit of LE_ENG_ERR; memory is unchanged (R122, R126). -/
def LeFails (c : Instr) (s : State) (n : Fin 12) (code : Nat) : Prop :=
  Ends c s (fun t => t.eng n = { s.eng n with st := .error, errCode := code, queue := [], asleep := false } ∧ bit (t.get R.LE_ENG_ERR_ERR) n = true ∧ t.mem = s.mem ∧ LeKeeps s t n)

/-- The effective address of An at a byte offset (R134, R135): An plus the offset, or, bound to a descriptor, its base plus the offset from it modulo the length. -/
def Eng.ea (e : Eng) (an : Nat) (ofs : Int) : Nat :=
  match e.bind.getD an none with
  | none => ux 32 (at_ e.a an + ofs)
  | some k => ux 32 (at_ e.b k + (sx 32 (ux 32 ((at_ e.a an : Int) - at_ e.b k)) + ofs) % (at_ e.l k : Int))

/-- CB_WRAPFIX: a bound An stands outside its buffer (R135). -/
def Eng.wraps (e : Eng) (an : Nat) : Nat :=
  match e.bind.getD an none with
  | none => 0
  | some k => if (0 : Int) ≤ sx 32 (ux 32 ((at_ e.a an : Int) - at_ e.b k)) ∧ sx 32 (ux 32 ((at_ e.a an : Int) - at_ e.b k)) < (at_ e.l k : Int) then 0 else fWrap

/-- An is unbound, or bound to a descriptor that has a length (R135). -/
def Eng.usable (e : Eng) (an : Nat) : Prop := ∀ k, e.bind.getD an none = some k → 0 < at_ e.l k

/-- The engine may read `size` bytes at data address `a` (R116, R117): aligned, in data memory, and in the areas of its assigned slots. -/
def Eng.mayRead (e : Eng) (size a : Nat) : Prop :=
  a % size = 0 ∧ a < 0x20000 ∧ (a < 0x1000 → a % 0x100 < 0x98 → bits a 8 4 < e.axes.length)

/-- The engine may write `size` bytes at data address `a` (R116, R117, R120): where it may read, and behind the mirror window of its assigned slots. -/
def Eng.mayWrite (e : Eng) (size a : Nat) : Prop :=
  e.mayRead size a ∨ (a % size = 0 ∧ 0x20000 ≤ a ∧ a < 0x21000 ∧ bits a 8 4 < e.axes.length)

/-- The engine after `i` uses of An with post-modification (R137). -/
def Eng.walk (e : Eng) (an : Nat) : Nat → Eng
  | 0 => e
  | i + 1 => (e.walk an i).setA an ((e.walk an i).ea an (e.mOf an))

/-- The value, the index and the flags of a search (R137): the quiet NaN and 0xFFFF where no element is a number. -/
def vecResult (r : Option (Nat × Nat) × Nat) : Nat × Nat × Nat :=
  match r with
  | (some (v, i), fx) => (v, i, fx)
  | (none, fx) => (0x7FC00000, 0xFFFF, fx)

/-- Memory has its canonical form. -/
def State.memOk (s : State) : Prop := Memory.wf s.mem = true

end Sys2Proof.Machine
end

