-- ==== Sys2Proof/Certificates/Slice0/Obligations.lean ====
section
/-! DEFINITION. The statements for the provers. -/
open Sys2Proof Sys2Proof.Machine

/-- For every command and state, a step of the state with that command at the front of its queue is exec of the command on the state with the queue's rest. -/
def Obligations.FrontCommandRuns : Prop :=
  ∀ (c : Instr) (s : State) (r : List Instr), s.pending = c :: r → step s = exec c { s with pending := r }

/-- The model's choice (log entry 3): with an empty queue, TIM's domain powered and out of reset and no mux waiting on its tree, a step answers a state whose device time, with its fraction of 2^-32 ns, has grown by 4 ns plus ADJ times 2^-32 ns as R338 gives it, where that stays within 64 bits; every other part of the state but the last answer and emissions is unchanged. -/
def Obligations.IdleStepIsOneTimerCycle : Prop :=
  ∀ s : State, s.pending = [] → s.domUp 2 = true → s.dev ≠ .reset → s.pwr.muxFast = false →
    0 ≤ (s.now : Int) * 2 ^ 32 + s.tim.frac + 4 * 2 ^ 32 + sx 32 (s.get R.TIM_ADJ_ADJ) →
    (s.now : Int) * 2 ^ 32 + s.tim.frac + 4 * 2 ^ 32 + sx 32 (s.get R.TIM_ADJ_ADJ) < 2 ^ 96 →
    ∃ t, step s = .next t ∧
      (t.now : Int) * 2 ^ 32 + t.tim.frac = (s.now : Int) * 2 ^ 32 + s.tim.frac + 4 * 2 ^ 32 + sx 32 (s.get R.TIM_ADJ_ADJ) ∧
      t = { s with now := t.now, tim := { s.tim with frac := t.tim.frac }, bus := t.bus, outs := t.outs }

/-- In every state, every command of the table answers a next state, neither a fault nor a refusal, and the commands that wait are the same afterwards: no event of one command puts another into the queue or takes one out. -/
def Obligations.EveryCommandCompletesAndKeepsTheQueue : Prop :=
  ∀ (c : Instr) (s : State), ∃ t, exec c s = .next t ∧ t.pending = s.pending

/-- Invariant of every step: the TAP's data register and its hold on the pins are what its instruction register and RESET_n make them, so that EXTEST, HIGHZ and CLAMP act on the pins only while RESET_n is held low and as BYPASS otherwise. From every state that has it, over every command and the idle step, the next state has it. -/
def Obligations.BoundaryScanOnlyWhileResetIsLow : Prop :=
  ∀ s t : State, s.tapOk → step s = .next t → t.tapOk ∧ (t.jtag.scan ≠ .none → t.rstLow = true)

/-- The state after reset has the invariant of boundary scan, and its memory has its canonical form. -/
def Obligations.ResetMeetsTheInvariants : Prop :=
  State.reset.tapOk ∧ State.reset.memOk

/-- After reset every register field reads its reset value of the register tables (R15), no command waits, every loop engine is HALTED, every axis is DISABLED, every thread is DORMANT, no core but AC0 runs once PD2 is powered, no long accumulator holds anything but 0 in state NORMAL, and the TAP has IDCODE selected. The values that the spec leaves open (log entry 1) are no part of this statement. -/
def Obligations.ResetLeavesTheResetValues : Prop :=
  (∀ f : Fld, State.reset.get f = f.rst) ∧ State.reset.pending = [] ∧
  (∀ n, (State.reset.eng n).st = .halted ∧ ∀ l ∈ (State.reset.eng n).lacc, l = Lacc.zero) ∧
  (∀ a, (State.reset.ax a).st = .disabled) ∧ (∀ t, (State.reset.thr t).st = .dormant) ∧
  (∀ n, n < 4 → n ≠ 0 → State.reset.coreRuns n = false) ∧ State.reset.jtag.sel = .idcode

/-- For every loop-engine instruction, with every operand at every value that R142 to R146 admit, the word of the instruction decodes, on its engine, to the instruction with the same operands; the word is legal. -/
def Obligations.LoopEngineDecodeOfEncode : Prop :=
  ∀ (i : Instr) (w : Word), leEncode i = some w → leOk i = true → leLegal w.toNat = true ∧ ∃ n, leDecode n w = i

/-- A word decodes to the illegal-instruction command exactly where R142 to R146 make it illegal. A legal word is the word of the instruction it decodes to, whose operands R142 to R146 allow; fields that an opcode gives no meaning and that R142 and R143 do not require to be 0 (B of CVTIF, CVTLF, CVTFL and FINITE; Q, S and T of LRD and LRDQ; D[4:2] of LLD; D or A of a SYS function that does not name it) must be 0 for that. -/
def Obligations.LoopEngineEncodeOfDecode : Prop :=
  ∀ (n : Fin 12) (w : Word),
    (leLegal w.toNat = false ↔ leDecode n w = .illegalInstruction n w) ∧
    (leLegal w.toNat = true → leOk (leDecode n w) = true ∧
      ((0x1A ≤ bits w.toNat 26 6 ∧ bits w.toNat 26 6 ≤ 0x1D → bits w.toNat 11 5 = 0) →
        (bits w.toNat 26 6 = 0x26 ∨ bits w.toNat 26 6 = 0x27 → bits w.toNat 4 15 = 0) → (bits w.toNat 26 6 = 0x29 → bits w.toNat 23 3 = 0) →
        (bits w.toNat 26 6 = 0x3F → (bits w.toNat 0 16 ∈ [0, 1, 2, 4] → bits w.toNat 21 5 = 0) ∧ (bits w.toNat 0 16 ∈ [0, 2, 3, 5, 6] → bits w.toNat 16 5 = 0)) →
        leEncode (leDecode n w) = some w))

/-- The example word of R146, 0x8CC3_B2A0, is LMAC2 LACC0, V24, V14, V25, V10; words written out bit by bit from the format table decode to their instructions: ADD V1, V2, V3 is 0x0422_1800; ADDI V5, V6, -1 is 0x24A6_FFFF; LDW V7 through A3 with post-modification and offset -4 is 0xC0EC_7FFC; BR with condition 5 on V9 by -2 words is 0xF153_FFFE; SYS RDCYC into V4 is 0xFC80_0005; and an opcode that the table does not have is illegal. -/
def Obligations.LoopEngineWordsOfTheSpec : Prop :=
  ∀ n : Fin 12,
    leDecode n 0x8CC3B2A0#32 = .leLmac2 n 0 24 14 25 10 ∧
    leDecode n 0x04221800#32 = .leAdd n 1 2 3 ∧
    leDecode n 0x24A6FFFF#32 = .leAddi n 5 6 0xFFFF#16 ∧
    leDecode n 0xC0EC7FFC#32 = .leLdw n 7 3 true 0x3FFC#14 ∧
    leDecode n 0xF153FFFE#32 = .leBr n 5 9 0x1FFFE#17 ∧
    leDecode n 0xFC800005#32 = .leRdcyc n 4 ∧
    leDecode n 0x78000000#32 = .illegalInstruction n 0x78000000#32

/-- On an engine that executes, NOP changes nothing; ADD, SUB, AND, OR, XOR, SLL, SRL, SRA, ADDI, LUI, ORI and SLT write register D with the result that R143 gives, cut to 32 bits, in one cycle after the wait for their operands and without a flag. V0 is written like any other register. ADD64, SUB64 and SLT64 on even registers write the 64-bit sum or difference of the pairs into the pair, or 1 or 0 for a signed comparison; CVTLF and CVTFL convert from and to a pair. An odd register where a pair must stand puts the engine in ERROR with code 1. The engine goes to the next word; every byte of memory, every other engine and everything else outside the engine is unchanged. -/
def Obligations.LoopEngineIntegerInstructions : Prop :=
  ∀ (s : State) (n : Fin 12) (d a b : Fin 32) (imm : BitVec 16), LeRuns s n →
    let e := s.eng n
    let x := e.vr a
    let y := e.vr b
    LeDone (.leNop n) s n e 0 1 [] ∧
    LeDone (.leAdd n d a b) s n (e.setV d (x + y)) 0 1 [] ∧
    LeDone (.leSub n d a b) s n (e.setV d (ux 32 ((x : Int) - y))) 0 1 [] ∧
    LeDone (.leAnd n d a b) s n (e.setV d (x &&& y)) 0 1 [] ∧
    LeDone (.leOr n d a b) s n (e.setV d (x ||| y)) 0 1 [] ∧
    LeDone (.leXor n d a b) s n (e.setV d (x ^^^ y)) 0 1 [] ∧
    LeDone (.leSll n d a b) s n (e.setV d (x * 2 ^ (y % 32))) 0 1 [] ∧
    LeDone (.leSrl n d a b) s n (e.setV d (x / 2 ^ (y % 32))) 0 1 [] ∧
    LeDone (.leSra n d a b) s n (e.setV d (ux 32 (sx 32 x / (2 : Int) ^ (y % 32)))) 0 1 [] ∧
    LeDone (.leAddi n d a imm) s n (e.setV d (ux 32 ((x : Int) + imm.toInt))) 0 1 [] ∧
    LeDone (.leLui n d imm) s n (e.setV d (imm.toNat * 2 ^ 16)) 0 1 [] ∧
    LeDone (.leOri n d a imm) s n (e.setV d (x ||| imm.toNat)) 0 1 [] ∧
    LeDone (.leSlt n d a b) s n (e.setV d (if sx 32 x < sx 32 y then 1 else 0)) 0 1 [] ∧
    (odd d = false → odd a = false → odd b = false →
      LeDone (.leAdd64 n d a b) s n (e.setPair d ((e.pair a + e.pair b) % 2 ^ 64)) 0 1 [] ∧
      LeDone (.leSub64 n d a b) s n (e.setPair d (ux 64 ((e.pair a : Int) - e.pair b) % 2 ^ 64)) 0 1 []) ∧
    (odd a = false → odd b = false →
      LeDone (.leSlt64 n d a b) s n (e.setV d (if sx 64 (e.pair a) < sx 64 (e.pair b) then 1 else 0)) 0 1 []) ∧
    (odd a = false → LeDone (.leCvtlf n d a) s n (e.setV d (f32OfInt (sx 64 (e.pair a)))) 0 1 []) ∧
    (odd d = false → LeDone (.leCvtfl n d a) s n (e.setPair d (ux 64 (leToInt 64 (e.vr a)).1)) (leToInt 64 (e.vr a)).2 1 []) ∧
    (odd d = true ∨ odd a = true ∨ odd b = true → LeFails (.leAdd64 n d a b) s n 1 ∧ LeFails (.leSub64 n d a b) s n 1) ∧
    (odd a = true ∨ odd b = true → LeFails (.leSlt64 n d a b) s n 1) ∧
    (odd a = true → LeFails (.leCvtlf n d a) s n 1) ∧ (odd d = true → LeFails (.leCvtfl n d a) s n 1)

/-- On an engine that executes, FADD, FSUB, FMUL, FDIV, FMIN, FMAX, FABS, FNEG, FCLT, FCLAMP, CVTIF and FINITE write register D with the result of R127 for the operands as the engine reads them and raise the flags of that result in SF and FLAGS; FDIV occupies 14 cycles, the others one, each after the wait for its operands (R143). Nothing else changes. -/
def Obligations.LoopEngineFloatInstructions : Prop :=
  ∀ (s : State) (n : Fin 12) (d a b c : Fin 32), LeRuns s n →
    let e := s.eng n
    let x := e.vr a
    let y := e.vr b
    LeDone (.leFadd n d a b) s n (e.setV d (leAdd x y).1) (leAdd x y).2 1 [] ∧
    LeDone (.leFsub n d a b) s n (e.setV d (leSub x y).1) (leSub x y).2 1 [] ∧
    LeDone (.leFmul n d a b) s n (e.setV d (leMul x y).1) (leMul x y).2 1 [] ∧
    LeDone (.leFdiv n d a b) s n (e.setV d (leDiv x y).1) (leDiv x y).2 14 [] ∧
    LeDone (.leFmin n d a b) s n (e.setV d (leMin x y).1) (leMin x y).2 1 [] ∧
    LeDone (.leFmax n d a b) s n (e.setV d (leMax x y).1) (leMax x y).2 1 [] ∧
    LeDone (.leFabs n d a) s n (e.setV d (leAbs x)) 0 1 [] ∧
    LeDone (.leFneg n d a) s n (e.setV d (leNeg x)) 0 1 [] ∧
    LeDone (.leFclt n d a b) s n (e.setV d (leClt x y).1) (leClt x y).2 1 [] ∧
    LeDone (.leFclamp n d a b c) s n (e.setV d (leClamp x y (e.vr c)).1) (leClamp x y (e.vr c)).2 1 [] ∧
    LeDone (.leCvtif n d a) s n (e.setV d (f32OfInt (sx 32 x))) 0 1 [] ∧
    LeDone (.leFinite n d a) s n (e.setV d (leFinite x)) 0 1 []

/-- For all operand patterns: a NaN among the operands of FADD, FSUB, FMUL or FDIV gives the quiet NaN 0x7FC0_0000; FMIN and FMAX return the other operand, as read, when exactly one is NaN, and order -0 below +0; FCLT answers 0 where either is NaN; FCLAMP gives the quiet NaN for a NaN input; a subnormal operand is read as a zero of its sign, and no result of FADD, FSUB, FMUL or FDIV is subnormal; a finite non-zero value divided by a zero raises FDIVZ; CVTFL of a NaN gives 0 and sets FINV. -/
def Obligations.LoopEngineFloatRules : Prop :=
  ∀ x y z : Nat, x < 2 ^ 32 → y < 2 ^ 32 → z < 2 ^ 32 →
    (f32NaN x = true ∨ f32NaN y = true →
      (leAdd x y).1 = 0x7FC00000 ∧ (leSub x y).1 = 0x7FC00000 ∧ (leMul x y).1 = 0x7FC00000 ∧ (leDiv x y).1 = 0x7FC00000 ∧ (leClt x y).1 = 0) ∧
    (f32NaN x = true → f32NaN y = false → (leMin x y).1 = leIn y ∧ (leMax x y).1 = leIn y ∧ (leMin y x).1 = leIn y ∧ (leMax y x).1 = leIn y) ∧
    ((leMin 0 0x80000000).1 = 0x80000000 ∧ (leMin 0x80000000 0).1 = 0x80000000 ∧ (leMax 0 0x80000000).1 = 0 ∧ (leMax 0x80000000 0).1 = 0) ∧
    (f32NaN x = true → (leClamp x y z).1 = 0x7FC00000 ∧ (leToInt 64 x).1 = 0 ∧ (leToInt 64 x).2 = fInv) ∧
    (f32Exp x = 0 → leIn x = sgn32 (f32Neg x)) ∧
    (∀ r ∈ [(leAdd x y).1, (leSub x y).1, (leMul x y).1, (leDiv x y).1], f32Exp r = 0 → f32Frac r = 0) ∧
    (f32Exp x ≠ 0 → f32Fin x = true → f32Exp y = 0 → (leDiv x y).2 = fDivz)

/-- On an engine that executes, LCLR leaves 0 in state NORMAL; LMAC, LMSU, LMAC2 and LADD leave what R129 and R130 give for the operands and raise GOV or PROD_RANGE accordingly; LRD and LRDQ write the readout of R131 to a register or a pair, and LRDQ into an odd register is an illegal instruction; LDOT on two address registers leaves the accumulator with the products of the two vectors added in order, the address registers as their uses leave them, in N/2, rounded up, plus 4 cycles. LDOT naming one address register twice is an illegal instruction. Nothing else changes. -/
def Obligations.LoopEngineAccumulatorInstructions : Prop :=
  ∀ (s : State) (n : Fin 12) (i : Fin 4) (p q u v : Fin 32) (x y : Fin 8), LeRuns s n →
    let e := s.eng n
    let l := e.acc i
    LeDone (.leLclr n i) s n (e.setAcc i ⟨0, .normal⟩) 0 1 [] ∧
    LeDone (.leLmac n i p q) s n (e.setAcc i (l.mac false (e.vr p) (e.vr q)).1) (l.mac false (e.vr p) (e.vr q)).2 1 [] ∧
    LeDone (.leLmsu n i p q) s n (e.setAcc i (l.mac true (e.vr p) (e.vr q)).1) (l.mac true (e.vr p) (e.vr q)).2 1 [] ∧
    LeDone (.leLmac2 n i p q u v) s n (e.setAcc i (l.mac2 (e.vr p) (e.vr q) (e.vr u) (e.vr v)).1) (l.mac2 (e.vr p) (e.vr q) (e.vr u) (e.vr v)).2 1 [] ∧
    LeDone (.leLadd n i p) s n (e.setAcc i (l.mac false (e.vr p) 0x3F800000).1) (l.mac false (e.vr p) 0x3F800000).2 1 [] ∧
    LeDone (.leLrd n i p) s n (e.setV p l.toF32) 0 1 [] ∧
    (odd p = false → LeDone (.leLrdq n i p) s n (e.setPair p (ux 64 l.toI64.1)) l.toI64.2 1 []) ∧
    (odd p = true → LeFails (.leLrdq n i p) s n 1) ∧
    (∀ xs ys e1 e2 f1 f2, x ≠ y → leVec s n x (e.vr p % 2 ^ 16) e 0 = .ok (xs, e1, f1) → leVec s n y (e.vr p % 2 ^ 16) e1 f1 = .ok (ys, e2, f2) →
      LeDone (.leLdot n i x y p) s n (e2.setAcc i ((e2.acc i).dot xs ys 0).1) (f2 ||| ((e2.acc i).dot xs ys 0).2) ((e.vr p % 2 ^ 16 + 1) / 2 + 4) []) ∧
    LeFails (.leLdot n i x x p) s n 1

/-- R131 whole. LRD: state NORMAL gives the value N times 2^-96 rounded to nearest even, which is finite and is zero only for N = 0 and else has an exponent field from 1 to 254; SAT_POS gives +Inf, SAT_NEG -Inf and NAN 0x7FC0_0000. LRDQ: the value rounded to nearest even in the 64-bit range; saturated and out-of-range values give the extreme of their sign and NAN 0, and exactly these raise FINV. -/
def Obligations.LongAccumulatorReadout : Prop :=
  ∀ l : Lacc, -(2 ^ 175 : Int) ≤ l.n → l.n < 2 ^ 175 →
    (l.st = .normal → l.toF32 = f32OfRat ((l.n : Rat) / 2 ^ 96) ∧ f32Fin l.toF32 = true ∧ (l.n = 0 → l.toF32 = 0) ∧ (l.n ≠ 0 → f32Exp l.toF32 ≠ 0)) ∧
    (l.st = .satPos → l.toF32 = 0x7F800000 ∧ l.toI64 = (2 ^ 63 - 1, fInv)) ∧
    (l.st = .satNeg → l.toF32 = 0xFF800000 ∧ l.toI64 = (-(2 ^ 63), fInv)) ∧
    (l.st = .nan → l.toF32 = 0x7FC00000 ∧ l.toI64 = (0, fInv)) ∧
    (l.st = .normal →
      (rne ((l.n : Rat) / 2 ^ 96) < -(2 ^ 63) → l.toI64 = (-(2 ^ 63), fInv)) ∧
      (2 ^ 63 - 1 < rne ((l.n : Rat) / 2 ^ 96) → l.toI64 = (2 ^ 63 - 1, fInv)) ∧
      (-(2 ^ 63) ≤ rne ((l.n : Rat) / 2 ^ 96) → rne ((l.n : Rat) / 2 ^ 96) ≤ 2 ^ 63 - 1 → l.toI64 = (rne ((l.n : Rat) / 2 ^ 96), 0)))

/-- For every accumulator in range, the 24-byte image holds N in two's complement in bytes 0 to 21, the state in byte 22 and 0 in byte 23, and reading the image back gives the accumulator; a byte 22 above 3 reads as state NAN. -/
def Obligations.LongAccumulatorImage : Prop :=
  (∀ l : Lacc, -(2 ^ 175 : Int) ≤ l.n → l.n < 2 ^ 175 →
    sx 176 (l.image % 2 ^ 176) = l.n ∧ l.image / 2 ^ 176 % 2 ^ 8 = (match l.st with | .normal => 0 | .satPos => 1 | .satNeg => 2 | .nan => 3) ∧
    l.image / 2 ^ 184 = 0 ∧ Lacc.ofImage l.image = l) ∧
  (∀ v : Nat, 3 < v / 2 ^ 176 % 2 ^ 8 → (Lacc.ofImage v).st = .nan)

/-- Where the use of An gives an effective address that the engine may access and whose word is not poisoned: LDW and LDD write the register or pair with the little-endian value there, STW and STD store the register or pair at exactly that address, behind the mirror window into the axis block of the slot's axis, LST stores the 24-byte image at its three doublewords and LLD reads it; An is left as the use leaves it, CB_WRAPFIX is raised where the use reduced it, and every byte not stored to reads as before. LDD and STD of an odd register are illegal instructions; an address that is not a multiple of 4 (LDW, STW) or 8 is error 4. In particular, through an An that is unbound or bound to a descriptor that has a length, each of the six completes for every state and operands whose effective addresses, as R134 and R135 give them, are aligned, lie in data memory outside the areas of unassigned slots (a store also behind the mirror window of an assigned slot) and, for a load, hold no poisoned word. -/
def Obligations.LoopEngineMemoryInstructions : Prop :=
  (∀ (s : State) (n : Fin 12) (d : Fin 32) (i : Fin 4) (an : Fin 8) (pm : Bool) (ofs : BitVec 14) (ea a' fx : Nat), LeRuns s n →
    let e := s.eng n
    e.use an ofs.toInt (if pm then e.mOf an else 0) = some (ea, a', fx) →
    (e.check false 4 4 ea = none → s.poisoned (leData n + ea) 4 = false →
      LeDone (.leLdw n d an pm ofs) s n ((e.setA an a').setV d (s.load (leData n + ea) 4)) fx 1 []) ∧
    (e.check true 4 4 ea = none → LeDone (.leStw n d an pm ofs) s n (e.setA an a') fx 1 (cells (Eng.mapAddr n e ea) (e.vr d) 4)) ∧
    (odd d = false → e.check false 8 8 ea = none → s.poisoned (leData n + ea) 8 = false →
      LeDone (.leLdd n d an pm ofs) s n ((e.setA an a').setPair d (s.load (leData n + ea) 8)) fx 1 []) ∧
    (odd d = false → e.check true 8 8 ea = none → LeDone (.leStd n d an pm ofs) s n (e.setA an a') fx 1 (cells (Eng.mapAddr n e ea) (e.pair d) 8)) ∧
    (odd d = true → LeFails (.leLdd n d an pm ofs) s n 1 ∧ LeFails (.leStd n d an pm ofs) s n 1) ∧
    (ea % 4 ≠ 0 → LeFails (.leLdw n d an pm ofs) s n 4 ∧ LeFails (.leStw n d an pm ofs) s n 4) ∧
    (∀ as a2 f2, e.image true an pm ofs.toInt = .ok (as, a2, f2) →
      LeDone (.leLst n i an pm ofs) s n (e.setA an a2) f2 3
        (cells (Eng.mapAddr n e (at_ as 0)) (e.acc i).image 8 ++ cells (Eng.mapAddr n e (at_ as 1)) ((e.acc i).image / 2 ^ 64) 8 ++
          cells (Eng.mapAddr n e (at_ as 2)) ((e.acc i).image / 2 ^ 128) 8)) ∧
    (∀ as a2 f2, e.image false an pm ofs.toInt = .ok (as, a2, f2) → (∀ a ∈ as, s.poisoned (leData n + a) 8 = false) →
      LeDone (.leLld n i an pm ofs) s n
        ((e.setA an a2).setAcc i (Lacc.ofImage (s.load (leData n + at_ as 0) 8 + s.load (leData n + at_ as 1) 8 * 2 ^ 64 + s.load (leData n + at_ as 2) 8 * 2 ^ 128))) f2 3 [])) ∧
  (∀ (s : State) (n : Fin 12) (d : Fin 32) (i : Fin 4) (an : Fin 8) (pm : Bool) (ofs : BitVec 14), LeRuns s n → (s.eng n).usable an →
    let e := s.eng n
    let ea := e.ea an ofs.toInt
    let ea1 := e.ea an (ofs.toInt + 8)
    let ea2 := e.ea an (ofs.toInt + 16)
    let e1 := e.setA an (e.ea an (if pm then e.mOf an else 0))
    (e.mayRead 4 ea → s.poisoned (leData n + ea) 4 = false → LeDone (.leLdw n d an pm ofs) s n (e1.setV d (s.load (leData n + ea) 4)) (e.wraps an) 1 []) ∧
    (e.mayWrite 4 ea → LeDone (.leStw n d an pm ofs) s n e1 (e.wraps an) 1 (cells (Eng.mapAddr n e ea) (e.vr d) 4)) ∧
    (odd d = false → e.mayRead 8 ea → s.poisoned (leData n + ea) 8 = false → LeDone (.leLdd n d an pm ofs) s n (e1.setPair d (s.load (leData n + ea) 8)) (e.wraps an) 1 []) ∧
    (odd d = false → e.mayWrite 8 ea → LeDone (.leStd n d an pm ofs) s n e1 (e.wraps an) 1 (cells (Eng.mapAddr n e ea) (e.pair d) 8)) ∧
    (e.mayWrite 8 ea → e.mayWrite 8 ea1 → e.mayWrite 8 ea2 →
      LeDone (.leLst n i an pm ofs) s n e1 (e.wraps an) 3
        (cells (Eng.mapAddr n e ea) (e.acc i).image 8 ++ cells (Eng.mapAddr n e ea1) ((e.acc i).image / 2 ^ 64) 8 ++ cells (Eng.mapAddr n e ea2) ((e.acc i).image / 2 ^ 128) 8)) ∧
    (e.mayRead 8 ea → e.mayRead 8 ea1 → e.mayRead 8 ea2 →
      s.poisoned (leData n + ea) 8 = false → s.poisoned (leData n + ea1) 8 = false → s.poisoned (leData n + ea2) 8 = false →
      LeDone (.leLld n i an pm ofs) s n
        (e1.setAcc i (Lacc.ofImage (s.load (leData n + ea) 8 + s.load (leData n + ea1) 8 * 2 ^ 64 + s.load (leData n + ea2) 8 * 2 ^ 128))) (e.wraps an) 3 []))

/-- For an unbound An the effective address is An plus the offset and the new An is An plus the post-modification, modulo 2^32, without a flag. For An bound to a descriptor of length 0 the use has no address. For An bound to a descriptor of base B and length L whose buffer lies below 2^31, the effective address and the new An lie in the buffer: each is B plus a remainder modulo L of the offset taken from the reduced An; CB_WRAPFIX is raised exactly where An stood outside the buffer. -/
def Obligations.AddressRegisterUse : Prop :=
  ∀ (e : Eng) (n : Nat) (ofs post : Int), at_ e.a n < 2 ^ 32 →
    (e.bind.getD n none = none → e.use n ofs post = some (ux 32 (at_ e.a n + ofs), ux 32 (at_ e.a n + post), 0)) ∧
    (∀ k, e.bind.getD n none = some k → at_ e.l k = 0 → e.use n ofs post = none) ∧
    (∀ k, e.bind.getD n none = some k → 0 < at_ e.l k → at_ e.b k + at_ e.l k ≤ 2 ^ 31 →
      ∃ r fx : Nat, r < at_ e.l k ∧
        e.use n ofs post = some (at_ e.b k + (((r : Int) + ofs) % (at_ e.l k : Int)).toNat, at_ e.b k + (((r : Int) + post) % (at_ e.l k : Int)).toNat, fx) ∧
        (at_ e.b k ≤ at_ e.a n → at_ e.a n < at_ e.b k + at_ e.l k → r = at_ e.a n - at_ e.b k ∧ fx = 0) ∧
        (at_ e.a n < at_ e.b k ∨ at_ e.b k + at_ e.l k ≤ at_ e.a n → fx = fWrap))

/-- MVTA writes an address, offset, base or length register, B and L as multiples of 8 and L at most 0x2_0000; MVFA reads one as stored; ADDA leaves An as a use with the immediate as post-modification leaves it; CBIND binds An to a descriptor or unbinds it. ADDA through a bound register of length 0 is error 3. Nothing else changes. -/
def Obligations.LoopEngineAddressRegisters : Prop :=
  ∀ (s : State) (n : Fin 12) (i k : Fin 8) (v : Fin 32) (en : Bool) (imm : BitVec 16), LeRuns s n →
    let e := s.eng n
    LeDone (.leMvta n 0 i v) s n { e with a := e.a.set i (e.vr v) } 0 1 [] ∧
    LeDone (.leMvta n 1 i v) s n { e with m := e.m.set i (e.vr v) } 0 1 [] ∧
    LeDone (.leMvta n 2 i v) s n { e with b := e.b.set i (e.vr v / 8 * 8) } 0 1 [] ∧
    LeDone (.leMvta n 3 i v) s n { e with l := e.l.set i (min (e.vr v) 0x20000 / 8 * 8) } 0 1 [] ∧
    LeDone (.leMvfa n 0 i v) s n (e.setV v (at_ e.a i)) 0 1 [] ∧ LeDone (.leMvfa n 1 i v) s n (e.setV v (at_ e.m i)) 0 1 [] ∧
    LeDone (.leMvfa n 2 i v) s n (e.setV v (at_ e.b i)) 0 1 [] ∧ LeDone (.leMvfa n 3 i v) s n (e.setV v (at_ e.l i)) 0 1 [] ∧
    (∀ ea a' fx, e.use i 0 imm.toInt = some (ea, a', fx) → LeDone (.leAdda n i imm) s n (e.setA i a') fx 1 []) ∧
    (e.use i 0 imm.toInt = none → LeFails (.leAdda n i imm) s n 3) ∧
    LeDone (.leCbind n i en k) s n { e with bind := e.bind.set i (if en then some k.val else none) } 0 1 []

/-- Where the uses of An may read their elements, VMAX and VMIN write the extreme element to D and its index to the register after D, NaN elements being skipped and raising NAN_SEEN; an empty vector or one of NaNs gives 0x7FC0_0000 with index 0xFFFF, and an empty one raises nothing; An stands as N post-modifications leave it; the search occupies N + 4 cycles. Both complete for every state, every even D, every An that is unbound or bound to a descriptor that has a length, and every N, where each of the N uses of An reads an aligned word of data memory outside the areas of unassigned slots that is not poisoned. An odd D is an illegal instruction. The example of R137 (3.0, NaN, 7.5, -1.0, 7.5) gives 7.5 at index 2 for VMAX and -1.0 at index 3 for VMIN, with NAN_SEEN. -/
def Obligations.LoopEngineVectorSearch : Prop :=
  (∀ (s : State) (n : Fin 12) (d c : Fin 32) (an : Fin 8) (xs : List Nat) (e1 : Eng) (f1 : Nat), LeRuns s n → odd d = false →
    leVec s n an ((s.eng n).vr c % 2 ^ 16) (s.eng n) 0 = .ok (xs, e1, f1) →
    (∀ v i fx, vecBest (fun x y => f32Lt y x) xs 0 none 0 = (some (v, i), fx) →
      LeDone (.leVmax n d an c) s n ((e1.setV d v).setV (d + 1 : Nat) i) (f1 ||| fx) ((s.eng n).vr c % 2 ^ 16 + 4) []) ∧
    (∀ v i fx, vecBest f32Lt xs 0 none 0 = (some (v, i), fx) →
      LeDone (.leVmin n d an c) s n ((e1.setV d v).setV (d + 1 : Nat) i) (f1 ||| fx) ((s.eng n).vr c % 2 ^ 16 + 4) []) ∧
    (∀ fx, vecBest f32Lt xs 0 none 0 = (none, fx) → LeDone (.leVmin n d an c) s n ((e1.setV d 0x7FC00000).setV (d + 1 : Nat) 0xFFFF) (f1 ||| fx) ((s.eng n).vr c % 2 ^ 16 + 4) [])) ∧
  (∀ (s : State) (n : Fin 12) (d c : Fin 32) (an : Fin 8), LeRuns s n → odd d = false → (s.eng n).usable an →
    let e := s.eng n
    let k := e.vr c % 2 ^ 16
    (∀ i < k, e.mayRead 4 ((e.walk an i).ea an 0) ∧ s.poisoned (leData n + (e.walk an i).ea an 0) 4 = false) →
    let xs := (List.range k).map (fun i => s.load (leData n + (e.walk an i).ea an 0) 4)
    let fx := (List.range k).foldl (fun f i => f ||| (e.walk an i).wraps an) 0
    let hi := vecResult (vecBest (fun x y => f32Lt y x) xs 0 none 0)
    let lo := vecResult (vecBest f32Lt xs 0 none 0)
    LeDone (.leVmax n d an c) s n (((e.walk an k).setV d hi.1).setV (d + 1 : Nat) hi.2.1) (fx ||| hi.2.2) (k + 4) [] ∧
    LeDone (.leVmin n d an c) s n (((e.walk an k).setV d lo.1).setV (d + 1 : Nat) lo.2.1) (fx ||| lo.2.2) (k + 4) []) ∧
  (∀ (s : State) (n : Fin 12) (d c : Fin 32) (an : Fin 8), LeRuns s n → odd d = true → LeFails (.leVmax n d an c) s n 1 ∧ LeFails (.leVmin n d an c) s n 1) ∧
  vecBest f32Lt [] 0 none 0 = (none, 0) ∧
  vecBest (fun x y => f32Lt y x) [0x40400000, 0x7FC00000, 0x40F00000, 0xBF800000, 0x40F00000] 0 none 0 = (some (0x40F00000, 2), fNan) ∧
  vecBest f32Lt [0x40400000, 0x7FC00000, 0x40F00000, 0xBF800000, 0x40F00000] 0 none 0 = (some (0xBF800000, 3), fNan)

/-- R144 whole: with COND 0 BR always branches, with 1 and 2 it branches where S is zero or not zero, with 3 and 4 where S is negative or not as a signed number; with 5 it first decrements S by 1, modulo 2^32, and branches where the result is not zero; COND 6 to 15 is an illegal instruction. A branch goes to PC + 4 times the offset in 3 cycles, one not taken to the next word in 1. Beside it: JAL writes PC + 4 to D and goes to TARGET, JR goes to the address in A. -/
def Obligations.LoopEngineBranches : Prop :=
  ∀ (s : State) (n : Fin 12) (r : Fin 32) (ofs : BitVec 17) (cond : Fin 16) (d a : Fin 32) (target : BitVec 16), LeRuns s n →
    let e := s.eng n
    let x := e.vr r
    let dest := ux 16 (e.pc + 4 * ofs.toInt)
    let e5 := e.setV r (ux 32 ((x : Int) - 1))
    LeJumps (.leBr n 0 r ofs) s n e dest 3 ∧
    (x = 0 → LeJumps (.leBr n 1 r ofs) s n e dest 3 ∧ LeDone (.leBr n 2 r ofs) s n e 0 1 []) ∧
    (x ≠ 0 → LeDone (.leBr n 1 r ofs) s n e 0 1 [] ∧ LeJumps (.leBr n 2 r ofs) s n e dest 3) ∧
    (x < 2 ^ 32 → sx 32 x < 0 → LeJumps (.leBr n 3 r ofs) s n e dest 3 ∧ LeDone (.leBr n 4 r ofs) s n e 0 1 []) ∧
    (x < 2 ^ 32 → 0 ≤ sx 32 x → LeDone (.leBr n 3 r ofs) s n e 0 1 [] ∧ LeJumps (.leBr n 4 r ofs) s n e dest 3) ∧
    (r.val < e.v.length → x = 1 → LeDone (.leBr n 5 r ofs) s n e5 0 1 []) ∧
    (r.val < e.v.length → x < 2 ^ 32 → x ≠ 1 → LeJumps (.leBr n 5 r ofs) s n e5 dest 3) ∧
    (6 ≤ cond.val → LeFails (.leBr n cond r ofs) s n 1) ∧
    LeJumps (.leJal n d target) s n (e.setV d ((e.pc + 4) % 2 ^ 16)) target.toNat 3 ∧
    LeJumps (.leJr n a) s n e (e.vr a) 3

/-- EVWAIT takes the oldest queued event, writes its word to D and makes it current; on an empty queue it sleeps at itself, every result standing by the time it wakes; with HALT_REQ standing it halts the engine and drops its queue. SYS HALT halts at once and drops the queue; DFOLD folds a register into the current event's lane; CMDC publishes the slot's staging record by value, and is error 6 where a word of it is poisoned; RDFLG reads SF; CLRF clears the selected bits of SF; RDCYC reads the cycles; RDCRS reads the course of the current event. DFOLD, CMDC and RDCRS without a current event are error 7, and an illegal word is error 1. Memory and everything outside the engine is unchanged. -/
def Obligations.LoopEngineEventsAndSystemFunctions : Prop :=
  ∀ (s : State) (n : Fin 12) (d a : Fin 32) (w : Word), LeRuns s n →
    let e := s.eng n
    (∀ v q, e.haltReq = false → e.queue = v :: q →
      LeDone (.leEvwait n d) s n { (e.setV d v.word) with queue := q, cur := some v, cyc := 0 } 0 0 []) ∧
    (e.haltReq = false → e.queue = [] → LeJumps (.leEvwait n d) s n { e with asleep := true, ready := [] } e.pc 0) ∧
    (e.haltReq = true → LeJumps (.leEvwait n d) s n { e with st := .halted, queue := [], haltReq := false } e.pc 0) ∧
    LeDone (.leHalt n) s n { e with st := .halted, queue := [], haltReq := false } 0 1 [] ∧
    (∀ v, e.cur = some v →
      LeDone (.leDfold n a) s n (e.fold v (e.vr a)) 0 1 [] ∧
      (s.poisoned (leData n + v.slot * 0x100 + 0x80) 16 = false → LeDone (.leCmdc n) s n (e.publish v (s.staging n v.slot)) 0 1 []) ∧
      (s.poisoned (leData n + v.slot * 0x100 + 0x80) 16 = true → LeFails (.leCmdc n) s n 6) ∧
      LeDone (.leRdcrs n d) s n (e.setV d (v.crs % 2 ^ 32)) 0 1 []) ∧
    (e.cur = none → LeFails (.leDfold n a) s n 7 ∧ LeFails (.leCmdc n) s n 7 ∧ LeFails (.leRdcrs n d) s n 7) ∧
    LeDone (.leRdflg n d) s n (e.setV d e.sf) 0 1 [] ∧
    LeDone (.leClrf n a) s n { e with sf := e.sf &&& (e.vr a ^^^ 0xFFFFFFFF) } 0 1 [] ∧
    LeDone (.leRdcyc n d) s n (e.setV d e.cyc) 0 1 [] ∧
    (leLegal w.toNat = false → LeFails (.illegalInstruction n w) s n 1)

/-- With the LE block reached, START moves a HALTED or ERROR engine to RUNNING at its entry with an empty queue and no error code, and leaves a RUNNING one alone; its registers keep their values. HALT_REQ halts an engine in ERROR, or asleep in EVWAIT, at once, and else stands until the next EVWAIT; a HALTED engine is left alone. -/
def Obligations.LoopEngineStartAndHalt : Prop :=
  ∀ (s : State) (n : Fin 12), s.reach (0x80090000 + 0x40 * n.val) = true →
    let e := s.eng n
    (e.st ≠ .running → Ends (.engineStart n) s (fun t =>
      t.eng n = { e with st := .running, errCode := 0, pc := s.get (R.LE_ENG_ENTRY_ENTRY n) / 4 * 4, queue := [], asleep := false, haltReq := false, ready := [] } ∧
      t = { s with engs := t.engs, mem := t.mem, tst := t.tst, bus := .done, outs := [] })) ∧
    (e.st = .running → Ends (.engineStart n) s (fun t => t = { s with bus := .done, outs := [] })) ∧
    (e.st = .halted → Ends (.engineHaltReq n) s (fun t => t = { s with bus := .done, outs := [] })) ∧
    (e.st = .error ∨ (e.st = .running ∧ e.asleep = true) → Ends (.engineHaltReq n) s (fun t =>
      t.eng n = { e with st := .halted, queue := [], asleep := false, haltReq := false, errCode := 0 } ∧ t = { s with engs := t.engs, bus := .done, outs := [] })) ∧
    (e.st = .running → e.asleep = false → Ends (.engineHaltReq n) s (fun t =>
      t.eng n = { e with haltReq := true } ∧ t = { s with engs := t.engs, bus := .done, outs := [] }))

/-- A word write by a core or the DMA engine to a register of the blocks PIM, CAP, CAS and TIM, which have no register with effects of its own, with the block clocked and powered, completes with a write answer: an RW field holds the written bits (but for a TIM_CFG.JUMP_TH outside 1 to 1000, which the model ignores, its choice of log entry 98), a W1C bit is cleared by 1 and kept by 0, a W1S bit is set by 1 and kept by 0, RO and RC fields and reserved bits ignore the write. Every other register field, all memory and everything else is unchanged. -/
def Obligations.RegisterWriteFollowsTheAccessCodes : Prop :=
  ∀ (s : State) (q : Req) (a : BitVec 32) (v : BitVec 64) (fs : List Fld), fieldsAt a.toNat = some fs → s.reach a.toNat = true → a.toNat % 4 = 0 →
    region a.toNat = some .regs → (a.toNat - 0x80000000) / 0x10000 ∈ [11, 12, 16, 17] →
    Ends (.registerWrite q a 2 v) s (fun t => t.bus = .done ∧ OnlyFlds s t fs ∧
      ∀ f ∈ fs, (f.acc = .rw → t.get f = if a.toNat = 0x80110018 ∧ f.lo = 8 ∧ (bits v.toNat 8 10 = 0 ∨ 1000 < bits v.toNat 8 10) then s.get f else bits v.toNat f.lo f.w) ∧
        (f.acc = .ro ∨ f.acc = .rc → t.get f = s.get f) ∧
        (f.acc = .w1c → ∀ i, i < f.w → bit (t.get f) i = (bit (s.get f) i && !bit v.toNat (f.lo + i))) ∧
        (f.acc = .w1s → ∀ i, i < f.w → bit (t.get f) i = (bit (s.get f) i || bit v.toNat (f.lo + i))))

/-- An access outside every range of the address map, a narrower or unaligned access to a register block that is clocked and powered, an access to a hole of such a block, a write to the boot ROM, the journal or the capture memory with its domain powered, and a write that is not naturally aligned to a powered memory, return a bus error to the requester and change no state. An access to a register block whose clock is gated or whose domain is powered down, at any offset and of any size, and an access to a memory whose domain is powered down, answers zero for a read and a plain answer for a write, without a bus error; it counts in GATED_ACC_CNT, which saturates, leaves its address in CLK_GATED_ADDR, and changes nothing else. -/
def Obligations.AccessesThatReachNothing : Prop :=
  ∀ (s : State) (q : Req) (a : BitVec 32) (size : Fin 4) (v : BitVec 64),
    (region a.toNat = none ∨
      (region a.toNat = some .regs ∧ s.reach a.toNat = true ∧ (size ≠ 2 ∨ a.toNat % 4 ≠ 0 ∨ fieldsAt a.toNat = none)) ∨
      ((region a.toNat = some .rom ∨ region a.toNat = some .jnl ∨ region a.toNat = some .cap) ∧ s.domUp (memDom a.toNat) = true) ∨
      ((∃ r, region a.toNat = some r ∧ r ≠ .regs) ∧ s.domUp (memDom a.toNat) = true ∧ a.toNat % 2 ^ size.val ≠ 0) →
      Ends (.registerWrite q a size v) s (fun t => t.bus = .error ∧ Unchanged s t)) ∧
    (region a.toNat = none ∨ (region a.toNat = some .regs ∧ s.reach a.toNat = true ∧ (a.toNat % 4 ≠ 0 ∨ fieldsAt a.toNat = none)) →
      Ends (.counterReadClear q a) s (fun t => t.bus = .error ∧ Unchanged s t)) ∧
    (((region a.toNat = some .regs ∧ s.reach a.toNat = false) ∨ ((∃ r, region a.toNat = some r ∧ r ≠ .regs) ∧ s.domUp (memDom a.toNat) = false)) →
    Ends (.registerWrite q a size v) s (fun t => t.bus = .done ∧ t.get R.GATED_ACC_CNT_COUNT = min (s.get R.GATED_ACC_CNT_COUNT + 1) (2 ^ R.GATED_ACC_CNT_COUNT.w - 1) ∧
      t.get R.CLK_GATED_ADDR_ADDR = a.toNat ∧ OnlyFlds s t [R.GATED_ACC_CNT_COUNT, R.CLK_GATED_ADDR_ADDR]) ∧
    Ends (.counterReadClear q a) s (fun t => t.bus = .data 0 ∧ t.get R.GATED_ACC_CNT_COUNT = min (s.get R.GATED_ACC_CNT_COUNT + 1) (2 ^ R.GATED_ACC_CNT_COUNT.w - 1) ∧
      t.get R.CLK_GATED_ADDR_ADDR = a.toNat ∧ OnlyFlds s t [R.GATED_ACC_CNT_COUNT, R.CLK_GATED_ADDR_ADDR]))

/-- With its block clocked and powered, a word read of a register answers the word that its fields show and leaves every RC field of it 0; a read of the low half of the course counter, a loop digest, device time, the master's identity, the cascade event's instant or a set's missed-trigger instant answers its bits [31:0] and leaves bits [63:32] in the high half's register; a read of MISS_CNT answers the count, clears it and forgets the kept instant, while STAT shows the set's state. Nothing else changes: memory, the axes and the engines are as before. -/
def Obligations.RegisterReadsClearAndLatch : Prop :=
  ∀ (s : State) (q : Req) (a : BitVec 32) (n : Fin 12) (m : Fin 8),
    (∀ fs, fieldsAt a.toNat = some fs → region a.toNat = some .regs → s.reach a.toNat = true → a.toNat % 4 = 0 →
      Ends (.counterReadClear q a) s (fun t => t.bus = .data (s.regWord fs) ∧ (∀ f ∈ fs, f.acc = .rc → t.get f = 0) ∧
        t = { s with flds := t.flds, rings := t.rings, cap := t.cap, free := t.free, bus := t.bus, outs := t.outs })) ∧
    (s.reach 0x80030008 = true → Ends (.crsCntLoRead q) s (fun t => t.bus = .data (s.crs.cnt % 2 ^ 32) ∧
      t.get R.BOND_CRS_CNT_HI_CNT_HI = s.crs.cnt / 2 ^ 32 % 2 ^ 32 ∧ OnlyFlds s t [R.BOND_CRS_CNT_HI_CNT_HI])) ∧
    (s.reach (0x80090014 + 0x40 * n.val) = true → Ends (.digLoRead q n) s (fun t => t.bus = .data ((s.eng n).dig % 2 ^ 32) ∧
      t.get (R.LE_ENG_DIG_HI_DIG_HI n) = (s.eng n).dig / 2 ^ 32 % 2 ^ 32 ∧ t.get (R.LE_ENG_DIG_CRS_DIG_CRS n) = (s.eng n).digCrs % 2 ^ 32 ∧
      OnlyFlds s t [R.LE_ENG_DIG_HI_DIG_HI n, R.LE_ENG_DIG_CRS_DIG_CRS n])) ∧
    (s.reach 0x80110000 = true → Ends (.timNowLoRead q) s (fun t => t.bus = .data (s.now % 2 ^ 32) ∧
      t.get R.TIM_NOW_HI_NOW_HI = s.now / 2 ^ 32 % 2 ^ 32 ∧ OnlyFlds s t [R.TIM_NOW_HI_NOW_HI])) ∧
    (s.reach 0x80110020 = true → Ends (.timMasterLoRead q) s (fun t => t.bus = .data (s.masterId % 2 ^ 32) ∧
      t.get R.TIM_MASTER_HI_ID_HI = s.masterId / 2 ^ 32 % 2 ^ 32 ∧ OnlyFlds s t [R.TIM_MASTER_HI_ID_HI])) ∧
    (s.reach 0x800C000C = true → Ends (.capCascTLoRead q) s (fun t => t.bus = .data (s.cap.cascT % 2 ^ 32) ∧
      t.get R.CAP_CASC_T_HI_T_HI = s.cap.cascT / 2 ^ 32 % 2 ^ 32 ∧ OnlyFlds s t [R.CAP_CASC_T_HI_T_HI])) ∧
    (s.reach (0x800C014C + 0x80 * m.val) = true → Ends (.missTLoRead q m) s (fun t => t.bus = .data (s.missT m % 2 ^ 32) ∧
      t.get (R.CAP_SET_MISS_T_HI_T_HI m) = s.missT m / 2 ^ 32 % 2 ^ 32 ∧ OnlyFlds s t [R.CAP_SET_MISS_T_HI_T_HI m])) ∧
    (s.reach (0x800C0148 + 0x80 * m.val) = true → Ends (.missCntRead q m) s (fun t => t.bus = .data (s.get (R.CAP_SET_MISS_CNT_MISSED_TRIG m) % 2 ^ 16 + s.get (R.CAP_SET_MISS_CNT_EARLY_IGN m) % 2 ^ 16 * 2 ^ 16) ∧
      t.get (R.CAP_SET_MISS_CNT_MISSED_TRIG m) = 0 ∧ t.get (R.CAP_SET_MISS_CNT_EARLY_IGN m) = 0 ∧ (t.cset m).missT = none ∧ t.get (R.CAP_SET_STAT_STATE m) = (s.cset m).st % 8 ∧
      FldsBut s t [R.CAP_SET_MISS_CNT_MISSED_TRIG m, R.CAP_SET_MISS_CNT_EARLY_IGN m, R.CAP_SET_STAT_STATE m] ∧
      (∀ j, j ≠ m.val → t.cset j = s.cset j) ∧ t = { s with flds := t.flds, cap := t.cap, bus := t.bus, outs := t.outs }))

/-- A naturally aligned write of 1, 2 or 4 bytes from a core or the DMA engine, or of 8 bytes from the DMA engine, to the powered application SRAM leaves the value there in little-endian order; every byte outside those stored reads as before, memory keeps its canonical form, and apart from reservations that the write ends and poison marks that it heals nothing else changes. -/
def Obligations.SramWritesReachExactlyTheirBytes : Prop :=
  ∀ (s : State) (q : Req) (a : BitVec 32) (size : Fin 4) (v : BitVec 64), region a.toNat = some .sram → s.domUp 2 = true →
    a.toNat % 2 ^ size.val = 0 → (size ≠ 3 ∨ q = .dma) →
    Ends (.registerWrite q a size v) s (fun t => t.bus = .done ∧ t.load a.toNat (2 ^ size.val) = v.toNat % 2 ^ (8 * 2 ^ size.val) ∧
      BytesBut s t a.toNat (2 ^ size.val) ∧ (s.memOk → t.memOk) ∧
      (∀ n : Fin 4, (t.core n).res = (s.core n).res ∨ (t.core n).res = none) ∧
      t = { s with mem := t.mem, tst := { s.tst with poison := t.tst.poison }, cores := t.cores, bus := t.bus, outs := t.outs })

/-- Each of the ten opcodes, and an opcode that is not in the table, on any port and target: the port's RESULT holds the code of the checks of R448, COURSE the course, GO reads 0, and the answers of the other ports are as before. An opcode outside 0x01 to 0x0A gives BAD_OPCODE, a target that does not exist or is of the wrong kind NO_SUCH_AXIS. -/
def Obligations.ProfileCommandsAnswerTheirPort : Prop :=
  ∀ (s : State) (n : Fin 4) (target op : BitVec 8) (g : Bool), s.reach (0x80080010 + 0x10 * n.val) = true →
    let code (k : Nat) : Nat := (s.pfApply ⟨k, target.toNat, g, s.stage g target.toNat⟩).1
    let answers (i : Instr) (k : Nat) : Prop := Ends i s (fun t => Answered s t n (code k % 2 ^ 8) ∧
      (∀ m : Fin 4, m ≠ n → t.get (R.PF_CMD_STAT_RESULT m) = s.get (R.PF_CMD_STAT_RESULT m) ∧ t.flag (R.PF_CMD_OP_GO m) = s.flag (R.PF_CMD_OP_GO m)) ∧
      t = { s with axes := t.axes, grps := t.grps, chans := t.chans, loops := t.loops, upd := t.upd, engs := t.engs, crs := t.crs, mem := t.mem, tst := t.tst, flds := t.flds, cap := t.cap, pfAns := t.pfAns, bus := t.bus, outs := t.outs })
    answers (.enable n target g) 1 ∧ answers (.disable n target g) 2 ∧ answers (.queue n target g) 3 ∧ answers (.replace n target g) 4 ∧
    answers (.stop n target g) 5 ∧ answers (.estop n target g) 6 ∧ answers (.clearFault n target g) 7 ∧ answers (.home n target g) 8 ∧
    answers (.reload n target g) 9 ∧ answers (.setGroup n target g) 10 ∧ answers (.badOpcode n op target g) op.toNat ∧
    (op.toNat = 0 ∨ 10 < op.toNat → code op.toNat = 1) ∧
    (g = false → s.axisExists target.toNat = false → ∀ k, 1 ≤ k → k ≤ 9 → code k = 2) ∧
    (g = true → code 1 = 2 ∧ code 2 = 2 ∧ code 7 = 2 ∧ code 8 = 2 ∧ code 9 = 2) ∧ (g = false → code 10 = 2)

/-- In the states R46 names: ENABLE, with an empty queue, on a fault-free calibrated axis whose STO line is low, with good parameters and a published slot of its own, leads DISABLED to STANDSTILL at the actual position with the parameters copied; DISABLE leads STANDSTILL or FAULT to DISABLED at rest; CLEAR_FAULT with no latched cause present and no input chattering leads FAULT to STANDSTILL without a fault, and is refused with BAD_STATE while an input chatters (R80); HOME with a method the axis supports, away from an active limit, leads STANDSTILL to HOMING; RELOAD takes the parameter record and keeps the state; SET_GROUP adopts the members of the group block. Each that is accepted answers OK. -/
def Obligations.AxisStateCommands : Prop :=
  ∀ (s : State) (n : Fin 4) (a : Fin 240) (k : Fin 32), s.reach (0x80080010 + 0x10 * n.val) = true → s.axisExists a = true →
    let x := s.ax a
    let tgt := BitVec.ofNat 8 a.val
    (x.st = .disabled → x.fault = 0 → x.count = 0 → x.sto = false → (192 ≤ a.val → (s.chan (a - 192)).cal = none ∧ s.flag (R.STP_STAT_UNCAL (a - 192)) = false) → s.paramsOk a = true → s.pubClash a (s.axPar a) = false →
      Ends (.enable n tgt false) s (fun t => Answered s t n 0 ∧ (t.ax a).st = .standstill ∧ (t.ax a).vel = 0 ∧ (t.ax a).fault = 0 ∧
        (t.ax a).par = s.axPar a ∧ (a.val < 192 → (t.ax a).cmdPos = x.actPos ∧ (t.loop a).enabled = true))) ∧
    (x.st = .standstill ∨ x.st = .fault → Ends (.disable n tgt false) s (fun t => Answered s t n 0 ∧ (t.ax a).st = .disabled ∧ (t.ax a).vel = 0 ∧
      (t.ax a).plan = none ∧ (t.ax a).fault = x.fault ∧ (t.ax a).homed = x.homed)) ∧
    (x.st = .fault → x.count = 0 → x.fault &&& s.condMask x = 0 → bit (s.condMask x) 3 = false → Ends (.clearFault n tgt false) s (fun t => Answered s t n 0 ∧
      (t.ax a).st = .standstill ∧ (t.ax a).fault = 0)) ∧
    (x.st = .fault → bit (s.condMask x) 3 = true → Ends (.clearFault n tgt false) s (fun t => Answered s t n 3)) ∧
    (x.st = .standstill → x.homeOk a s.crs.cnt = true → x.par.homeMethod ≠ 4 → (if x.par.homeDir = 1 then x.lpAct else x.lnAct) = false →
      Ends (.home n tgt false) s (fun t => Answered s t n 0 ∧ (t.ax a).st = .homing ∧ ∃ h, (t.ax a).homing = some h ∧ h.step = .search ∧ h.origin = x.cmdPos)) ∧
    (x.st = .standstill ∨ x.st = .disabled → x.count = 0 → s.paramsOk a = true → Ends (.reload n tgt false) s (fun t => Answered s t n 0 ∧
      (t.ax a).st = x.st ∧ (t.ax a).par = s.axPar a)) ∧
    ((s.pfSetGroup k).1 = 0 → Ends (.setGroup n (BitVec.ofNat 8 k.val) true) s (fun t => Answered s t n 0 ∧
      (t.grp k).members = (List.range 8).map (fun i => if s.load (grpBlock k + i) 1 = 0xFF then none else some (s.load (grpBlock k + i) 1))))

/-- QUEUE on an axis that runs an entry and passes the checks appends the staged words as QUEUED; REPLACE makes the staged entry the only one and active, or, where a sync entry would begin outside the soft limits with a velocity that points further out, a soft-limit stop (R66); STOP on a moving axis whose entry has not ended in this tick cancels the queue and leads to STOPPING, or to STANDSTILL where it has no velocity; ESTOP on a moving ramp-class axis leads to FAULT_STOP with cause ESTOP, an empty queue and the axis's PF_FAULT bit, and on a pulse-class axis to FAULT with the velocity 0. Each answers OK. -/
def Obligations.AxisMotionCommands : Prop :=
  ∀ (s : State) (n : Fin 4) (a : Fin 240), s.reach (0x80080010 + 0x10 * n.val) = true → s.axisExists a = true →
    let x := s.ax a
    let tgt := BitVec.ofNat 8 a.val
    let w := s.stage false a
    x.slots.length = 8 → x.count ≤ 8 → x.ended = false →
    (x.takesEntries = true → x.active = true → s.entryCheck a x ⟨w, 0, 0, 0, none⟩ false = 0 → Ends (.queue n tgt false) s (fun t => Answered s t n 0 ∧
      (t.ax a).count = x.count + 1 ∧ ((t.ax a).slot (x.head + x.count)).words = w ∧ ((t.ax a).slot (x.head + x.count)).status = 1 ∧ (t.ax a).st = x.st)) ∧
    (x.takesEntries = true → s.entryCheck a x ⟨w, 0, 0, 0, none⟩ true = 0 → Ends (.replace n tgt false) s (fun t => Answered s t n 0 ∧
      (x.pointsOut ⟨w, 0, 0, 0, none⟩ = false → (t.ax a).count = 1 ∧ (t.ax a).active = true ∧ (t.ax a).first.words = w ∧ (t.ax a).activeTag = at_ w 1) ∧
      (x.pointsOut ⟨w, 0, 0, 0, none⟩ = true → (t.ax a).count = 0 ∧ (t.ax a).softStop = true ∧ (t.ax a).st = (if x.vel = 0 ∧ x.acc = 0 then .standstill else .stopping)))) ∧
    (x.st = .moving ∨ x.st = .sync → Ends (.stop n tgt false) s (fun t => Answered s t n 0 ∧ (t.ax a).count = 0 ∧
      (t.ax a).st = (if x.vel = 0 ∧ x.acc = 0 then .standstill else .stopping))) ∧
    (x.st = .moving → x.pulse = false → x.sto = false → x.vel ≠ 0 → Ends (.estop n tgt false) s (fun t => Answered s t n 0 ∧ (t.ax a).st = .faultStop ∧
      (t.ax a).fault = x.fault ||| cEstop ∧ (t.ax a).count = 0 ∧ bit (t.get (R.PF_FAULT_FAULT (a.val / 32))) (a.val % 32) = true)) ∧
    (x.st = .moving → x.pulse = true → Ends (.estop n tgt false) s (fun t => Answered s t n 0 ∧ (t.ax a).st = .fault ∧ (t.ax a).vel = 0 ∧
      (t.ax a).fault = x.fault ||| cEstop ∧ (t.ax a).homed = (x.homed && decide (x.vel = 0))))

/-- A DWELL in the last course of its hold time ends DONE (its events reach the capture sets, R251) and, with nothing queued behind it, leaves the axis in STANDSTILL with an empty queue; an input whose run of equal samples has reached N changes its debounced value and nothing else changes; when the condition of the hard-stop method has held for HOME_DWELL the axis is HOMED in STANDSTILL, its position shifted so that the home point reads HOME_OFS: on a network axis the home point is the position that first showed the condition, and the set-point is taken from the actual position; on a stepper axis without an encoder it is the position of the stopped generator rounded against the search direction to a whole full step. -/
def Obligations.AxisTimers : Prop :=
  ∀ (s : State) (a : Fin 240) (i : Fin 3),
    let x := s.ax a
    (x.st = .standstill → (x.dwell = some 0 ∨ x.dwell = some 1) → x.active = true → x.count = 1 → Ends (.dwellExpire a) s (fun t =>
      (t.ax a).dwell = none ∧ (t.ax a).count = 0 ∧ (t.ax a).st = .standstill ∧ (t.ax a).doneTag = x.first.tag ∧
      t = { s with axes := t.axes, grps := t.grps, mem := t.mem, tst := t.tst, flds := t.flds, cap := t.cap, bus := t.bus, outs := t.outs })) ∧
    (let n := debN x i (s.get R.BOND_CRS_PERIOD_PERIOD_NS)
     let d (y : Ax) : Deb := if i.val = 0 then y.lp else if i.val = 1 then y.ln else y.hm
     n ≤ (d x).run → Ends (.limitDebounce a i) s (fun t => (d (t.ax a)).val = !(d x).val ∧ (d (t.ax a)).run = 0 ∧ (d (t.ax a)).pos = (d x).pos ∧
      (t.ax a).st = x.st ∧ (t.ax a).cmdPos = x.cmdPos ∧ (∀ b, b ≠ a.val → t.ax b = s.ax b) ∧ t = { s with axes := t.axes, bus := t.bus, outs := t.outs })) ∧
    (∀ h m, x.homing = some h → x.par.homeMethod = 3 → h.step = .search → h.mark = some m → (a.val < 192 ∨ s.homeStall a = true) →
      x.par.homeDwell * 1000000 ≤ h.held + s.get R.BOND_CRS_PERIOD_PERIOD_NS → Ends (.homeDwellExpire a) s (fun t =>
        let y := t.ax a
        y.homed = true ∧ y.posUnc = false ∧ y.st = .standstill ∧ y.homing = none ∧ y.vel = 0 ∧
        (a.val < 192 → y.ofs = x.ofs + (sx 64 x.par.homeOfs - m) ∧ y.cmdPos = x.actPos + (sx 64 x.par.homeOfs - m)) ∧
        (192 ≤ a.val → bits x.par.cfg 0 2 = 2 → ∃ g : Int, g % 16777216 = 0 ∧ y.ofs = x.ofs + (sx 64 x.par.homeOfs - (g + x.ofs)) ∧ y.cmdPos = x.cmdPos + (sx 64 x.par.homeOfs - (g + x.ofs)) ∧
          (x.par.homeDir = 1 → g ≤ x.cmdPos - x.ofs ∧ x.cmdPos - x.ofs < g + 16777216) ∧ (x.par.homeDir ≠ 1 → g - 16777216 < x.cmdPos - x.ofs ∧ x.cmdPos - x.ofs ≤ g)) ∧
        (192 ≤ a.val → bits x.par.cfg 0 2 ≠ 2 → y.cmdPos = sx 64 x.par.homeOfs) ∧
        (∀ b, b ≠ a.val → t.ax b = { s.ax b with evts := [] }) ∧ t = { s with axes := t.axes, flds := t.flds, cap := t.cap, bus := t.bus, outs := t.outs }))

/-- A RUNNING engine of the standard program, with no HALT_REQ standing and no poisoned word among those the loop reads, serves its oldest event; a live update that waits for a loop of the event's own slot is not due before it (R108 has a statement of its own). With o for what the loop law gives: the command published for the slot holds the torque and the enable bit, the staging record holds the same words, the axis's loop state is the law's, the flags raised stand in FLAGS, the causes latched wait for the profile tick, and the cycles taken are free within the worst case of R110. Registers of the engine, other axes, other engines and every byte outside the staging record and the loop state record are unchanged. -/
def Obligations.StandardLoopCourse : Prop :=
  ∀ (s : State) (n : Fin 12) (v : Ev) (rest : List Ev), (s.eng n).st = .running → (s.eng n).queue = v :: rest → (s.eng n).haltReq = false →
    (s.eng n).axes.any s.custom = false → (∀ sl c, (s.eng n).swap = some (sl, c) → sl ≠ v.slot ∨ v.crs < c) → (∀ p ∈ s.loopReads n v, s.poisoned p.1 p.2 = false) → v.axis < 192 →
    let s1 := s.setEng n { s.eng n with queue := rest, asleep := false, cur := some v }
    let o := s1.law (lpCopy n v.slot) (compCopy n (s1.ctIndex (s1.eng n).axes v.slot)) (s1.loop v.axis) (s1.loopIn n v)
    let stg := leData n + v.slot * 0x100 + 0x80
    let rec_ := axBlock v.axis + 0xF00
    Ends (.axisLoop n) s (fun t => ∃ cyc, cyc ≤ lpCycles (s.lpW (lpCopy n v.slot) 0) ∧
      (t.eng n).queue = rest ∧ (t.eng n).cur = some v ∧ (t.eng n).st = .running ∧ (t.eng n).pc = (s.eng n).pc ∧ (t.eng n).v = (s.eng n).v ∧
      (t.eng n).cyc = cyc ∧ (t.eng n).asleep = rest.isEmpty ∧
      Store.get ⟨0, []⟩ (t.eng n).pub v.slot = ⟨v.crs, [o.tq, b2n o.en, 0, 0]⟩ ∧
      t.load stg 4 = o.tq % 2 ^ 32 ∧ t.load (stg + 4) 4 = b2n o.en ∧
      t.loop v.axis = { o.loop with cycMax := max cyc o.loop.cycMax } ∧
      t.get (R.LE_ENG_FLAGS_FLAGS n) = (s.get (R.LE_ENG_FLAGS_FLAGS n) ||| o.flags) % 2 ^ 7 ∧
      (t.ax v.axis).pend = (s.ax v.axis).pend ||| o.causes ∧
      (∀ x, (x < stg ∨ stg + 16 ≤ x) → (x < rec_ ∨ rec_ + 68 ≤ x) → t.byte x = s.byte x) ∧
      (∀ m, m ≠ n.val → t.eng m = s.eng m) ∧ (∀ a, a ≠ v.axis → t.loop a = s.loop a ∧ t.ax a = s.ax a) ∧
      t = { s with axes := t.axes, loops := t.loops, engs := t.engs, mem := t.mem, tst := t.tst, free := t.free, flds := t.flds, bus := t.bus, outs := t.outs })

/-- For every parameter set, loop state and input: the torque sent is finite; with ENABLE of CTRL clear, DRIVE_OFF set, or the torque reported off by feedback that is present, the command is disabled with torque 0; DRIVE_OFF leaves the integrator 0; INIT begins at the feedback position, that of ENABLE with its counts cleared before this course; feedback held counts in HELD_CNT; an axis that was not enabled in the course latches no cause; a drive fault reported by the feedback latches DRIVE; the third held course in a row of an axis enabled in it, its drive enabled or not, latches FEEDBACK_LOST and DRIVE. -/
def Obligations.LoopLawGuards : Prop :=
  ∀ (s : State) (lp comp : Nat) (l : Loop) (i : LoopIn),
    let o := s.law lp comp l i
    f32Fin o.tq = true ∧
    (bit i.ctrl 0 = false ∨ bit i.ctrl 3 = true ∨ (i.missing = false ∧ bit i.status 2 = true) → o.en = false ∧ o.tq = 0) ∧
    (bit i.ctrl 3 = true → o.loop.integ = 0) ∧
    (bit i.ctrl 1 = true → o.loop.pActPrev = i.fbPos ∧ (l.enabled = true → i.crs = l.since → o.loop.heldCnt = b2n i.missing ∧ o.loop.satCnt ≤ 1)) ∧
    (i.missing = true → (bit i.ctrl 1 = false ∨ l.enabled = false ∨ i.crs ≠ l.since) → o.loop.heldCnt = sat32 l.heldCnt) ∧
    (l.enabledAt i.crs = false → o.causes = 0) ∧
    (l.enabledAt i.crs = true → i.missing = false → bit i.status 1 = true → o.causes &&& cDrive = cDrive) ∧
    (l.enabledAt i.crs = true → i.missing = true → bit i.ctrl 1 = false → 2 ≤ l.heldRun → o.causes &&& (cFbLost ||| cDrive) = cFbLost ||| cDrive)

/-- At its limit the following-error monitor latches FOLLOW_ERR with detail 3 and the velocity-error monitor with detail 4; the third held course latches FEEDBACK_LOST and DRIVE with detail 6; each sets the axis's LOOPFLT bit and its detail byte. A live-update request takes AXIS, COURSE and GO, or sets UPD_ERR alone while one is pending. At its target course an update whose check passed replaces the copies of the slot by the shadow areas in one step, with RESULT 0, and PARAM_NEW stands in the set-point record of the course, or in the next one written where that record lags; while a loop of an earlier course is queued for the slot the copies wait for it (the model's choice, log entry 37). A failed check changes no copy and gives RESULT 4. Both clear GO and report the course. Nothing else changes. -/
def Obligations.LoopMonitorsAndLiveUpdate : Prop :=
  ∀ (s : State) (a : Fin 192) (n sl : Nat) (axis : BitVec 8) (course : BitVec 16),
    let l := s.loop a
    let latched (i : Instr) (cause detail : Nat) : Prop := Ends i s (fun t =>
      (t.ax a).pend = (s.ax a).pend ||| cause ∧ t.loop a = { l with detail := detail } ∧ t.byte (axBlock a + 0xF00) = BitVec.ofNat 8 detail ∧
      bit (t.get (R.LE_LOOPFLT_LOOPFLT (a.val / 32))) (a.val % 32) = true ∧
      (∀ b, b ≠ a.val → t.ax b = s.ax b ∧ t.loop b = s.loop b) ∧ BytesBut s t (axBlock a + 0xF00) 1 ∧ FldsBut s t [R.LE_LOOPFLT_LOOPFLT (a.val / 32)] ∧
      t = { s with axes := t.axes, loops := t.loops, mem := t.mem, tst := t.tst, flds := t.flds, bus := t.bus, outs := t.outs })
    (s.axSlot a = some (n, sl) → l.enabled = true → 0 < s.load (lpCopy n sl + 56) 1 → s.load (lpCopy n sl + 56) 1 ≤ l.feRun → latched (.followingErrorLimit a) cFollow 3) ∧
    (s.axSlot a = some (n, sl) → l.enabled = true → 0 < s.load (lpCopy n sl + 57) 1 → s.load (lpCopy n sl + 57) 1 ≤ l.veRun → latched (.velocityErrorLimit a) cFollow 4) ∧
    (l.enabled = true → 3 ≤ l.heldRun → latched (.feedbackLost a) (cFbLost ||| cDrive) 6) ∧
    (s.reach 0x800910C0 = true → s.flag R.LE_UPD_CTRL_GO = false → Ends (.liveUpdateRequest axis course) s (fun t =>
      t.get R.LE_UPD_CTRL_AXIS = axis.toNat ∧ t.get R.LE_UPD_CTRL_COURSE = course.toNat ∧ t.flag R.LE_UPD_CTRL_GO = true ∧
      OnlyFlds s t [R.LE_UPD_CTRL_AXIS, R.LE_UPD_CTRL_COURSE, R.LE_UPD_CTRL_GO])) ∧
    (s.reach 0x800910C0 = true → s.flag R.LE_UPD_CTRL_GO = true → Ends (.liveUpdateRequest axis course) s (fun t =>
      t.flag R.LE_UPD_STAT_UPD_ERR = true ∧ OnlyFlds s t [R.LE_UPD_STAT_UPD_ERR])) ∧
    (∀ u, s.upd = some u → u.crs = s.crs.cnt → s.axSlot u.axis = some (n, sl) →
      let wait := !s.custom u.axis && (s.eng n).queue.any (fun v => v.slot == sl && decide (v.crs < u.crs))
      let m := if wait then s else s.poke (s.lpMove (lpCopy n sl) (compCopy n (s.ctIndex (s.eng n).axes sl)) (lpShadow n) (compShadow n))
      let ctrl := spArea n sl u.crs + 20
      Ends .liveUpdateApply s (fun t => t.upd = none ∧ t.flag R.LE_UPD_CTRL_GO = false ∧ t.get R.LE_UPD_STAT_COURSE = s.crs.cnt % 2 ^ 16 ∧
        (u.ok = true → t.get R.LE_UPD_STAT_RESULT = 0 ∧ t.eng n = { s.eng n with swap := if wait then some (sl, u.crs) else none } ∧
          ((s.ax u.axis).crsLo = u.crs % 2 ^ 32 → t.mem = (m.store ctrl (m.load ctrl 4 ||| 4) 4).mem ∧ t.axes = s.axes) ∧
          ((s.ax u.axis).crsLo ≠ u.crs % 2 ^ 32 → t.mem = m.mem ∧ t.ax u.axis = { s.ax u.axis with paramNew := true } ∧ ∀ b, b ≠ u.axis → t.ax b = s.ax b) ∧
          (∀ b, b ≠ u.axis → t.loop b = s.loop b) ∧ ∀ k, k ≠ n → t.eng k = s.eng k) ∧
        (u.ok = false → t.get R.LE_UPD_STAT_RESULT = 4 ∧ t.mem = s.mem ∧ t.loops = s.loops ∧ t.engs = s.engs ∧ t.axes = s.axes) ∧
        FldsBut s t [R.LE_UPD_STAT_RESULT, R.LE_UPD_STAT_COURSE, R.LE_UPD_CTRL_GO] ∧
        t = { s with upd := none, axes := t.axes, loops := t.loops, engs := t.engs, mem := t.mem, tst := t.tst, flds := t.flds, bus := t.bus, outs := t.outs }))

/-- On a channel that chops: at the end of blanking without overcurrent a driving phase closes its sample-and-hold; a comparator trip, or the end of TON_MAX on a target below OPEN_MIN, ends the on-time: slow decay begins for DECAY 0, fast decay otherwise, the peak is U plus the on-slope times CMP_DLY, the off-time is at least TOFF_MIN and at least 16667 ns less the on-time, the on-slope joins the full step's average, and a hold whose conversion has not come stays open; mixed decay passes from fast to slow at FD_TIME; the end of the off-time keeps the target it regulated as that of the period before and starts a new period, which drives where the target is at least 1 and decays slowly below; a fresh period that ends without the fault is transient, sets TRANS and is counted; a phase that waits on a target below 1 has no off-time to end. The other phase, every other channel and everything else is unchanged. -/
def Obligations.ChopperPeriod : Prop :=
  ∀ (s : State) (n : Fin 48) (b : Bool) (ton : Nat), s.chanState n = 1 →
    let c := s.chan n
    let p := c.ph b
    let trips (i : Instr) (on : Nat) : Prop := Ends i s (fun t =>
      let q := (t.chan n).ph b
      q.st = (if c.cfg.decay = 0 then .slow else .fast) ∧ q.tOn = on ∧ q.t = p.t ∧ q.held = p.held ∧ q.tPrev = p.tPrev ∧ q.havePrev = p.havePrev ∧
      q.peak = (p.u : Rat) + q.sOn * c.cfg.cmpDly ∧ (c.cfg.toffMin : Rat) ≤ q.tOff ∧ 16667 - (on : Rat) ≤ q.tOff ∧
      (c.cfg.cmpDly < on → q.sOn * ((on : Rat) - c.cfg.cmpDly) = (p.u : Rat) - p.valley) ∧
      (t.chan n).slopeN = c.slopeN + 1 ∧ (t.chan n).slopeSum = c.slopeSum + q.sOn ∧
      (t.chan n).ph (!b) = c.ph (!b) ∧ OnlyChan s t n [])
    (p.st = .drive → Ends (.blankingEnd n b false) s (fun t => t.chan n = c.setPh b { p with held := true } ∧ OnlyChan s t n [])) ∧
    (p.st = .drive → trips (.comparatorTrip n b ton) ton) ∧
    (p.st = .drive → p.t < (c.cfg.openMin : Rat) → trips (.onTimeMax n b) c.cfg.tonMax) ∧
    (p.st = .fast → c.cfg.decay = 2 → Ends (.fastDecayEnd n b) s (fun t => t.chan n = c.setPh b { p with st := .slow } ∧ OnlyChan s t n [])) ∧
    (p.st = .slow ∨ p.st = .fast → p.wait = true → Ends (.offTimeEnd n b) s (fun t => Unchanged s t)) ∧
    (p.st = .slow ∨ p.st = .fast → p.wait = false → Ends (.offTimeEnd n b) s (fun t =>
      ((t.chan n).ph b).st = (if (s.target n b).1 < 1 then .slow else .drive) ∧ ((t.chan n).ph b).wait = decide ((s.target n b).1 < 1) ∧
      ((t.chan n).ph b).t = (s.target n b).1 ∧ ((t.chan n).ph b).tPrev = p.t ∧ ((t.chan n).ph b).neg = (s.target n b).2 ∧
      ((t.chan n).ph b).havePrev = (decide (1 ≤ (s.target n b).1) && (s.target n b).2 == p.neg) ∧
      ((t.chan n).ph b).held = false ∧ ((t.chan n).ph b).fault = none ∧
      (t.chan n).ph (!b) = c.ph (!b) ∧
      (p.fault = none → OnlyChan s t n []) ∧
      (p.fault ≠ none → t.flag (R.STP_STAT_TRANS n) = true ∧ t.get R.STP_TRANS_CNT_COUNT = min (s.get R.STP_TRANS_CNT_COUNT + 1) (2 ^ R.STP_TRANS_CNT_COUNT.w - 1) ∧
        OnlyChan s t n [R.STP_STAT_TRANS n, R.STP_TRANS_CNT_COUNT])))

/-- On a channel that chops, overcurrent at the end of blanking (code 1), a short to supply at the mid-point of slow decay (code 2) and an open phase at TON_MAX (code 3) put the phase into its 50 us retry with the fault noted, and change nothing else; the same fault in the fresh period turns both phases off and latches STEP_FAULT: FLT_CODE, the channel's STP_FLT bit and the axis's cause; another fault there shows that the one before was transient, which sets TRANS and is counted, and is retried itself. A phase that waits on a target below 1 has no mid-point of slow decay. At the end of the 50 us a fresh period starts, driving where the target is at least 1. -/
def Obligations.BridgeFaults : Prop :=
  ∀ (s : State) (n : Fin 48) (b : Bool), s.chanState n = 1 →
    let c := s.chan n
    let p := c.ph b
    let faults (i : Instr) (code : Nat) : Prop :=
      (p.fault = none → Ends i s (fun t =>
        t.chan n = c.setPh b { p with st := .retry, havePrev := false, held := false, early := none, fault := some code } ∧ OnlyChan s t n [])) ∧
      (∀ old, p.fault = some old → old ≠ code → Ends i s (fun t =>
        t.chan n = c.setPh b { p with st := .retry, havePrev := false, held := false, early := none, fault := some code } ∧
        t.flag (R.STP_STAT_TRANS n) = true ∧ Counted s t R.STP_TRANS_CNT_COUNT ∧ OnlyChan s t n [R.STP_STAT_TRANS n, R.STP_TRANS_CNT_COUNT])) ∧
      (p.fault = some code → Ends i s (fun t => (t.chan n).flt = some code ∧ (t.chan n).phA.st = .off ∧ (t.chan n).phB.st = .off ∧
        t.get (R.STP_STAT_FLT_CODE n) = code ∧ t.stpFlt n = true ∧ t.ax (192 + n) = { s.ax (192 + n) with pend := (s.ax (192 + n)).pend ||| cStep } ∧
        OnlyChanAx s t n [R.STP_STAT_FLT_CODE n, R.STP_FLT0_FLT, R.STP_FLT1_FLT]))
    (p.st = .drive → faults (.blankingEnd n b true) 1) ∧
    (p.st = .slow → p.wait = false → faults (.slowDecayMidpoint n b true) 2) ∧
    (p.st = .slow → p.wait = true → Ends (.slowDecayMidpoint n b true) s (fun t => Unchanged s t)) ∧
    (p.st = .drive → (c.cfg.openMin : Rat) ≤ p.t → faults (.onTimeMax n b) 3) ∧
    (p.st = .slow → Ends (.slowDecayMidpoint n b false) s (fun t => Unchanged s t)) ∧
    (p.st = .retry → Ends (.bridgeFaultRetryEnd n b) s (fun t =>
      ((t.chan n).ph b).st = (if (s.target n b).1 < 1 then .slow else .drive) ∧ ((t.chan n).ph b).fault = p.fault ∧ ((t.chan n).ph b).havePrev = false ∧
      ((t.chan n).ph b).t = (s.target n b).1 ∧
      (t.chan n).ph (!b) = c.ph (!b) ∧ OnlyChan s t n []))

/-- An index update moves the generator to the next step of 2^MRES on its way and, where STEP and DIR are driven, queues exactly one pulse of its direction; one within a full step changes its channel alone, and one that completes a full step with on-times in it publishes their average on-slope and starts a new average. The oldest pulse leaves the queue on the STEP pin with DIR at its own direction by DIR_POL; an edge of one encoder input counts up or down by one, by which input leads, and an edge of both latches FLT_CODE 6; at zero velocity the end of HOLD_DELAY puts SCALE to HOLD_SCALE, and before it nothing happens. Other channels, memory and everything else is unchanged. -/
def Obligations.StepGeneratorEvents : Prop :=
  ∀ (s : State) (n : Fin 48) (a b : Bool),
    let c := s.chan n
    (∀ p, c.nextStep = some p → Ends (.indexUpdate n) s (fun t =>
      let k := stepNo c.cfg.mres c.gen
      let k' := stepNo c.cfg.mres (t.chan n).gen
      (t.chan n).gen = p ∧ (k' = k + 1 ∨ k' = k - 1) ∧
      (t.chan n).pulses = (if s.chanState n = 2 then addRun c.pulses (decide (k < k')) 1 else []) ∧
      (stepNo 8 p = stepNo 8 c.gen → (t.chan n).dst = c.dst ∧ (t.chan n).slopeN = c.slopeN ∧ OnlyChan s t n []) ∧
      (stepNo 8 p ≠ stepNo 8 c.gen → c.slopeN ≠ 0 →
        t.get (R.STP_STAT_SLOPE_AVG n) = min (rne (c.slopeSum / (c.slopeN : Rat) * 256000)).toNat 65535 ∧ (t.chan n).slopeSum = 0 ∧ (t.chan n).slopeN = 0) ∧
      OnlyChanAx s t n [R.STP_STAT_SLOPE_AVG n, R.STP_STAT_FLT_CODE n, R.STP_FLT0_FLT, R.STP_FLT1_FLT])) ∧
    (∀ d k r, s.chanState n = 2 → c.pulses = (d, k) :: r → Ends (.stepPulse n) s (fun t =>
      t.chan n = { c with pulses := if k ≤ 1 then r else (d, k - 1) :: r, up := d } ∧ t.outs = [.step n (d != bit c.cfg.cfg 12)] ∧ OnlyChan s t n [])) ∧
    (s.chanState n ≠ 2 ∨ c.pulses = [] → Ends (.stepPulse n) s (fun t => t.outs = [] ∧ Unchanged s t)) ∧
    (c.cfg.encEn = true → (a ≠ c.encA ∧ b = c.encB ∨ a = c.encA ∧ b ≠ c.encB) → Ends (.encoderEdge n a b) s (fun t =>
      (t.chan n).encA = a ∧ (t.chan n).encB = b ∧
      (t.chan n).enc = (if (a ≠ c.encA ∧ a ≠ b) ∨ (b ≠ c.encB ∧ a = b) then c.enc + 1 else c.enc - 1) ∧ OnlyChan s t n [])) ∧
    (c.cfg.encEn = true → a ≠ c.encA → b ≠ c.encB → Ends (.encoderEdge n a b) s (fun t =>
      t.chan n = { c with encA := a, encB := b } ∧ t.get (R.STP_STAT_FLT_CODE n) = 6 ∧ t.stpFlt n = true ∧
      t.ax (192 + n) = { s.ax (192 + n) with pend := (s.ax (192 + n)).pend ||| cStep } ∧
      OnlyChanAx s t n [R.STP_STAT_FLT_CODE n, R.STP_FLT0_FLT, R.STP_FLT1_FLT])) ∧
    ((s.ax (192 + n)).vel = 0 → c.search = false → s.holdCourses n ≤ c.still → Ends (.holdDelayExpire n) s (fun t =>
      (t.chan n).scale 0 = c.cfg.holdS ∧ (t.chan n).gen = c.gen ∧ OnlyChan s t n [])) ∧
    ((s.ax (192 + n)).vel ≠ 0 ∨ c.still < s.holdCourses n → Ends (.holdDelayExpire n) s (fun t => Unchanged s t))

/-- An external drive's fault input at the level that XFLT_POL names active latches STEP_FAULT with FLT_CODE 5 while the axis is enabled and the channel runs in STEP/DIR mode; at the other level nothing happens. The stall indication outside homing sets STALL, latches STEP_FAULT with FLT_CODE 4 where STALL_FLT is set, and leaves an axis without an encoder uncertain in position and not homed; in the search step of a hard-stop homing it freezes the generator where it is, marks the encoder's place and brings the axis to rest there; without its condition nothing happens. -/
def Obligations.StallAndExternalFault : Prop :=
  ∀ (s : State) (n : Fin 48) (high : Bool),
    let c := s.chan n
    let x := s.ax (192 + n)
    (x.enabled = true → s.chanState n = 2 → high = bit c.cfg.cfg 14 → Ends (.externalDriveFault ⟨n, high⟩) s (fun t =>
      t.get (R.STP_STAT_FLT_CODE n) = 5 ∧ t.stpFlt n = true ∧ t.ax (192 + n) = { x with pend := x.pend ||| cStep } ∧ t.chan n = c ∧
      OnlyChanAx s t n [R.STP_STAT_FLT_CODE n, R.STP_FLT0_FLT, R.STP_FLT1_FLT])) ∧
    (x.enabled = false ∨ s.chanState n ≠ 2 ∨ high ≠ bit c.cfg.cfg 14 → Ends (.externalDriveFault ⟨n, high⟩) s (fun t => Unchanged s t)) ∧
    (s.stallCond n = false → Ends (.stall n) s (fun t => Unchanged s t)) ∧
    (s.stallCond n = true → x.homing = none → Ends (.stall n) s (fun t =>
      t.chan n = { c with stall := true } ∧
      (t.ax (192 + n)).posUnc = (x.posUnc || !c.cfg.encEn) ∧ (t.ax (192 + n)).homed = (x.homed && c.cfg.encEn) ∧
      (t.ax (192 + n)).pend = (if bit c.cfg.cfg 11 then x.pend ||| cStep else x.pend) ∧
      (bit c.cfg.cfg 11 = true → t.get (R.STP_STAT_FLT_CODE n) = 4 ∧ t.stpFlt n = true) ∧
      (bit c.cfg.cfg 11 = false → FldsBut s t []) ∧
      OnlyChanAx s t n [R.STP_STAT_FLT_CODE n, R.STP_FLT0_FLT, R.STP_FLT1_FLT])) ∧
    (∀ h, s.stallCond n = true → x.homing = some h → h.step = .search → x.par.homeMethod = 3 → Ends (.stall n) s (fun t =>
      (t.chan n).stall = true ∧ (t.chan n).frozen = true ∧ (t.chan n).gen = c.gen ∧ (t.chan n).pulses = [] ∧
      (t.chan n).stallPos = (if c.stall then c.stallPos else c.encPos) ∧ (t.ax (192 + n)).cmdPos = c.gen + x.ofs ∧
      (t.ax (192 + n)).pos = ((c.gen + x.ofs : Int) : Rat) ∧ (t.ax (192 + n)).vel = 0 ∧ OnlyChanAx s t n []))

/-- CAL_GO on the channel of a disabled axis starts a run and reads 1; on an enabled axis CAL_RES reads BUSY (2) and nothing starts. A run that ends with offsets within -31 to 31 for the comparators and -127 to 127 for the ADCs stores them, reads PASS (1) and clears UNCAL; offsets out of bounds are tried again once and then read FAIL (3) with UNCAL, the stored offsets kept. A conversion stores in MON.VALLEY the code less the ADC offset, clamped to 0 to 4095. -/
def Obligations.CalibrationRuns : Prop :=
  ∀ (s : State) (n : Fin 48) (ca cb aa ab : Int) (b : Bool) (code : BitVec 12) (at_ : Nat),
    let c := s.chan n
    let good := (-31 ≤ ca ∧ ca ≤ 31) ∧ (-31 ≤ cb ∧ cb ≤ 31) ∧ (-127 ≤ aa ∧ aa ≤ 127) ∧ (-127 ≤ ab ∧ ab ≤ 127)
    (s.reach (0x800A0000 + 0x40 * n.val) = true → (s.ax (192 + n)).enabled = false → c.cal = none → Ends (.calGo n) s (fun t =>
      t.chan n = { c with cal := some 1 } ∧ t.flag (R.STP_CTRL_CAL_GO n) = true ∧ OnlyChan s t n [R.STP_CTRL_CAL_GO n])) ∧
    (s.reach (0x800A0000 + 0x40 * n.val) = true → (s.ax (192 + n)).enabled = true → Ends (.calGo n) s (fun t =>
      t.get (R.STP_CAL_CAL_RES n) = 2 ∧ OnlyFlds s t [R.STP_CAL_CAL_RES n])) ∧
    (∀ k, c.cal = some k → good → Ends (.calibrationEnd n ca cb aa ab) s (fun t =>
      sx 6 (t.get (R.STP_CAL_CMP_OFS_A n)) = ca ∧ sx 6 (t.get (R.STP_CAL_CMP_OFS_B n)) = cb ∧ sx 8 (t.get (R.STP_CAL_ADC_OFS_A n)) = aa ∧ sx 8 (t.get (R.STP_CAL_ADC_OFS_B n)) = ab ∧
      t.get (R.STP_CAL_CAL_RES n) = 1 ∧ t.flag (R.STP_STAT_UNCAL n) = false ∧ t.flag (R.STP_CTRL_CAL_GO n) = false ∧ t.chan n = { c with cal := none } ∧
      OnlyChan s t n [R.STP_CAL_CMP_OFS_A n, R.STP_CAL_CMP_OFS_B n, R.STP_CAL_ADC_OFS_A n, R.STP_CAL_ADC_OFS_B n, R.STP_CAL_CAL_RES n, R.STP_STAT_UNCAL n, R.STP_CTRL_CAL_GO n, R.STP_TRANS_CNT_COUNT])) ∧
    (c.cal = some 1 → ¬ good → Ends (.calibrationEnd n ca cb aa ab) s (fun t => t.chan n = { c with cal := some 2 } ∧ OnlyChan s t n [])) ∧
    (c.cal = some 2 → ¬ good → Ends (.calibrationEnd n ca cb aa ab) s (fun t =>
      t.get (R.STP_CAL_CAL_RES n) = 3 ∧ t.flag (R.STP_STAT_UNCAL n) = true ∧ t.flag (R.STP_CTRL_CAL_GO n) = false ∧ t.chan n = { c with cal := none } ∧
      OnlyChan s t n [R.STP_CAL_CAL_RES n, R.STP_STAT_UNCAL n, R.STP_CTRL_CAL_GO n])) ∧
    Ends (.adcConversion n b code at_) s (fun t =>
      (t.get (if b then R.STP_MON_VALLEY_B n else R.STP_MON_VALLEY_A n) : Int) =
        max 0 (min 4095 ((code.toNat : Int) - sx 8 (s.get (if b then R.STP_CAL_ADC_OFS_B n else R.STP_CAL_ADC_OFS_A n)))) ∧
      (∀ m, m ≠ n.val → t.chan m = s.chan m) ∧ t.mem = s.mem ∧
      t = { s with chans := t.chans, axes := t.axes, cap := t.cap, flds := t.flds, bus := t.bus, outs := t.outs })

/-- The profile tick of a course that is still to come runs first at its actuation instant, at its sync gap and at the course start that ends it, and with the device in RUN and leading none is left to come after either instant. A device that heads its rings and leads, outside a cascade's alignment, advances its course counter by one, modulo 2^64, at a course start. The sample instant latches each listed stepper channel's limit and home pins with the course. The actuation instant ends the running interpolation of each unfrozen channel at its target and starts the next, toward the axis's set-point or, where that came late, by the last increment again; a channel whose last stretch completed no full step has judged no stall. At the start of the sync gap a device that leads substitutes missing set-points, with PF_LATE set and one count where any is missing or the engines were late; with neither, nor in a shadow, does memory or PF_LATE change; a ring that is to be left is bypassed, and a GO_STANDBY that reads 1 is decided: the device stands in STANDBY if every axis is DISABLED. Feedback that has not landed leaves the last record with this course's number and sample instant in the slot's area and nothing else in memory; feedback that has landed is not touched. SW_GO to another schedule of the image leaves the switch pending; where R34 refuses it SW_ERR is set. -/
def Obligations.CourseInstants : Prop :=
  ∀ (s : State) (late : Bool) (pins : BitVec 144) (a : Fin 192),
    let u := s.quiet.tickDue
    (s.crs.tick = none → u = s.quiet) ∧
    (s.dev = .run → 2 ≤ s.get R.BOND_START_STATE → s.leads = true → u.get R.BOND_START_STATE = 3 → u.leads = true → u.cas.due = false →
      Ends (.courseStart late) s (fun t => t.crs.cnt = (u.crs.cnt + 1) % 2 ^ 64 ∧ t.crs.tick = some late ∧ t.pending = s.pending ∧ t.jtag = s.jtag)) ∧
    Ends (.sampleInstant pins) s (fun t => t.now = max s.now (s.crs.start + s.get R.BOND_CRS_TS_TS_NS) ∧
      (∀ n ∈ s.chanNums, (t.chan n).lp = bit pins.toNat (3 * n) ∧ (t.chan n).ln = bit pins.toNat (3 * n + 1) ∧
        (t.chan n).hm = bit pins.toNat (3 * n + 2) ∧ (t.ax (192 + n)).inp.crs = s.crs.cnt) ∧
      t = { s with now := t.now, chans := t.chans, axes := t.axes, flds := t.flds, cap := t.cap, bus := t.bus, outs := t.outs }) ∧
    Ends .actuationInstant s (fun t => t.now = max u.now (u.crs.start + u.get R.BOND_CRS_TA_TA_NS) ∧ t.crs.actAt = u.crs.start + u.get R.BOND_CRS_TA_TA_NS ∧
      t.crs.cnt = u.crs.cnt ∧ (s.dev = .run → s.leads = true → t.crs.tick = none) ∧
      (∀ n ∈ u.chanNums, let c := u.chan n
        c.frozen = false → (t.chan n).gen = c.dst ∧ (t.chan n).src = c.dst ∧
        (stepNo 8 c.dst = stepNo 8 c.gen →
          (t.chan n).dst = (if (u.ax (192 + n)).enabled = false then c.dst else if u.chanMiss n then c.dst + (c.dst - c.src) else u.chanSp n))) ∧
      ((∀ n ∈ u.chanNums, (u.chan n).frozen = true ∨ stepNo 8 (u.chan n).dst = stepNo 8 (u.chan n).gen) → t.axes = u.axes) ∧
      t.mem = u.mem ∧ t = t.tickPart s) ∧
    Ends .syncGapStart s (fun t => t.now = max u.now u.gapNow ∧ (s.dev = .run → s.leads = true → t.crs.tick = none) ∧
      (u.shadows = false → t.mem = Memory.putAll u.mem u.substAll) ∧ (u.shadows = true → t.mem = u.mem) ∧
      (u.shadows = true ∨ (u.substAll = [] ∧ u.crs.late = false) →
        t.get R.BOND_CRS_STAT_PF_LATE = u.get R.BOND_CRS_STAT_PF_LATE ∧ t.get R.BOND_PF_LATE_CNT_COUNT = u.get R.BOND_PF_LATE_CNT_COUNT ∧ t.axes = u.axes) ∧
      (u.shadows = false → (u.substAll ≠ [] ∨ u.crs.late = true) →
        t.flag R.BOND_CRS_STAT_PF_LATE = true ∧ Counted u t R.BOND_PF_LATE_CNT_COUNT ∧ t.crs.pfLate = some u.crs.cnt) ∧
      (∀ k ∈ u.ringsEn, (u.ring k).leave = true → t.flag (R.RING_STAT_BYP k) = false ∧ (t.ring k).leave = false) ∧
      t.flag R.PWR_CTRL_GO_STANDBY = false ∧
      (u.flag R.PWR_CTRL_GO_STANDBY = false → t.dev = s.dev ∧ t = { t.tickPart s with rings := t.rings, cas := t.cas }) ∧
      (u.flag R.PWR_CTRL_GO_STANDBY = true → t.dev = (if u.mayStandby then .standby else s.dev) ∧ (u.mayStandby = false → t.flag R.PWR_STAT_REQ_ERR = true))) ∧
    (∀ n sl, s.axSlot a = some (n, sl) → a.val ∉ s.crs.fbSeen → Ends (.feedbackMissing a) s (fun t =>
      t.load (fbArea n sl s.crs.cnt) 20 = s.load (fbArea n sl (s.crs.cnt + 1)) 20 ∧ t.load (fbArea n sl s.crs.cnt + 20) 4 = s.crs.cnt % 2 ^ 32 ∧
      t.load (fbArea n sl s.crs.cnt + 24) 8 = s.tsNow % 2 ^ 64 ∧ BytesBut s t (fbArea n sl s.crs.cnt) 32 ∧ t.crs = { s.crs with fbSeen := a :: s.crs.fbSeen } ∧
      (s.shadows = false → (s.eng n).st = .running → (s.eng n).queue = [] →
        (t.eng n).queue = [⟨sl, true, a, s.crs.cnt, s.get R.BOND_CRS_STAT_SCHED_CUR, s.fbEndNow⟩] ∧ (t.eng n).asleep = false) ∧
      t = { s with engs := t.engs, mtr := t.mtr, crs := t.crs, mem := t.mem, tst := t.tst, flds := t.flds, bus := t.bus, outs := t.outs })) ∧
    (a.val ∈ s.crs.fbSeen → Ends (.feedbackMissing a) s (fun t => Unchanged s t)) ∧
    (s.reach 0x80030000 = true → s.crs.swTo = none → s.heads = true → s.leads = true → s.subPosition = false → s.schedIn (s.get R.BOND_CRS_CTRL_SCHED_NEXT) = true →
      s.get R.BOND_CRS_CTRL_SCHED_NEXT ≠ s.get R.BOND_CRS_STAT_SCHED_CUR → Ends .swGo s (fun t =>
        t.crs.swTo = some (s.get R.BOND_CRS_CTRL_SCHED_NEXT) ∧ t.flag R.BOND_CRS_CTRL_SW_GO = true ∧ FldsBut s t [R.BOND_CRS_CTRL_SW_GO] ∧
        t = { s with crs := t.crs, flds := t.flds, bus := t.bus, outs := t.outs })) ∧
    (s.reach 0x80030000 = true → s.crs.swTo ≠ none ∨ s.heads = false ∨ s.schedIn (s.get R.BOND_CRS_CTRL_SCHED_NEXT) = false → Ends .swGo s (fun t =>
      t.flag R.BOND_CRS_STAT_SW_ERR = true ∧ t.crs.swTo = s.crs.swTo))

/-- A copy that passes the receive checks of R184 on an enabled ring, with no higher epoch than the member's, joins the set of accepted bricks of the course, and: FEEDBACK fills its axis's slot with record, course and sample instant; a REFERENCE gives a follower its head, rank and switch announcement and a listening device its counter and schedule; IO_IN refreshes every point of its segment; a SAFETY record reaches the island; a JOIN of a matching node is claimed by the head, with its CLAIM waiting to be sent, another is refused and counted; STATUS, TABLE_ACK and service data reach node descriptor and registers; a refused opcode counts in DISC_CNT, of a node or of the head at another member, where OFF_RING marks its node; FILL and the opcodes that carry nothing do nothing more. -/
def Obligations.RingBricksAccepted : Prop :=
  ∀ (s : State) (c : Copy),
    let k := c.ring.val
    let h := hdrOf c.nats
    let p := c.payload
    let accepted (i : Instr) (want : Nat → Bool) (eff : State → State → Prop) : Prop :=
      s.ringEn k = true → (s.quiet.receive c want).2 = .accept → epHigher h.epoch (s.get R.MTR_EPOCH_EPOCH) = false →
      Ends i s (fun t => (t.ring k).acc.contains h.brick = true ∧ eff (s.quiet.receive c want).1 t ∧ (h.type ≠ 1 → t.outs = []) ∧ RxFrame s t)
    accepted (.feedback c) (fun x => x == 2) (fun r t => ∀ m n sl, r.elsOf c 0 = [m] → m.item < 192 → r.axSlot m.item = some (n, sl) →
      (t.ax m.item).inp.crs = s.crs.cnt ∧ (t.ax m.item).actPos = sx 64 (leAt (fitTo (slice p m.ofs 20) 20) 0 8) + (s.ax m.item).ofs ∧
      t.load (fbArea n sl s.crs.cnt + 20) 4 = s.crs.cnt % 2 ^ 32 ∧ BytesBut s t (fbArea n sl s.crs.cnt) 32) ∧
    (s.ownCopy c = false → s.get R.BOND_START_STATE = 4 → accepted (.reference c) (fun x => x == 1) (fun _ t =>
      t.get (R.RING_HEAD_SRC k) = h.src ∧ t.get (R.RING_HEAD_RANK k) = bits (at_ p 26) 2 2 ∧
      (bit (at_ p 24) 2 = false → t.crs.swTo = none ∧ t.get R.BOND_CRS_STAT_SW_LEFT = 0))) ∧
    (s.ownCopy c = false → s.get R.BOND_START_STATE = 1 → accepted (.reference c) (fun x => x == 1) (fun _ t =>
      t.crs.cnt = leAt p 8 8 ∧ t.get R.BOND_CRS_STAT_SCHED_CUR = h.sched ∧ t.bond.heardRef = true)) ∧
    accepted (.ioIn c) (fun x => x == 4) (fun r t => t.mem = s.mem ∧ ∀ e m g, r.entOf c = some e → (r.ring k).els e = [m] → m.kind = 3 → r.pseg k m.item = some g →
      ∀ x ∈ (r.places g.count g.first 0).1, Store.get none t.pim.recs x.1 = some ⟨normPt x.2.1 (placeGet p m.ofs x.2.1 x.2.2), qualOf x.2.1 (normPt x.2.1 (placeGet p m.ofs x.2.1 x.2.2)), s.crs.cnt⟩) ∧
    accepted (.safety c) (fun x => x == 6) (fun r t => t.mem = s.mem ∧ (h.src < 2 → t.isl = s.isl) ∧
      (∀ m, 2 ≤ h.src → r.elsOf c 2 = [m] → t.isl = (r.islRecord m.item (fitTo (slice p m.ofs 12) 12)).isl)) ∧
    ((s.ring k).acc.contains h.brick = false → s.heads = true → accepted (.join c) (fun x => x == 7) (fun r t => t.mem = s.mem ∧
      (∀ a, (r.ring k).matchJoin (joinMsg p).uid (joinMsg p).kind = some a → ∃ n, (t.ring k).node a = some n ∧ n.claimed = true ∧ n.claimUid = (joinMsg p).uid ∧ n.claimAt = s.crs.cnt ∧ (t.ring k).scheds = (r.ring k).scheds ∧
        (t.ring k).claims = (r.ring k).claims ++ [((joinMsg p).uid, a, (r.tableOf k a).length)]) ∧
      ((r.ring k).matchJoin (joinMsg p).uid (joinMsg p).kind = none → Counted s t (R.RING_JOIN_CNT_REFUSED k)))) ∧
    accepted (.fill c) (fun x => x == 15) (fun r t => t = { r with outs := [], bus := t.bus }) ∧
    (otherMg c (fun o => o == 4) = false → accepted (.mgmtStatus c) (fun x => x == 8) (fun r t => t.mem = s.mem ∧ ∀ n, (r.ring k).node h.src = some n →
      ∃ m, (t.ring k).node h.src = some m ∧ m.resid = leAt (p.drop 4) 0 4 ∧ m.linkE = bit (at_ (p.drop 4) 20) 0 ∧ m.linkW = bit (at_ (p.drop 4) 20) 1)) ∧
    (otherMg c (fun o => o == 6) = false → accepted (.tableAck c) (fun x => x == 8) (fun r t => t.mem = s.mem ∧ ∀ n, (r.ring k).node h.src = some n → n.claimed = true → n.ackAt = none →
      leAt p 4 2 = (r.tableOf k h.src).length → ∃ m, (t.ring k).node h.src = some m ∧ m.ackAt = some s.crs.cnt)) ∧
    (otherMg c (fun o => decide (o < 16) && o != 4 && o != 6) = false → accepted (.mgmtNone c) (fun x => x == 8) (fun r t => t = { r with outs := [], bus := t.bus })) ∧
    (otherMg c (fun o => decide (0x10 ≤ o ∧ o ≤ 0x7F)) = false → accepted (.mgmtServiceData c) (fun x => x == 8) (fun r t => t.mem = s.mem ∧
      (r.flag (R.RING_MG_STAT_RX_VALID k) = false → t.flag (R.RING_MG_STAT_RX_VALID k) = true ∧ t.get (R.RING_MG_STAT_RX_SRC k) = h.src ∧ t.get (R.RING_MG_RXD_DATA k 0) = leAt (fitTo (p.drop 4) 60) 0 4 % 2 ^ 32) ∧
      (r.flag (R.RING_MG_STAT_RX_VALID k) = true → t.flag (R.RING_MG_STAT_RX_OVR k) = true ∧ t.get (R.RING_MG_STAT_RX_SRC k) = r.get (R.RING_MG_STAT_RX_SRC k)))) ∧
    (otherMg c (fun o => decide (0x80 ≤ o)) = false → accepted (.mgmtRefusedOpcode c) (fun x => x == 8) (fun r t => t.mem = s.mem ∧ Counted r t (R.RING_DISC_CNT_HDR k))) ∧
    (s.ownCopy c = false → (c.hcrcOk && h.type == 8 && decide (2 ≤ h.src)) = false → s.heads = false → accepted (.headBrick c) (fun x => x == 3 || x == 5 || x == 8 || x == 9) (fun r t => t.mem = s.mem ∧
      (h.type = 9 → ∀ n, (r.ring k).node (at_ p 6) = some n → ∃ m, (t.ring k).node (at_ p 6) = some m ∧ m.claimed = true ∧ m.claimUid = leAt p 0 6) ∧
      (h.type = 8 → 0x80 ≤ at_ p 0 → Counted r t (R.RING_DISC_CNT_HDR k)) ∧
      (h.type = 8 → at_ p 0 = 1 → ∀ n, (r.ring k).node (at_ p 1) = some n → ∃ m, (t.ring k).node (at_ p 1) = some m ∧ m.off = true ∧ m.claimed = false) ∧
      (h.type = 3 ∨ h.type = 5 → t = { r with outs := [], bus := t.bus })))

/-- On an enabled ring a copy with a wrong HCRC counts in CRC_CNT.HCRC and a copy with an undefined header or a wrong end in DISC_CNT.HDR, and neither is accepted; its invalid code groups count in CODE_CNT. Where the device is inserted and both ports run, a sound copy of another source leaves on the other side as it came, but for a REFERENCE, whose CORR grows by the link delay and the residence; a copy whose CRC-32 fails leaves marked, and is counted once where its header is sound; one that came marked leaves marked, and one that lacks its end leaves as it came. An own REFERENCE that returns is removed and gives the loop delay of its sense. -/
def Obligations.RingCopiesRefusedAndForwarded : Prop :=
  ∀ (s : State) (c : Copy),
    let k := c.ring.val
    let h := hdrOf c.nats
    let inP := (s.ring k).port (!h.west)
    let outP := (s.ring k).port h.west
    let codes : Fld := if c.onWest then R.RING_CODE_CNT_W k else R.RING_CODE_CNT_E k
    let through := s.inserted k = true ∧ inP.sync = true ∧ inP.fwd = true ∧ outP.sync = true ∧ outP.fwd = true ∧ s.ownCopy c = false
    (s.ringEn k = true → c.hcrcOk = false → Ends (.fill c) s (fun t => Counted s t (R.RING_CRC_CNT_HCRC k) ∧ (t.ring k).acc = (s.ring k).acc ∧
      t.get codes = min (2 ^ codes.w - 1) (s.get codes + c.codes) ∧ FldsBut s t [R.RING_CRC_CNT_HCRC k, codes] ∧ RxFrame s t)) ∧
    (s.ringEn k = true → c.hcrcOk = true → (typeOk h.type = false ∨ (h.type = 15 ∧ (c.hdrOk = false ∨ c.endOk = false))) →
      Ends (.fill c) s (fun t => Counted s t (R.RING_DISC_CNT_HDR k) ∧ OnlyFlds s t [R.RING_DISC_CNT_HDR k, codes])) ∧
    (through → c.endOk = true → c.crcOk = true → h.type ≠ 1 → Ends (.brickForward c) s (fun t => t.outs = [.forward k h.west c.nats false] ∧ Unchanged s t)) ∧
    (through → c.endOk = true → c.crcOk = true → h.type = 1 → Ends (.brickForward c) s (fun t =>
      t.outs = [.forward k h.west (brickBytes h (putAt c.payload 16 (leBytes (leAt c.payload 16 4 + inP.dly + s.bt16 k 64) 4))) false] ∧ Unchanged s t)) ∧
    (through → c.crcOk = true → c.endOk = false → Ends (.brickForward c) s (fun t => t.outs = [.forward k h.west c.nats (c.term == .v)] ∧ Unchanged s t)) ∧
    (through → c.crcOk = false → c.hcrcOk = true → c.term ≠ .v → Ends (.brickForward c) s (fun t => t.outs = [.forward k h.west c.nats true] ∧
      ((s.ring k).crcSeen.contains c.key = false → Counted s t (R.RING_CRC_CNT_CRC k)) ∧ ((s.ring k).crcSeen.contains c.key = true → FldsBut s t []) ∧ OnlyRing s t k [R.RING_CRC_CNT_CRC k])) ∧
    (through → c.crcOk = false → c.hcrcOk = false ∨ c.term = .v → Ends (.brickForward c) s (fun t => t.outs = [.forward k h.west c.nats true] ∧ Unchanged s t)) ∧
    (s.ringEn k = true → s.ownCopy c = true → h.type = 1 → (s.quiet.rxFrame c).2 = true → Ends (.ownBrickReturn c) s (fun t =>
      (if h.west then (t.ring k).loopW else (t.ring k).loopE) = (s.crsTime c.at_).toNat * 16 ∧ (if h.west then (t.ring k).retW else (t.ring k).retE) = true ∧
      t.get (if h.west then R.RING_LOOP_W_LOOP k else R.RING_LOOP_E_LOOP k) = ((s.crsTime c.at_).toNat * 16 + s.bt16 k 64) % 2 ^ (R.RING_LOOP_W_LOOP k).w ∧
      t.outs = [] ∧ t.mem = s.mem ∧ RxFrame s t))

/-- An own FILL entry sends both copies at its START and outside the guardian window sends nothing and counts; an IO_OUT snapshot takes the output points, which are served for the ring; MG_TX.GO of the head queues a service message for a claimed node, and while GO reads 1 sets TX_ERR alone; releasing the receive buffer clears RX_VALID; a lost brick of a head counts; a claim whose CLAIM has been sent and that is not acknowledged for 256 courses ends and counts; a measurement request is answered and halves the round trip; a link that drops stops, with BREAK where it was up, and one that synchronises waits for a new measurement before it forwards; one that a pin says is down does not synchronise. -/
def Obligations.RingSendingAndLinks : Prop :=
  ∀ (s : State) (k : Fin 4) (i : Fin 1024) (ofs : Int) (a : Fin 64) (dest : BitVec 6) (op : BitVec 8) (len : BitVec 6) (w : Bool) (tm : Nat) (seq : BitVec 16) (value : BitVec 32) (codes : Nat),
    let r := s.ring k
    let p := r.port w
    (∀ e, s.bent k i = some e → s.sentNow k e = true → e.owner = 0 → e.type = 15 → s.inserted k = true → r.quiet = false → s.heads = true →
      (ofs.natAbs ≤ 16 → Ends (.brickEntryDue k i ofs) s (fun t => t.outs = s.sendBoth k 15 i (List.replicate e.len 0) ∧ Unchanged s t)) ∧
      (16 < ofs.natAbs → Ends (.brickEntryDue k i ofs) s (fun t => t.outs = [] ∧ Counted s t (R.RING_DISC_CNT_HDR k) ∧ OnlyFlds s t [R.RING_DISC_CNT_HDR k]))) ∧
    (∀ e, s.bent k i = some e → e.type = 5 → e.owner = 0 → Ends (.ioOutSnapshot k i) s (fun t => Store.get [] (t.ring k).snap i = s.ioOut k e ∧ t.pim = (s.serve k (s.outCount k e)).pim ∧
      t = { s with rings := t.rings, pim := t.pim, bus := .none, outs := [] } ∧ (∀ j, j ≠ k.val → t.ring j = s.ring j))) ∧
    (s.reach (0x80040090 + 0x10000 * k.val) = true → s.flag (R.RING_MG_TX_GO k) = false → s.heads = true → 0x10 ≤ op.toNat → op.toNat ≤ 0x7F →
      (∃ n, r.node dest.toNat = some n ∧ n.claimed = true) → Ends (.mgTxGo k dest op len) s (fun t => t.flag (R.RING_MG_TX_GO k) = true ∧
        (∃ d, (t.ring k).mq = r.mq ++ [⟨op.toNat, dest.toNat, d⟩] ∧ d.length = min len.toNat 60) ∧
        OnlyRing s t k [R.RING_MG_TX_DEST k, R.RING_MG_TX_OP k, R.RING_MG_TX_LEN k, R.RING_MG_TX_GO k])) ∧
    (s.reach (0x80040090 + 0x10000 * k.val) = true → s.flag (R.RING_MG_TX_GO k) = true → Ends (.mgTxGo k dest op len) s (fun t =>
      t.flag (R.RING_MG_STAT_TX_ERR k) = true ∧ OnlyFlds s t [R.RING_MG_STAT_TX_ERR k])) ∧
    (s.reach (0x80040094 + 0x10000 * k.val) = true → Ends (.mgRxRelease k) s (fun t => t.flag (R.RING_MG_STAT_RX_VALID k) = false ∧ OnlyFlds s t [R.RING_MG_STAT_RX_VALID k])) ∧
    (∀ e, s.bent k i = some e → s.sentNow k e = true → e.type ≠ 7 → r.acc.contains i.val = false → e.owner = 0 → s.heads = false → 3 ≤ s.get R.BOND_START_STATE →
      Ends (.brickLost k i) s (fun t => Counted s t (R.RING_LOST_CNT_LOST k) ∧ (t.ring k).headRun = r.headRun + 1 ∧ (t.ring k).bad.contains i.val = true ∧
        (i.val = 0 → t.get (R.RING_STAT_STATE k) = 6) ∧ (r.headRun = 2 → t.flag (R.RING_STAT_SQUALL k) = true ∧ Counted s t (R.RING_LOST_CNT_SQUALLS k)) ∧
        OnlyRing s t k [R.RING_LOST_CNT_LOST k, R.RING_STAT_STATE k, R.RING_LOST_CNT_SQUALLS k, R.RING_STAT_SQUALL k])) ∧
    (∀ n, r.node a = some n → s.heads = true → n.claimed = true → n.ackAt = none → n.claimAt + 256 ≤ s.crs.cnt → (∀ x ∈ r.claims, x.2.1 ≠ a.val) → Ends (.claimTimeout k a) s (fun t =>
      (∃ m, (t.ring k).node a = some m ∧ m.claimed = false) ∧ Counted s t (R.RING_JOIN_CNT_TIMEOUTS k) ∧ OnlyRing s t k [R.RING_JOIN_CNT_TIMEOUTS k])) ∧
    (s.ringEn k = true → r.quiet = false → s.ltDue p = true → Ends (.ltRequestSend (.ring k w) tm) s (fun t => t.outs = [.lt k w 1 r.ltSeq 0] ∧ ((t.ring k).port w).req = some (r.ltSeq, tm) ∧ OnlyRing s t k [])) ∧
    (s.ringEn k = true → p.sync = true → Ends (.ltRequest (.ring k w) seq tm) s (fun t => ((t.ring k).port w).resp = some (seq.toNat, tm) ∧ OnlyRing s t k [])) ∧
    (s.ringEn k = true → ∀ t1, p.req = some (seq.toNat, t1) → p.sync = true → p.meas = false → Ends (.ltResponse (.ring k w) seq value tm) s (fun t =>
      ((t.ring k).port w).meas = true ∧ ((t.ring k).port w).fresh = true ∧ ((t.ring k).port w).req = none ∧
      t.get (if w then R.RING_LINK_W_DLY k else R.RING_LINK_E_DLY k) = ((t.ring k).port w).dly ∧
      (∃ m : Int, (2 * m - (((tm : Int) - t1) * 16 - value.toNat)).natAbs ≤ 1 ∧ ((t.ring k).port w).dly = ux 24 m) ∧ (∀ j, j ≠ k.val → t.ring j = s.ring j) ∧ t.mem = s.mem)) ∧
    (s.ringEn k = true → Ends (.linkDown ⟨.ring k w, codes⟩) s (fun t => ((t.ring k).port w).sync = false ∧ ((t.ring k).port w).fwd = false ∧
      t.flag (R.RING_STAT_BREAK k) = (s.flag (R.RING_STAT_BREAK k) || p.sync) ∧
      (let f : Fld := if w then R.RING_CODE_CNT_W k else R.RING_CODE_CNT_E k
       t.get f = min (2 ^ f.w - 1) (s.get f + codes)) ∧
      t.flag (if w then R.RING_STAT_W_SYNC k else R.RING_STAT_E_SYNC k) = false ∧ (t.ring k).port (!w) = r.port (!w) ∧ t.mem = s.mem ∧ t.axes = s.axes)) ∧
    (s.losOn (.ring k w) = true → Ends (.linkSync (.ring k w)) s (fun t => Unchanged s t)) ∧
    (s.ringEn k = true → s.losOn (.ring k w) = false → Ends (.linkSync (.ring k w)) s (fun t => ((t.ring k).port w).sync = true ∧ ((t.ring k).port w).fresh = false ∧ ((t.ring k).port w).fwd = false ∧
      t.flag (if w then R.RING_STAT_W_SYNC k else R.RING_STAT_E_SYNC k) = true ∧ (t.ring k).port (!w) = r.port (!w) ∧ t.mem = s.mem ∧ t.axes = s.axes)) ∧
    (s.ringEn k = true → p.sync = true → p.fresh = true → Ends (.forwardingResume (.ring k w)) s (fun t => ((t.ring k).port w).fwd = true ∧ (t.ring k).port (!w) = r.port (!w) ∧ t.mem = s.mem ∧ t.axes = s.axes))

/-- A device that hears a REFERENCE of a schedule of its image follows (START.STATE 4), and one that is still inserted then steps its time at the next course start; one that hears anything else begins its count of silent periods again; an unpaired candidate that has been silent long enough and is not held out enters its rings, in silence, to head them; a follower enters an enabled ring after 16 courses with references on every synchronised port, its bypass pin high and its own bricks held back, and with its first ring steps its time at the next course start; after the silence own bricks may leave; the enrolment phase ends with ENROL.LEFT 0. -/
def Obligations.RingStartUp : Prop :=
  ∀ (s : State) (k : Fin 4), (s.dev = .run ∨ s.dev = .safeHold) →
    (s.get R.BOND_START_STATE = 1 → s.bond.heardRef = true → s.schedIn (s.get R.BOND_CRS_STAT_SCHED_CUR) = true → Ends .startupListenPeriod s (fun t =>
      t.get R.BOND_START_STATE = 4 ∧ t.flag R.BOND_START_WAIT256 = false ∧ t.flag R.BOND_START_HELD64 = false ∧ t.bond.heardRef = false ∧
      t.bond.stepDue = (s.bond.stepDue || s.ringsEn.any (fun j => s.inserted j && !(s.ring j).leave)) ∧ FldsBut s t [R.BOND_START_STATE, R.BOND_START_WAIT256, R.BOND_START_HELD64] ∧
      t = { s with bond := t.bond, flds := t.flds, bus := t.bus, outs := t.outs })) ∧
    (s.get R.BOND_START_STATE = 1 → s.bond.heardRef = false → s.bond.heardAny = true → Ends .startupListenPeriod s (fun t =>
      t.get R.BOND_START_QUIET = 0 ∧ t.get R.BOND_START_STATE = 1 ∧ t.bond.heardAny = false ∧ t.crs = s.crs ∧ t.mem = s.mem ∧ t.axes = s.axes ∧
      FldsBut s t [R.BOND_START_QUIET, R.BOND_START_HELD64])) ∧
    (s.get R.BOND_START_STATE = 1 → s.bond.heardRef = false → s.bond.heardAny = false → s.needQuiet ≤ min 65535 (s.get R.BOND_START_QUIET + 1) → s.mtr.paired = false →
      (s.get R.BOND_START_RANK = 0 ∨ s.bond.held ≤ 1) → s.flag R.BOND_START_CAND = true → Ends .startupListenPeriod s (fun t =>
      t.get R.BOND_START_STATE = 2 ∧ t.bond.startDue = true ∧ t.bond.clean = true ∧ (∀ j ∈ s.ringsEn, t.inserted j = true ∧ (t.ring j).quiet = true ∧ t.get (R.RING_STAT_STATE j) = 3) ∧
      t.crs = s.crs ∧ t.mem = s.mem ∧ t.axes = s.axes)) ∧
    (s.ringEn k = true → s.inserted k = false → s.follows = true → 16 ≤ (s.ring k).refRun → Ends (.ringInsert k) s (fun t =>
      t.inserted k = true ∧ t.get (R.RING_STAT_STATE k) = 5 ∧ (t.ring k).quiet = true ∧
      t.bond.stepDue = (s.bond.stepDue || !(s.ringsEn.any s.inserted)) ∧ (∀ j, j ≠ k.val → t.ring j = s.ring j) ∧
      FldsBut s t [R.RING_STAT_BYP k, R.RING_STAT_STATE k] ∧ t = { s with bond := t.bond, rings := t.rings, flds := t.flds, bus := t.bus, outs := t.outs })) ∧
    (s.bond.startDue = false → s.ringEn k = true → Ends .insertQuietEnd s (fun t => (t.ring k).quiet = false ∧ t.crs.cnt = s.crs.cnt ∧ t.mem = s.mem ∧ t.axes = s.axes ∧ t.flds = s.flds)) ∧
    (s.get R.BOND_ENROL_LEFT ≤ 1 → Ends .enrolPhaseEnd s (fun t => t.get R.BOND_ENROL_LEFT = 0 ∧ OnlyFlds s t [R.BOND_ENROL_LEFT]))

/-- While PD9 is powered: a write of a mapped output point by a member that leads, or of an internal point, stores its value normalised by TYPE, the quality of that value and the present course as its stamp, in that record alone; a write of an input or an unmapped point is a bus error and counts in WR_CNT.REJ; an output write of a member that does not lead is dropped and counts in WR_CNT.SHADOW. A read of a VALUE answers the value and latches the second word for its requester; a read of that second word uses the latch up, and any other second word is formed at the read and uses no latch up; each access is served for its requester. A resynchronisation record reaches an output point of a standby in RESYNC with its value and the course of its refresh, one that was never written takes its reset value, one that is not finite counts there too, and the last one ends the pass. -/
def Obligations.PointAccesses : Prop :=
  ∀ (s : State) (q : Req) (p : Fin 262144) (v : BitVec 32), s.domUp 9 = true →
    let onlyPim (t : State) (fs : List Fld) : Prop := FldsBut s t fs ∧ t = { s with pim := t.pim, tst := t.tst, flds := t.flds, bus := t.bus, outs := t.outs }
    (∀ r, s.rng p = some r → r.dir ≠ 0 → (r.dir = 1 → s.leads = true) → Ends (.pointWrite q p v) s (fun t =>
      Store.get none t.pim.recs p = some ⟨normPt r.type v.toNat, qualOf r.type (normPt r.type v.toNat), s.crs.cnt⟩ ∧
      (∀ x, x ≠ p.val → Store.get none t.pim.recs x = Store.get none s.pim.recs x) ∧ t.bus = .done ∧
      (r.dir = 1 → t.pim.writes = s.pim.writes + 1 ∧ t.pim.log = (if s.mtr.paired && decide (s.pim.writes < 2048) then s.pim.log ++ [(p.val, normPt r.type v.toNat)] else s.pim.log)) ∧
      (r.dir ≠ 1 → t.pim.writes = s.pim.writes ∧ t.pim.log = s.pim.log) ∧
      (qualOf r.type (normPt r.type v.toNat) = 14 → Counted s t R.PIM_NONFIN_CNT_COUNT) ∧
      onlyPim t ((if qualOf r.type (normPt r.type v.toNat) = 14 then [R.PIM_NONFIN_CNT_COUNT] else []) ++
        (if r.dir = 1 ∧ s.mtr.paired = true ∧ s.pim.writes = 2048 then [R.PIM_STAT_LOG_OVF, R.PIM_LOG_OVF_CNT] else [])))) ∧
    ((∀ r, s.rng p = some r → r.dir = 0) → Ends (.pointWrite q p v) s (fun t => t.bus = .error ∧ Counted s t R.PIM_WR_CNT_REJ ∧ t.pim = (s.serve q.pimNo 1).pim ∧ onlyPim t [R.PIM_WR_CNT_REJ])) ∧
    (∀ r, s.rng p = some r → r.dir = 1 → s.leads = false → Ends (.pointWrite q p v) s (fun t => t.bus = .done ∧ Counted s t R.PIM_WR_CNT_SHADOW ∧ t.pim = (s.serve q.pimNo 1).pim ∧ onlyPim t [R.PIM_WR_CNT_SHADOW])) ∧
    (s.poisoned (0x20000000 + 8 * p.val) 4 = false → Ends (.pointValueRead q p) s (fun t => t.bus = .data (s.ptValue p) ∧
      Store.get none t.pim.latch q.id = some (p.val, s.ptSecond p) ∧ (∀ x, x ≠ q.id → Store.get none t.pim.latch x = Store.get none s.pim.latch x) ∧
      t.pim.recs = s.pim.recs ∧ onlyPim t [])) ∧
    (s.poisoned (0x20000004 + 8 * p.val) 4 = false → ∀ w, Store.get none s.pim.latch q.id = some (p.val, w) → Ends (.pointStatusRead q p) s (fun t => t.bus = .data w ∧
      Store.get none t.pim.latch q.id = none ∧ t.pim.recs = s.pim.recs ∧ onlyPim t [])) ∧
    (s.poisoned (0x20000004 + 8 * p.val) 4 = false → (∀ w, Store.get none s.pim.latch q.id ≠ some (p.val, w)) → Ends (.pointStatusRead q p) s (fun t =>
      t.bus = .data (s.ptSecond p) ∧ t.pim.recs = s.pim.recs ∧ t.pim.latch = s.pim.latch ∧ onlyPim t [])) ∧
    (s.poisoned (0x20000004 + 8 * p.val) 4 = true → Ends (.pointStatusRead q p) s (fun t => t.bus = .error ∧ Unchanged s t)) ∧
    (∀ (c : Option Nat) (last : Bool) (r : Rng), s.mtr.paired = true → s.mtr.holder = false → s.flag R.PIM_STAT_RESYNC = true → s.rng p = some r → r.dir = 1 →
      Ends (.outputResyncPass [⟨p.val, v.toNat, c⟩] last) s (fun t => t.pim.passDone = (s.pim.passDone || last) ∧
        Store.get none t.pim.recs p = c.map (fun n => ⟨normPt r.type v.toNat, qualOf r.type (normPt r.type v.toNat), n⟩) ∧
        (∀ x, x ≠ p.val → Store.get none t.pim.recs x = Store.get none s.pim.recs x) ∧ t.outs = [] ∧
        (c.isSome = true → qualOf r.type (normPt r.type v.toNat) = 14 → Counted s t R.PIM_NONFIN_CNT_COUNT) ∧
        onlyPim t (if c.isSome = true ∧ qualOf r.type (normPt r.type v.toNat) = 14 then [R.PIM_NONFIN_CNT_COUNT] else [])))

/-- ARM, ABORT and FORCE set their bit of CAP_SETm_CTRL, to be sampled at a course start. A row of a set in ARMED without a trigger condition is stored, once every channel's bracketing samples have come, at its place in the segment under way: the set counts it, no other byte changes; while a sample is missing, or an edge that the row judges may still be a pulse shorter than 20 ns, nothing is stored. With FORCE sampled that row is the trigger row: POST, with the row's instant, and the bit in CAP_STAT.TRIG. Two edges of a trigger pin less than 20 ns apart are ignored; an edge that stands so long reaches each set that waits for it; in the 1 us of a set's REARM it counts as missed where it would trigger by itself, and from the end of the REARM on it is kept for the new segment; the end of a pulse drops TRIG_OUT. -/
def Obligations.CaptureCommands : Prop :=
  ∀ (s : State) (m : Fin 8) (i : Fin 4) (high : Bool) (tm : Nat),
    let u := (s.quiet.settlePins s.now).capPush m false
    let c := u.cset m
    let vals := c.chans.filterMap (fun x => (u.rowVal c x).map (fun v => (x, v)))
    let row := rowBytes vals 0
    let a := c.segAddr c.seg + 64 + (c.stored % max 1 c.segLen) * c.rowb
    let plain := c.st = 2 ∧ c.mode ≠ 2 ∧ (∀ x ∈ c.chans, x.len = 0) ∧ vals.length = c.chans.length ∧ u.pinsWait c (c.t0 + c.n * c.tick) = false ∧ c.rearm ≤ c.t0 + c.n * c.tick
    let stored (t : State) : Prop := (t.cset m).stored = c.stored + 1 ∧ (t.cset m).n = c.n + 1 ∧ (∀ j, j < row.length → t.byte (a + j) = BitVec.ofNat 8 (at_ row j)) ∧
      BytesBut s t a row.length ∧ t = { s with cap := t.cap, cas := t.cas, mem := t.mem, tst := t.tst, flds := t.flds, bus := t.bus, outs := t.outs }
    (s.reach (0x800C0100 + 0x80 * m.val) = true →
      Ends (.arm m) s (fun t => t.flag (R.CAP_SET_CTRL_ARM m) = true ∧ OnlyFlds s t [R.CAP_SET_CTRL_ARM m]) ∧
      Ends (.captureAbort m) s (fun t => t.flag (R.CAP_SET_CTRL_ABORT m) = true ∧ OnlyFlds s t [R.CAP_SET_CTRL_ABORT m]) ∧
      Ends (.force m) s (fun t => t.flag (R.CAP_SET_CTRL_FORCE m) = true ∧ OnlyFlds s t [R.CAP_SET_CTRL_FORCE m])) ∧
    (plain → c.hasTrig = false → c.force = false → Ends (.captureRow m) s (fun t => stored t ∧ (t.cset m).st = 2 ∧ (∀ j, j ≠ m.val → t.cset j = u.cset j) ∧ t.cas = s.cas ∧
      FldsBut u t [R.CAP_SET_STAT_STATE m])) ∧
    (plain → c.force = true → c.trigAt = none → 1 < c.post → Ends (.captureRow m) s (fun t => stored t ∧ (t.cset m).st = 3 ∧ (t.cset m).trigAt = some c.stored ∧
      (t.cset m).tInst = c.t0 + c.n * c.tick ∧ (t.cset m).postN = 1 ∧ bit (t.get R.CAP_STAT_TRIG) m = true ∧ t.flag (R.CAP_SET_CTRL_FORCE m) = false)) ∧
    (c.open_ = true → c.st ≠ 4 → vals.length ≠ c.chans.length ∨ u.pinsWait c (c.t0 + c.n * c.tick) = true → Ends (.captureRow m) s (fun t =>
      t.cset m = c ∧ t.mem = s.mem ∧ (∀ j, j ≠ m.val → t.cset j = u.cset j) ∧ FldsBut u t [R.CAP_SET_STAT_STATE m])) ∧
    ((∀ e ∈ s.cap.pend, tm < e.2.1 + 20) → Ends (.trigInEdge i high tm) s (fun t =>
      t.cap = { s.cap with pend := if s.cap.pend.any (fun e => e.1 == i.val) then s.cap.pend.filter (fun e => e.1 != i.val) else s.cap.pend ++ [(i.val, tm, high)] } ∧
      t = { s with cap := t.cap, bus := t.bus, outs := t.outs })) ∧
    (∀ at_ was, s.cap.pend = [(i.val, at_, was)] → at_ + 20 ≤ tm → (∀ k : Fin 8, (s.cset k).open_ = false) → Ends (.trigInEdge i high tm) s (fun t =>
      t.cap = { s.cap with pins := s.cap.pins.set i was, edges := [], pend := [(i.val, tm, high)] } ∧ t = { s with cap := t.cap, bus := t.bus, outs := t.outs })) ∧
    (∀ at_ was, s.cap.pend = [(i.val, at_, was)] → at_ + 20 ≤ tm → (s.cset m).open_ = true → (s.cset m).ta.kind = 10 → (s.cset m).ta.ch = i.val → (s.cset m).ta.fall = !was → Ends (.trigInEdge i high tm) s (fun t =>
      ((s.cset m).st ≠ 3 → (s.cset m).st ≠ 4 → (t.cset m).evts = (s.cset m).evts ++ [⟨10, i.val, b2n was, at_⟩]) ∧
      ((s.cset m).st = 4 → (s.cset m).rearm ≤ at_ → (t.cset m).evts = (s.cset m).evts ++ [⟨10, i.val, b2n was, at_⟩]) ∧
      ((s.cset m).st = 4 → (s.cset m).rearm ≤ at_ + 1000 → at_ < (s.cset m).rearm → (s.cset m).comb ≤ 1 →
        Counted s t (R.CAP_SET_MISS_CNT_MISSED_TRIG m) ∧ (t.cset m).missT = (s.cset m).missT.or (some at_)) ∧
      ((s.cset m).st = 4 → at_ + 1000 < (s.cset m).rearm → t.cset m = s.cset m) ∧
      t.cap.edges = (i.val, at_, was) :: s.cap.edges ∧ t.cap.pend = [(i.val, tm, high)] ∧ t.mem = s.mem)) ∧
    (Store.get 0 s.cap.pulses i ≠ 0 → Store.get 0 s.cap.pulses i ≤ tm → Ends (.trigOutPulseEnd i tm) s (fun t => t.outs = [.trigOut i false] ∧
      t.cap = { s.cap with pulses := t.cap.pulses } ∧ Store.get 0 t.cap.pulses i = 0 ∧ t = { s with cap := t.cap, bus := t.bus, outs := t.outs })) ∧
    (tm < Store.get 0 s.cap.pulses i → Ends (.trigOutPulseEnd i tm) s (fun t => Unchanged s t))

/-- In ACTIVE with the mailbox at rest a cycle start counts, puts the compared vector in force and forms the next one from the latched inputs; outside ACTIVE it writes its copies alone, and in OFF it does nothing; vectors that agree stand compared, others and late ones are an ISL_FAULT. A sample takes each input's level, and its filtered level outside blanking; a test pulse opens and closes its window, a second failed test of an input at the pulse of the same TP latches, and so does one of the TP itself. A stage under test is off in its pulse; one that reads on is tested again, also where a demand has taken the pulse over, and the repeat makes it transient or a lasting stuck-on fault, which switches the rest of its groups off; a contactor mismatch beyond T_CHK latches code 3. -/
def Obligations.IslandCycleAndTests : Prop :=
  ∀ (s : State) (raw : BitVec 32) (tp : BitVec 8) (j : Fin 8) (n : Fin 20) (fb : BitVec 16) (sense : BitVec 20) (kf : BitVec 4) (q : Fin 4),
    let i := s.isl
    let x := i.stage n
    let onlyIsl (t : State) (fs : List Fld) : Prop := FldsBut s t fs ∧ t = { s with isl := t.isl, flds := t.flds, bus := t.bus, outs := t.outs }
    let stageIs (t : State) (k : Nat) (y : Stg) : Prop := t.isl.stage k = y ∧ ∀ l, l ≠ k → t.isl.stage l = i.stage l
    let offed (t : State) (k : Nat) (y : Stg) : Prop := t.isl.stage k = y ∧ (∀ l, l ≠ k → t.isl.stage l = (if t.isl.allowed l then i.stage l else (i.stage l).off l)) ∧
      (y.flt = 1 → ∀ l, l < 20 → (i.outCfg l).groups &&& (i.outCfg k).groups ≠ 0 → (t.isl.stage l).cmd = false)
    let faulted (t : State) (code : Nat) : Prop := t.islSt = 4 ∧ t.get R.SAF_STAT_ISL_CODE = code ∧ t.get R.STP_SAFE_OFF0_SAFE_OFF = 2 ^ 32 - 1 ∧ t.get R.STP_SAFE_OFF1_SAFE_OFF = 2 ^ 16 - 1 ∧
      (∀ k, t.isl.stage k = Stg.init) ∧ t.isl.vec = none ∧ (∀ a y, (a, y) ∈ s.axes → (t.ax a).sto = true) ∧ t.mem = s.mem
    (∀ g, s.islSt = 2 → s.flag R.SAF_CMD_GO = false → i.cfg = some g → Ends .safetyCycleStart s (fun t =>
      t.get R.SAF_CYCLE_COUNT = (s.get R.SAF_CYCLE_COUNT + 1) % 2 ^ R.SAF_CYCLE_COUNT.w ∧ t.islSt = 2 ∧ t.isl.compared = false ∧ t.isl.ack = false ∧
      t.isl.vec = some (islEval g t.isl.inp t.isl.ev) ∧ t.isl.inp.ack = i.ack ∧ t.isl.inp.kf = i.kf ∧
      (∀ v, i.vec = some v → i.compared = true → t.isl.ev = v.ev ∧ t.isl.force = (v.so, v.ko, v.off)) ∧
      (i.compared = false → t.isl.ev = i.ev ∧ t.isl.force = i.force) ∧
      t = { s with isl := t.isl, axes := t.axes, chans := t.chans, mtr := t.mtr, flds := t.flds, bus := t.bus, outs := t.outs })) ∧
    (s.islSt ≠ 0 → s.islSt ≠ 2 → s.flag R.SAF_CMD_GO = false → Ends .safetyCycleStart s (fun t =>
      t.get R.SAF_CYCLE_COUNT = (s.get R.SAF_CYCLE_COUNT + 1) % 2 ^ R.SAF_CYCLE_COUNT.w ∧ t.get R.SAF_SO_ON = 0 ∧ t.get R.SAF_KO_ON = 0 ∧
      OnlyFlds s t [R.SAF_CYCLE_COUNT, R.SAF_SI_SI, R.SAF_SO_ON, R.SAF_SO_FB, R.SAF_KO_ON, R.SAF_KO_KF, R.SAF_OUTFLT_SO, R.SAF_OUTFLT_KO, R.SAF_VIOL0_VIOL, R.SAF_VIOL1_VIOL, R.SAF_STAT_FORCED_OFF, R.SAF_STAT_SHADOW])) ∧
    (s.islSt = 0 → Ends .safetyCycleStart s (fun t => Unchanged s t)) ∧
    (s.islSt = 2 → i.vec ≠ none → Ends (.vectorCompare true false) s (fun t => t.isl = { i with compared := true } ∧ onlyIsl t []) ∧
      Ends (.vectorCompare false false) s (fun t => faulted t 1) ∧ Ends (.vectorCompare true true) s (fun t => faulted t 2)) ∧
    (s.islSt = 2 → Ends (.siSample raw tp) s (fun t => (∀ k : Fin 32,
        let y := i.inps.getD k SInp.init
        let z := t.isl.inps.getD k SInp.init
        let run := if bit raw.toNat k = y.last ∧ 0 < y.run then y.run + 1 else 1
        z.raw = bit raw.toNat k ∧ (i.blanked k = true → z.filt = y.filt) ∧
        (i.blanked k = false → z.filt = (if (i.inCfg k).filt * 10 + 1 ≤ run then bit raw.toNat k else y.filt))) ∧
      t.isl.blank = i.blank - 1 ∧ t.isl.stg = i.stg ∧ onlyIsl t [R.SAF_INFLT_FLT, R.SAF_DIAG_TRANS])) ∧
    (∀ g, i.cfg = some g → bit g.tpEn j = true → s.tpDriven = true → Ends (.testPulseStart j) s (fun t =>
      (∃ w, t.isl = { i with win := some w } ∧ w.tp = j ∧ w.n = 0 ∧ w.ended = none ∧ w.hiHalf = 0 ∧ w.tpHigh = false) ∧ onlyIsl t [])) ∧
    (∀ w, i.win = some w → w.tp = j → w.ended = none → Ends (.testPulseEnd j) s (fun t => t.isl.win = some { w with ended := some 0 } ∧
      (∀ k : Fin 32, (i.inCfg k).tp = some j.val → bit w.before k = true → bit w.hiHalf k = true → bit (s.get R.SAF_INFLT_FLT) k = false → w.tpHigh = false →
        ((i.inps.getD k SInp.init).bad = 0 → k < i.inps.length → (t.isl.inps.getD k SInp.init).bad = 1 ∧ bit (t.get R.SAF_INFLT_FLT) k = false) ∧
        ((i.inps.getD k SInp.init).bad ≠ 0 → bit (t.get R.SAF_INFLT_FLT) k = decide ((i.inps.getD k SInp.init).by_ = j.val))) ∧
      (w.tpHigh = true → bit (s.get R.SAF_OUTFLT_TP) j = false → i.tpBad.getD j 0 ≠ 0 → bit (t.get R.SAF_OUTFLT_TP) j = true ∧
        ∀ k : Fin 32, (i.inCfg k).tp = some j.val → bit (t.get R.SAF_INFLT_FLT) k = true) ∧
      t.isl.stg = i.stg ∧ onlyIsl t [R.SAF_INFLT_FLT, R.SAF_OUTFLT_TP, R.SAF_DIAG_TRANS])) ∧
    Ends (.sofbSample fb sense kf) s (fun t => t.isl.fb = fb.toNat ∧ t.isl.sense = sense.toNat ∧ t.isl.kf = kf.toNat ∧
      (let next (y : Stg) : Stg := { y with settle := y.settle - 1 }
       let was (l : Nat) : Stg := if s.outsDriven || s.islShadow then i.stage l else (i.stage l).off l
       (∀ k : Fin 4, 16 + k.val < i.stg.length → bit kf.toNat k ≠ bit i.kf k → t.isl.stage (16 + k) = { next (was (16 + k)) with chk := true }) ∧
       (∀ k : Fin 4, bit kf.toNat k = bit i.kf k → t.isl.stage (16 + k) = next (was (16 + k))) ∧ (∀ k, k < 16 → t.isl.stage k = next (was k))) ∧
      t.isl = { i with stg := t.isl.stg, fb := fb.toNat, sense := sense.toNat, kf := kf.toNat } ∧ onlyIsl t []) ∧
    ((i.outCfg n).test = true → s.outsDriven = true → x.on = true → Ends (.outputTestPulseStart n) s (fun t => stageIs t n { x with pulse := true, judged := false } ∧ onlyIsl t [])) ∧
    (x.pulse = true → Ends (.outputTestPulseEnd n) s (fun t =>
      stageIs t n { x with pulse := false, judged := false, settle := 4, retest := x.retest || i.testOn n } ∧ onlyIsl t [])) ∧
    (x.retest = true → Ends (.outputTestRepeat n true) s (fun t => stageIs t n { x with retest := false } ∧ Counted s t R.SAF_DIAG_TRANS ∧ onlyIsl t [R.SAF_DIAG_TRANS]) ∧
      Ends (.outputTestRepeat n false) s (fun t => offed t n { x.off n with flt := 1, pulse := false, retest := false, mis := 0 } ∧ onlyIsl t [])) ∧
    (let y := i.stage (16 + q)
     y.chk = true → y.cmd = bit i.kf q → cyc (i.outCfg (16 + q)).tchk < y.chkT → y.flt = 0 → Ends (.kfCheckTimeout q) s (fun t =>
      offed t (16 + q) { y.off (16 + q) with flt := 3, pulse := false, retest := false, mis := 0, chk := false, chkT := 0 } ∧ onlyIsl t []))

/-- A connection whose watchdog has run out latches, and its SAF_CONN bit is set; a clock deviation above 2 percent is ISL_FAULT 3; at the STO instant of an SS1 the axis loses torque, an elapsed timer shows in the vector under way, and a brake that has not followed latches and takes the torque. The island starts in ACTIVE with the CRC of its section where the section and the self-test pass, in CONFIG_ERR 6 without a good section, in ISL_FAULT 4 where the self-test fails and in ISL_FAULT 5 where an ECC error lasts, as a periodic self-test does in ACTIVE; a transient one is counted. ACK, RESTART and NSREQ are written with GO and ignored while GO reads 1; the next cycle start answers them: ACK and NSREQ with RESULT 0; RESTART resets PD1 from CONFIG_ERR or ISL_FAULT, recorded as SAFETY, and is refused with 2 otherwise. -/
def Obligations.IslandDecisionsAndMailbox : Prop :=
  ∀ (s : State) (c : Fin 64) (ppm : Int) (arg : BitVec 8),
    let i := s.isl
    let onlyIsl (t : State) (fs : List Fld) : Prop := FldsBut s t fs ∧ t = { s with isl := t.isl, flds := t.flds, bus := t.bus, outs := t.outs }
    let faulted (t : State) (code : Nat) : Prop := t.islSt = 4 ∧ t.get R.SAF_STAT_ISL_CODE = code ∧ t.get R.STP_SAFE_OFF0_SAFE_OFF = 2 ^ 32 - 1 ∧ t.get R.STP_SAFE_OFF1_SAFE_OFF = 2 ^ 16 - 1 ∧
      (∀ k, t.isl.stage k = Stg.init) ∧ t.isl.vec = none ∧ t.mem = s.mem
    let answered (t : State) (r : Nat) : Prop := t.get R.SAF_RESP_RESULT = r ∧ t.flag R.SAF_CMD_GO = false ∧ t.get R.SAF_RESP_CYCLE = t.get R.SAF_CYCLE_COUNT % 2 ^ R.SAF_RESP_CYCLE.w
    let copies := [R.SAF_CYCLE_COUNT, R.SAF_SI_SI, R.SAF_SO_ON, R.SAF_SO_FB, R.SAF_KO_ON, R.SAF_KO_KF, R.SAF_OUTFLT_SO, R.SAF_OUTFLT_KO, R.SAF_VIOL0_VIOL, R.SAF_VIOL1_VIOL, R.SAF_STAT_FORCED_OFF, R.SAF_STAT_SHADOW]
    let respFlds := [R.SAF_RESP_RESULT, R.SAF_CMD_GO, R.SAF_RESP_CYCLE] ++ copies
    let given (t : State) (op v : Nat) : Prop := t.get R.SAF_CMD_OP = op ∧ t.get R.SAF_CMD_ARG = v ∧ t.flag R.SAF_CMD_GO = true ∧ OnlyFlds s t [R.SAF_CMD_OP, R.SAF_CMD_ARG, R.SAF_CMD_GO]
    let cycles (t : State) : Prop := t.mem = s.mem ∧ t = { s with isl := t.isl, axes := t.axes, chans := t.chans, mtr := t.mtr, flds := t.flds, bus := t.bus, outs := t.outs }
    let wd := if c.val < 32 then R.SAF_CONN0_WD else R.SAF_CONN1_WD
    (∀ r, Store.get none i.rx c = some r → r.wd = 0 → r.lat = false → s.islSt = 2 → Ends (.connectionWatchdogExpire c) s (fun t =>
      Store.get none t.isl.rx c = some { r with lat := true, since := false } ∧ (∀ d, d ≠ c.val → Store.get none t.isl.rx d = Store.get none i.rx d) ∧
      t.get wd = (s.get wd ||| 2 ^ (c.val % 32)) % 2 ^ 32 ∧ t.isl = { i with rx := t.isl.rx } ∧ onlyIsl t [wd])) ∧
    (20000 < ppm.natAbs → s.islSt = 1 ∨ s.islSt = 2 → Ends (.islandClockCheck ppm) s (fun t => faulted t 3)) ∧
    (ppm.natAbs ≤ 20000 → Ends (.islandClockCheck ppm) s (fun t => Unchanged s t)) ∧
    (∀ a, i.cfg.bind (fun g => g.axisOf c) = some a → ((i.ev.conn c).ss1 = some 0 ∨ (i.ev.conn c).vss1 = some 0) → Ends (.ss1StoInstant c) s (fun t =>
      t.ax a.axis = { s.ax a.axis with sto := true } ∧ (∀ b, b ≠ a.axis → t.ax b = s.ax b) ∧ t = { s with axes := t.axes, bus := t.bus, outs := t.outs })) ∧
    (∀ g v, i.cfg = some g → i.vec = some v → Ends .logicTimerExpire s (fun t => t.isl = { i with vec := some (islEval g i.inp i.ev) } ∧ onlyIsl t [])) ∧
    (∀ a r, i.cfg.bind (fun g => g.axisOf c) = some a → Store.get none i.rx c = some r → (i.ev.conn c).sbcT = some 0 → (i.ev.conn c).brk = bit (if r.lat then 0 else r.data) 35 →
      Ends (.sbcFault c) s (fun t => (t.isl.ev.conn c).sbcF = true ∧ (t.isl.ev.conn c).tq = false ∧ (t.isl.ev.conn c).brk = false ∧ bits (t.isl.ev.conn c).data 0 2 = 0 ∧
        (t.ax a.axis).sto = true ∧ (∀ b, b ≠ a.axis → t.ax b = s.ax b) ∧ (∀ d, d ≠ c.val → t.isl.ev.conn d = i.ev.conn d) ∧
        t = { s with isl := t.isl, axes := t.axes, bus := t.bus, outs := t.outs })) ∧
    (∀ g st, s.islSt = 1 → s.dev ≠ .boot → s.domUp 1 = true → i.cfg = some g → g.ok (fun a => (s.ax a).assigned) (s.flag R.NVM_FUSE_LOCK) = true →
      (st = .pass ∨ st = .transient → Ends (.islandStart st) s (fun t => t.islSt = 2 ∧ t.isl = { Isl.init (some g) with resume := if s.shadows then 15 else 0 } ∧ t.get R.SAF_CFG_CRC_CRC = g.crc2 % 2 ^ 32 ∧
        (st = .transient → Counted s t R.SAF_DIAG_TRANS) ∧ onlyIsl t ((if st = .transient then [R.SAF_DIAG_TRANS] else []) ++ [R.SAF_STAT_STATE, R.SAF_CFG_CRC_CRC]))) ∧
      (st = .fail → Ends (.islandStart st) s (fun t => faulted t 4)) ∧ (st = .lasting → Ends (.islandStart st) s (fun t => faulted t 5))) ∧
    (∀ st, s.islSt = 1 → s.dev ≠ .boot → s.domUp 1 = true → st ≠ .lasting → (∀ g, i.cfg = some g → g.ok (fun a => (s.ax a).assigned) (s.flag R.NVM_FUSE_LOCK) = false) → Ends (.islandStart st) s (fun t =>
      t.islSt = 3 ∧ t.get R.SAF_STAT_ISL_CODE = 6 ∧ t.isl = i ∧ t.mem = s.mem)) ∧
    (s.islSt = 2 → s.domUp 1 = true → Ends (.islandStart .pass) s (fun t => Unchanged s t) ∧ Ends (.islandStart .transient) s (fun t => Counted s t R.SAF_DIAG_TRANS ∧ OnlyFlds s t [R.SAF_DIAG_TRANS]) ∧
      Ends (.islandStart .fail) s (fun t => faulted t 4) ∧ Ends (.islandStart .lasting) s (fun t => faulted t 5)) ∧
    (s.reach 0x800D0004 = true → s.flag R.SAF_CMD_GO = false →
      Ends .ack s (fun t => given t 1 0) ∧ Ends .restart s (fun t => given t 2 0) ∧ Ends (.nsreq arg) s (fun t => given t 3 arg.toNat)) ∧
    (s.reach 0x800D0004 = true → s.flag R.SAF_CMD_GO = true →
      Ends .ack s (fun t => Unchanged s t) ∧ Ends .restart s (fun t => Unchanged s t) ∧ Ends (.nsreq arg) s (fun t => Unchanged s t)) ∧
    (s.flag R.SAF_CMD_GO = true → s.islSt ≠ 0 → Ends .safetyCycleStart s (fun t =>
      (s.get R.SAF_CMD_OP = 1 → answered t 0 ∧ (s.islSt ≠ 2 → t.isl = { i with ack := false } ∧ onlyIsl t respFlds) ∧ (s.islSt = 2 → i.cfg.isSome = true → t.isl.inp.ack = true ∧ t.isl.ack = false ∧ cycles t)) ∧
      (s.get R.SAF_CMD_OP = 3 → answered t 0 ∧ t.get R.SAF_NS_NS = s.get R.SAF_CMD_ARG % 2 ^ R.SAF_NS_NS.w ∧ (s.islSt ≠ 2 → t.isl = i ∧ onlyIsl t (R.SAF_NS_NS :: respFlds)) ∧ (s.islSt = 2 → cycles t)) ∧
      (s.get R.SAF_CMD_OP = 2 → s.islSt = 3 ∨ s.islSt = 4 → answered t 0 ∧ t.islSt = 1 ∧ t.isl = Isl.init i.cfg ∧ t.flag R.PWR_RST_CAUSE_SAFETY = true ∧ Counted s t R.PWR_RST_CNT_WARM ∧ t.mem = s.mem) ∧
      (s.get R.SAF_CMD_OP = 2 → s.islSt ≠ 3 → s.islSt ≠ 4 → answered t 2 ∧ (s.islSt = 1 → t.isl = i ∧ onlyIsl t respFlds) ∧ (s.islSt = 2 → cycles t))))

/-- A frame whose CRC fails or that is out of sequence changes nothing and is not acknowledged. In sequence it is, and: RENEW gives a standby its grant, and a higher epoch takes the keystone from a HOLDER; JOURNAL writes its entry and is answered with JACK; JACK releases the acknowledgement that waits; a COPY is taken by a standby with the schedule state that it carries, and the copy of the course before ends the tick that its course start began, or, where its loss sets differ, is taken whole at the next; a safety vector and digests are compared, the second mismatch in a row sets SAFE_DIV and is counted, as a further one of the run is not, or sets DIVERGENCE with a quick self-test; WEATHER fills the WX_ registers, and a peer without the journal is sent it; the first BULK of a transfer replaces the journal and the last makes it complete; HELLO is answered with the own one and brings the link up; HANDOVER ends the grant with its course. An unacknowledged frame is sent again; a lasting failure or a link down parts the members. -/
def Obligations.MortarFrames : Prop :=
  ∀ (s : State) (f : MtrFrm) (i : Fin 256) (e : JEnt) (n course cycle : Nat) (words : List Nat) (d : List (Nat × Bool)) (c : StateCopy) (w : Weather) (b : Bulk) (h : Hello) (seq : BitVec 16),
    let rx := (s.mtr.rx + 1) % 65536
    let frame (t : State) : Prop := t = { s with mtr := t.mtr, pim := t.pim, isl := t.isl, chans := t.chans, axes := t.axes, dev := t.dev, holdBy := t.holdBy, hst := t.hst, cas := t.cas, tst := t.tst, flds := t.flds, bus := t.bus, outs := t.outs }
    let copied (t : State) : Prop := t = { s with mtr := t.mtr, pim := t.pim, isl := t.isl, chans := t.chans, axes := t.axes, grps := t.grps, loops := t.loops, upd := t.upd, crs := t.crs, mem := t.mem, dev := t.dev, holdBy := t.holdBy, hst := t.hst, cas := t.cas, tst := t.tst, flds := t.flds, bus := t.bus, outs := t.outs }
    let only (t : State) (m : Mtr) (fs : List Fld) : Prop := t.mtr = m ∧ FldsBut s t fs ∧ t = { s with mtr := t.mtr, flds := t.flds, bus := t.bus, outs := t.outs }
    let said (t : State) : Prop := t.mtr.said = true ∧ Out.mortarAck f.seq ∈ t.outs ∧ (s.mtr.said = false → Out.mortar s.mtr.tx (.hello s.hello) ∈ t.outs)
    let parted (t : State) : Prop := t.flag R.MTR_STAT_LINK_UP = false ∧ t.flag R.JNL_STAT_SYNCED = false ∧
      (s.mtr.holder = true → t.mtr.role = .holder ∧ t.flag R.MTR_STAT_SOLO = true) ∧
      (s.mtr.holder = false → t.mtr.role = (if s.mtr.role = .unhealthy then .unhealthy else .detached) ∧ t.mtr.pairAct = false ∧ t.mtr.end_ = none) ∧ frame t
    (s.frameOk f = false → ∀ k, k ∈ [Instr.renew f n course cycle, .journal f i e, .jack f i, .safetyFrame f cycle words, .digest f course d, .copy f c, .weather f w, .bulk f b, .handoverFrame f course] →
      Ends k s (fun t => Unchanged s t)) ∧
    (s.frameOk f = true →
      (s.mtr.holder = false → course ≤ cycle → Ends (.renew f n course cycle) s (fun t => t.get R.MTR_EPOCH_PEER_EPOCH = n % 65536 ∧ t.mtr = { s.mtr with rx := rx, granted := some cycle, renewed := some course, margin := none } ∧
        t.isl = { s.isl with holdBlank := false, renewInps := s.isl.inps } ∧ t.outs = [.mortarAck f.seq] ∧ FldsBut s t [R.MTR_EPOCH_PEER_EPOCH] ∧ frame t)) ∧
      (s.mtr.holder = true → course ≤ cycle → epHigher (n % 65536) (s.get R.MTR_EPOCH_EPOCH) = true → Ends (.renew f n course cycle) s (fun t =>
        t.flag R.MTR_STAT_EPOCH_LOST = true ∧ t.mtr.holder = false ∧ t.mtr.fence = 0 ∧ t.mtr.pairAct = false ∧ t.permit = false ∧ frame t)) ∧
      (s.mtr.holder = false → Ends (.journal f i e) s (fun t => (∃ tk, t.jnl.ent i = some { e with taken := tk, ack := none }) ∧ (∀ j, j ≠ i.val → t.jnl.ent j = s.jnl.ent j) ∧
        t.outs = [.mortarAck f.seq, .mortar s.mtr.tx (.jack i)] ∧ t.mtr.rx = rx ∧ t.flds = s.flds ∧ frame t)) ∧
      (s.mtr.holder = true → ∀ x code, s.jnl.ent i = some x → x.ack = some code → Ends (.jack f i) s (fun t => t.jnl.ent i = some { x with ack := none } ∧
        (∀ j, j ≠ i.val → t.jnl.ent j = s.jnl.ent j) ∧ t.mtr.rx = rx ∧ frame t)) ∧
      (∀ v p, s.isl.vec = some v → s.mtr.holder = false → s.mtr.peer = some p → p.safCrc = s.get R.SAF_CFG_CRC_CRC → s.islSt = 2 → Ends (.safetyFrame f cycle words) s (fun t =>
        (v.words = words → t.isl.shadowMis = 0 ∧ t.flds = s.flds) ∧ (v.words ≠ words → s.isl.shadowMis = 0 → t.isl.shadowMis = 1 ∧ t.flds = s.flds) ∧
        (v.words ≠ words → s.isl.shadowMis = 1 → t.isl.shadowMis = 2 ∧ t.flag R.SAF_STAT_SAFE_DIV = true ∧ Counted s t R.WX_DIV_SAFE_DIV) ∧
        (v.words ≠ words → 2 ≤ s.isl.shadowMis → t.isl.shadowMis = 3 ∧ t.flag R.SAF_STAT_SAFE_DIV = true ∧ t.get R.WX_DIV_SAFE_DIV = s.get R.WX_DIV_SAFE_DIV) ∧
        t.isl = { s.isl with shadowMis := t.isl.shadowMis } ∧ t.mtr = { s.mtr with rx := rx } ∧ frame t)) ∧
      (s.mtr.digs = [] → d ≠ [] → s.ownDigs course = none → s.crs.cnt < course + 4 → Ends (.digest f course d) s (fun t => t.mtr = { s.mtr with rx := rx, digs := [(course, d)] } ∧ t.flds = s.flds ∧ frame t)) ∧
      (∀ own, s.mtr.digs = [] → d ≠ [] → s.ownDigs course = some own → (own.zip d).any (fun (x, y) => !x.2 && !y.2) = true → s.mtr.excl.contains course = false → s.flag R.MTR_STAT_IMG_DIFF = false → s.mtr.holder = false → Ends (.digest f course d) s (fun t =>
        let bad := (own.zip d).any (fun (x, y) => !x.2 && !y.2 && x.1 != y.1)
        Counted s t R.MTR_DIG_CMP_COMPARED ∧ t.mtr.digs = [] ∧ (bad = false → t.mtr.misRun = 0) ∧ (bad = true → Counted s t R.MTR_DIV_CNT_MISMATCH) ∧
        (bad = true → s.mtr.misRun = 1 → t.flag R.MTR_STAT_DIVERGENCE = true ∧ Counted s t R.MTR_DIV_CNT_DIVERGENCES ∧ t.flag R.MTR_STAT_TEST_RUN = true ∧ t.mtr.adopt = true) ∧ frame t)) ∧
      (let diff := decide (s.crs.cnt = c.crs + 1) && !sameLoss s.mtr.lossPrev c.loss
       s.mtr.holder = false → s.mtr.half = false ∨ s.crs.cnt ≠ c.crs + 1 ∨ diff = true → Ends (.copy f c) s (fun t => t.mtr.copyAt = some c.crs ∧ t.mtr.copyMiss = 0 ∧ t.mtr.mirror = c.mirror ∧ t.mtr.adopt = false ∧
        t.mtr.copySch = some ⟨c.crs, s.crs.cnt - c.crs, c.sched, c.swTo, c.swLeft⟩ ∧ (s.mtr.adopt = true ∨ diff = true → t.mtr.end_ = some c) ∧ (diff = true → t.mtr.half = false ∧ c.crs ∈ t.mtr.excl) ∧
        t.get R.MTR_COPY_BYTES = c.size % 2 ^ 16 ∧ ((∀ x ∈ c.chans, x.2.frozen = false) → t.axes = s.axes) ∧ copied t)) ∧
      (s.mtr.holder = false → s.mtr.half = true → s.crs.cnt = c.crs + 1 → Ends (.copy f c) s (fun t => t.mtr.half = false ∧ copied t)) ∧
      (s.mtr.holder = true → Ends (.weather f w) s (fun t => t.flag R.WX_STAT_VALID = true ∧ t.flag R.WX_STAT_READY = w.ready ∧ t.get R.WX_STAT_SEQ = w.seq % 2 ^ 16 ∧ t.get R.WX_STAT_AGE_MS = 0 ∧
        (w.ready = true → t.flag R.MTR_STAT_SOLO = false ∧ t.flag R.JNL_STAT_SYNCED = w.jnlSync) ∧ (w.ready = true ∨ w.jnlSync = true → t.mtr = { s.mtr with rx := rx, wxAt := s.now } ∧ t.outs = [.mortarAck f.seq]) ∧
        (w.ready = false → w.jnlSync = false → t.outs = [.mortarAck f.seq, .mortar s.mtr.tx (.bulk s.bulk)]) ∧ frame t)) ∧
      (s.mtr.holder = false → Ends (.bulk f b) s (fun t => (b.last = true → t.mtr.jnlOk = true ∧ t.mtr.bulkOn = false ∧ t.flag R.JNL_STAT_SYNCED = true) ∧
        (∀ x, b.ents = [(i.val, x)] → t.jnl.ent i = some { x with ack := none } ∧ ∀ j, j ≠ i.val → t.jnl.ent j = (if s.mtr.bulkOn then s.jnl.ent j else none)) ∧ t.axes = s.axes ∧ frame t)) ∧
      (s.mtr.holder = false → Ends (.handoverFrame f course) s (fun t => only t { s.mtr with rx := rx, granted := some course } []))) ∧
    (s.mtr.paired = true → f.crcOk = true → h.sysRev ≠ s.sysRev → Ends (.hello f h) s (fun t => t.flag R.MTR_STAT_REV_DIFF = true ∧ said t ∧ only t { s.mtr with said := true, tx := t.mtr.tx } [R.MTR_STAT_REV_DIFF])) ∧
    (s.mtr.paired = true → f.crcOk = true → h.sysRev = s.sysRev → h.sysId = s.get R.SYS_ID_DEVICE → h.memberB ≠ s.flag R.MTR_STAT_MEMBER → Ends (.hello f h) s (fun t =>
      t.mtr.peer = some h ∧ t.mtr.rx = (f.seq + 1) % 65536 ∧ t.get R.MTR_EPOCH_PEER_EPOCH = h.epoch % 2 ^ 16 ∧ t.flag R.MTR_STAT_IMG_DIFF = (!s.mtr.holder && h.img != s.mtr.img) ∧ t.flag R.MTR_STAT_LINK_UP = true ∧ said t ∧
      (s.linkUp = false → s.mtr.holder = true → ∃ q, Out.mortar q (.bulk s.bulk) ∈ t.outs) ∧
      (s.linkUp = false → s.mtr.role = .unhealthy → t.mtr.role = .unhealthy) ∧
      (s.linkUp = false → s.mtr.role = .detached → s.mtr.unfit = false → t.mtr.role = .syncing ∧ t.mtr.adopt = true ∧ t.flag R.PIM_STAT_RESYNC = true) ∧ t.axes = s.axes ∧ frame t)) ∧
    (s.mtr.paired = true → s.linkUp = true →
      Ends (.frameAckTimeout seq false true) s (fun t => t.outs = [.mortarAgain seq.toNat] ∧ Counted s t R.MTR_LINK_CNT_RETRIED ∧ OnlyFlds s t [R.MTR_LINK_CNT_RETRIED]) ∧
      (s.mtr.copyMiss = 0 → Ends (.frameAckTimeout seq true false) s (fun t => t.outs = [.mortarAgain seq.toNat] ∧ only t { s.mtr with copyMiss := 1 } [])) ∧
      Ends (.frameAckTimeout seq false false) s (fun t => Counted s t R.MTR_LINK_CNT_LASTING ∧ t.flag R.MTR_STAT_LINK_LOST = true ∧ t.mtr.said = true ∧ parted t) ∧
      Ends .mortarLinkDown s (fun t => t.mtr.said = false ∧ parted t))

/-- The fence's end takes the keystone from its HOLDER. A READY standby blanks its tested inputs in a course that has brought no renewal, and has them as they were at the last one, and without a grant starts its margin course, probes with PAIR_ACT high, and confirms: it becomes HOLDER with a new epoch and a full fence, or backs off with CLAIM_TIE where the peer is active; PEER_ACT is followed, and with the keystone held sets PEER_CONFLICT. A standby sends its report and keeps it; no report for 3 ms clears VALID. A quick self-test ends with its outcome for both members. A handover is begun where the peer is READY in every respect and refused with HO_ERR otherwise. Each device command acts and completes its journal entry with the result code. -/
def Obligations.KeystoneAndDeviceCommands : Prop :=
  ∀ (s : State) (own peer : Bool),
    let m := s.mtr
    let frame (t : State) : Prop := t = { s with mtr := t.mtr, pim := t.pim, isl := t.isl, chans := t.chans, axes := t.axes, dev := t.dev, holdBy := t.holdBy, hst := t.hst, cas := t.cas, tst := t.tst, flds := t.flds, bus := t.bus, outs := t.outs }
    let only (t : State) (fs : List Fld) : Prop := FldsBut s t fs ∧ t = { s with mtr := t.mtr, flds := t.flds, bus := t.bus, outs := t.outs }
    let mayHand := m.holder = true ∧ s.peerReady = true ∧ s.flag R.WX_STAT_OUT_SYNC = true ∧ s.flag R.WX_STAT_JNL_SYNC = true ∧ ∃ p, m.peer = some p ∧ p.sfc = m.sfc
    let device (k : Instr) (op : Nat) (code : Nat) (eff : State → Prop) : Prop := s.leads = true → ∀ i e, s.jnl.next (fun o => o == op) = some (i, e) → Ends k s (fun t =>
      t.jnl.ent i = some { e with res := some (leBytes code 4, s.crs.cnt), taken := true } ∧ (∀ j, j ≠ i → t.jnl.ent j = s.jnl.ent j) ∧ eff t ∧
      t = { s with mtr := t.mtr, crs := t.crs, tim := t.tim, dev := t.dev, holdBy := t.holdBy, axes := t.axes, hst := t.hst, cas := t.cas, flds := t.flds, bus := t.bus, outs := t.outs })
    let blanked (t : State) : Prop := t.isl = { s.isl with holdBlank := true, inps := t.isl.inps } ∧ (s.isl.holdBlank = true → t.isl.inps = s.isl.inps) ∧
      (s.isl.holdBlank = false → ∀ k x y, s.isl.inps[k]? = some x → (s.isl.inCfg k).tp ≠ none → s.isl.renewInps[k]? = some y → (t.isl.inps.getD k SInp.init).filt = y.filt) ∧
      (∀ k : Nat, (s.isl.inCfg k).tp = none → t.isl.inps[k]? = s.isl.inps[k]?)
    (m.paired = true → m.holder = true → Ends .fenceExpire s (fun t => t.mtr.holder = false ∧ t.mtr.fence = 0 ∧ t.mtr.pairAct = false ∧ t.permit = false ∧
      Counted s t R.MTR_SO_CNT_RELEASES ∧ t.flag R.MTR_STAT_SOLO = false ∧ frame t)) ∧
    (m.holder = false → Ends .fenceExpire s (fun t => Unchanged s t)) ∧
    (m.role = .ready → s.dev = .run → (∀ g, m.granted = some g → g < s.crs.cnt) → Ends .leaseCheck s (fun t => t.mtr = { m with margin := some s.crs.cnt } ∧
      (m.renewed = some s.crs.cnt → t.isl = s.isl) ∧ (m.renewed ≠ some s.crs.cnt → blanked t) ∧ t.flds = s.flds ∧ frame t)) ∧
    (∀ g, m.granted = some g → s.crs.cnt ≤ g →
      (m.role ≠ .ready ∨ m.renewed = some s.crs.cnt → Ends .leaseCheck s (fun t => Unchanged s t)) ∧
      (m.role = .ready → m.renewed ≠ some s.crs.cnt → Ends .leaseCheck s (fun t => t.mtr = m ∧ blanked t ∧ t.flds = s.flds ∧ frame t))) ∧
    (m.role = .ready → s.dev = .run → m.margin = some s.crs.cnt → m.retry ≤ s.crs.cnt → m.peerAct = false → Ends .claimProbe s (fun t => t.mtr = { m with pairAct := true, probing := true } ∧ only t [])) ∧
    (m.peerAct = true → Ends .claimProbe s (fun t => Unchanged s t)) ∧
    (m.probing = true → m.peerAct = true → Ends .claimConfirm s (fun t => t.mtr = { m with pairAct := false, probing := false, retry := s.crs.cnt + (if s.flag R.MTR_STAT_MEMBER then 3 else 1) } ∧
      t.flag R.MTR_STAT_CLAIM_TIE = true ∧ only t [R.MTR_STAT_CLAIM_TIE])) ∧
    (m.probing = true → m.peerAct = false → Ends .claimConfirm s (fun t => t.mtr.role = .holder ∧ t.mtr.fence = s.lease * s.get R.BOND_CRS_PERIOD_PERIOD_NS * 25 / 1000 ∧ t.mtr.pairAct = true ∧ t.mtr.probing = false ∧
      t.get R.MTR_EPOCH_EPOCH = s.claimEpoch ∧ Counted s t R.MTR_SO_CNT_CLAIMS ∧ t.flag R.MTR_STAT_SOLO = !s.linkUp ∧ t.get R.BOND_START_STATE = 3 ∧ t.isl.blank = 10 ∧ (m.copySch = none → t.crs = s.crs) ∧
      (∀ k, m.copySch = some k → k.swTo = none → t.crs.swTo = none ∧ t.get R.BOND_CRS_STAT_SCHED_CUR = k.sched % 2 ^ R.BOND_CRS_STAT_SCHED_CUR.w ∧ t.get R.BOND_CRS_STAT_SW_LEFT = 0) ∧
      t = { t with dev := s.dev, holdBy := s.holdBy, hst := s.hst, tst := s.tst } ∧ frame { t with crs := s.crs, rings := s.rings })) ∧
    Ends .peerActRise s (fun t => t.mtr = { m with peerAct := true } ∧ t.permit = false ∧ (m.holder = true → m.pairAct = true → t.flag R.MTR_STAT_PEER_CONFLICT = true) ∧
      FldsBut s t [R.MTR_STAT_PEER_CONFLICT] ∧ frame t) ∧
    Ends .peerActFall s (fun t => t.mtr = { m with peerAct := false, conflict := 0 } ∧ t.flds = s.flds ∧ frame t) ∧
    (m.role = .syncing ∨ m.role = .ready ∨ m.role = .unhealthy → Ends .weatherSend s (fun t => t.mtr.wxSeq = (m.wxSeq + 1) % 65536 ∧ t.mtr.wxAt = s.now ∧ t.flag R.WX_STAT_VALID = true ∧ t.flag R.WX_STAT_READY = (m.role == .ready) ∧
      (s.linkUp = true → t.outs = [.mortar m.tx (.weather s.weather)]) ∧ frame { t with free := s.free })) ∧
    (m.wxAt + 3000000 ≤ s.now → s.flag R.WX_STAT_VALID = true → Ends .weatherTimeout s (fun t => t.flag R.WX_STAT_VALID = false ∧ OnlyFlds s t [R.WX_STAT_VALID])) ∧
    (s.now < m.wxAt + 3000000 → Ends .weatherTimeout s (fun t => Unchanged s t)) ∧
    (s.tst.run = .quick → Ends (.quickSelfTestEnd own peer) s (fun t => t.flag R.MTR_STAT_TEST_RUN = false ∧ (s.tst.waits.contains .quick = false → t.tst.run ≠ .quick) ∧
      (m.paired = true → t.mtr.testRes = (if own && peer then 1 else if (if m.holder then own else peer) then 2 else 3)) ∧
      (m.paired = true → m.holder = false → own = false → t.mtr.role = .unhealthy) ∧
      (m.paired = false → own = false → s.dev = .run → t.dev = .safeHold ∧ t.holdBy = [.selfTest]) ∧ (own = true → t.dev = s.dev ∧ t.axes = s.axes) ∧ frame t)) ∧
    (s.reach 0x800E0000 = true →
      (mayHand → Ends .handoverRequest s (fun t => t.flag R.MTR_CTRL_HANDOVER = true ∧ t.mtr = { m with relDue := m.lastRenew.isNone } ∧ only t [R.MTR_CTRL_HANDOVER])) ∧
      (¬mayHand → Ends .handoverRequest s (fun t => t.flag R.MTR_CTRL_HANDOVER = false ∧ t.flag R.MTR_STAT_HO_ERR = true ∧ OnlyFlds s t [R.MTR_CTRL_HANDOVER, R.MTR_STAT_HO_ERR]))) ∧
    (∀ o tm, s.root = true → s.tim.last = some (o, tm) → s.now ≤ tm + 1000000000 → s.lineStill = true → device .timeRestep 0x8001 0 (fun t => t.tim = { s.tim with stepBy := some (o, s.tim.stepBy.any (fun x => x.2.1), true) } ∧ t.flds = s.flds)) ∧
    (s.root = false → device .timeRestep 0x8001 2 (fun t => t.tim = s.tim ∧ t.flds = s.flds)) ∧
    (mayHand → device .handover 0x8002 0 (fun t => t.flag R.MTR_CTRL_HANDOVER = true ∧ t.mtr.relDue = m.lastRenew.isNone ∧ FldsBut s t [R.MTR_CTRL_HANDOVER])) ∧
    (∀ e j, s.jnl.next (fun o => o == 0x8003) = some e → at_ e.2.body 0 = j → j < 4 → s.crs.swTo = none → s.heads = true → s.subPosition = false → s.schedIn j = true → j ≠ s.get R.BOND_CRS_STAT_SCHED_CUR →
      device .schedSwitch 0x8003 0 (fun t => t.crs.swTo = some j ∧ t.get R.BOND_CRS_CTRL_SCHED_NEXT = j ∧ FldsBut s t [R.BOND_CRS_CTRL_SCHED_NEXT, R.BOND_CRS_CTRL_SW_GO])) ∧
    (s.dev = .run → device .safeHoldEnter 0x8004 0 (fun t => t.dev = .safeHold ∧ t.holdBy = [.host] ∧ t.flds = s.flds)) ∧
    (s.dev = .safeHold → s.allStill = true → s.holdBy.all s.holdGone = true → device .safeHoldLeave 0x8005 0 (fun t => t.dev = .run ∧ t.holdBy = [] ∧ t.axes = s.axes ∧ t.flds = s.flds)) ∧
    (s.dev = .safeHold → s.allStill = false → device .safeHoldLeave 0x8005 1 (fun t => t.dev = .safeHold ∧ t.holdBy = s.holdBy ∧ t.flds = s.flds))

/-- JNL_TAKE takes the next released entry of the firmware and leaves every other; JNL_DONE gives a released entry its result from application SRAM with RESULT 0, and answers 1, 2, 3 or 4 for a free entry, one not released or already completed, a result too long, and a device that does not lead; an entry whose words no longer check is freed first, with LOST; an idle client's slot is freed. A valid COMMAND for this position that is judged new enters the journal with its sequence number, body and course of acceptance; a SERVICE message enters the firmware's receive ring or sets RX_OVF. A message that the FIFO cannot take, or that fails the checks of its bytes or of its kind on its port, counts and changes nothing else; a packet that the checks of R329 drop changes nothing. A transmit HEAD empties the ring, and a slot goes out to its address. -/
def Obligations.JournalAndHostMessages : Prop :=
  ∀ (s : State) (i : BitVec 8) (len : BitVec 9) (k : Fin 16) (u : Udp) (m : DMsg) (head : BitVec 4),
    let b := u.bytes.map BitVec.toNat
    let port := s.clocked 0x800F0000 = true ∧ s.hostOn = true ∧ s.flag R.HST_STAT_LINK = true
    let valid (kind : Nat → Prop) : Prop := port ∧ u.taken = true ∧ u.full = false ∧ dparse b = some m ∧ kind m.kind ∧ u.dport.toNat = 40961 ∧ bits m.dev 0 6 = s.get R.CAS_CFG_POS
    let only (t : State) (fs : List Fld) : Prop := FldsBut s t fs ∧ t = { s with mtr := { s.mtr with jnl := t.jnl, tx := t.mtr.tx }, flds := t.flds, bus := t.bus, outs := t.outs }
    let hstOnly (t : State) : Prop := t = { s with hst := t.hst, mtr := t.mtr, cas := t.cas, cores := t.cores, mem := t.mem, tst := t.tst, flds := t.flds, bus := t.bus, outs := t.outs }
    let doneFlds := [R.JNL_DONE_INDEX, R.JNL_DONE_RES_LEN, R.JNL_DONE_GO, R.JNL_ERR_RESULT]
    (s.reach 0x800E0208 = true →
      (∀ x e, s.jnl.fwNext = some (x, e) → Ends .jnlTake s (fun t => t.jnl.ent x = some { e with taken := true } ∧ (∀ y, y ≠ x → t.jnl.ent y = s.jnl.ent y) ∧ t.outs = [] ∧ only t [])) ∧
      (s.jnl.fwNext = none → Ends .jnlTake s (fun t => Unchanged s t))) ∧
    (s.reach 0x800E020C = true →
      (∀ e, s.jBad i.toNat = true → s.jnl.ent i.toNat = some e → Ends (.jnlDone i len) s (fun t => t.jnl.ent i.toNat = none ∧ (∀ y, y ≠ i.toNat → t.jnl.ent y = s.jnl.ent y) ∧ t.flag R.JNL_STAT_LOST = true ∧
        t.get R.JNL_ERR_RESULT = (if s.leads then 1 else 4) ∧ t.flag R.JNL_DONE_GO = false ∧ only t (R.JNL_STAT_LOST :: doneFlds))) ∧
      (∀ e, s.jBad i.toNat = false → s.leads = true → s.jnl.ent i.toNat = some e → e.st = 3 → e.res = none → len.toNat ≤ 448 → Ends (.jnlDone i len) s (fun t =>
        t.jnl.ent i.toNat = some { e with res := some ((List.range len.toNat).map (fun x => (s.byte (s.get R.JNL_RES_ADDR_ADDR / 4 * 4 + x)).toNat), s.crs.cnt), taken := true } ∧
        (∀ y, y ≠ i.toNat → t.jnl.ent y = s.jnl.ent y) ∧ t.get R.JNL_ERR_RESULT = 0 ∧ t.flag R.JNL_DONE_GO = false ∧ only t doneFlds)) ∧
      (∀ code, s.jBad i.toNat = false → (code = 4 ∧ s.leads = false ∨ code = 1 ∧ s.leads = true ∧ s.jnl.ent i.toNat = none ∨
          (∃ e, s.leads = true ∧ s.jnl.ent i.toNat = some e ∧ (code = 2 ∧ (e.st ≠ 3 ∨ e.res.isSome = true) ∨ code = 3 ∧ e.st = 3 ∧ e.res = none ∧ 448 < len.toNat))) →
        Ends (.jnlDone i len) s (fun t => t.get R.JNL_ERR_RESULT = code ∧ t.flag R.JNL_DONE_GO = false ∧ OnlyFlds s t doneFlds))) ∧
    (∀ c, Store.get none s.jnl.cls k = some c → c.last + 60000000000 ≤ s.now → s.jnl.all.all (fun x => x.2.client != c.client || x.2.st == 4) = true → Ends (.clientSlotExpire k) s (fun t =>
      Store.get none t.jnl.cls k = none ∧ (∀ y, y ≠ k.val → Store.get none t.jnl.cls y = Store.get none s.jnl.cls y) ∧ t.jnl.ents = s.jnl.ents ∧ only t [])) ∧
    (∀ c, Store.get none s.jnl.cls k = some c → s.now < c.last + 60000000000 → Ends (.clientSlotExpire k) s (fun t => Unchanged s t)) ∧
    (∀ x w, valid (· = 1) → s.leads = true → (m.opcode < 0x8000 ∨ 0x8001 ≤ m.opcode ∧ m.opcode ≤ 0x8005) → (s.jScan.jJudge m.client m.seq m.opcode m.body).1 = .written x w → Ends (.command u) s (fun t =>
      (∃ e, t.jnl.ent x = some e ∧ e.client = m.client ∧ e.seq = m.seq ∧ e.body = m.body ∧ e.opcode = m.opcode ∧ e.acc = s.crs.cnt ∧ e.st = (if w then 1 else 2)) ∧
      Counted s t R.HST_RX_CNT_GOOD ∧ t.hst.clients.head? = some (m.client, u.ip.toNat, u.sport.toNat) ∧ t.mem = s.mem ∧ hstOnly t)) ∧
    (valid (fun x => 0x10 ≤ x ∧ x ≤ 0x1F) → let h := s.get R.HST_FWQ_RXPTR_HEAD
      let a := fwSlot (s.get R.HST_FWQ_RXBASE_BASE) h
      ((h + 1) % 16 ≠ s.get R.HST_FWQ_RXPTR_TAIL → Ends (.service u) s (fun t => t.get R.HST_FWQ_RXPTR_HEAD = (h + 1) % 16 ∧ Counted s t R.HST_RX_CNT_GOOD ∧
        (∀ x, x < b.length → inSram (a + 16 + x) = true → t.byte (a + 16 + x) = BitVec.ofNat 8 (at_ b x)) ∧ (inSram a = true → inSram (a + 1) = true → t.load a 2 = b.length % 65536) ∧
        BytesBut s t a (16 + b.length) ∧ hstOnly t ∧ FldsBut s t [R.HST_RX_CNT_GOOD, R.HST_FWQ_RXPTR_HEAD])) ∧
      ((h + 1) % 16 = s.get R.HST_FWQ_RXPTR_TAIL → Ends (.service u) s (fun t => t.flag R.HST_FWQ_RXPTR_RX_OVF = true ∧ t.mem = s.mem ∧ hstOnly t ∧ FldsBut s t [R.HST_RX_CNT_GOOD, R.HST_FWQ_RXPTR_RX_OVF]))) ∧
    (∀ c, c = Instr.command u ∨ c = .service u →
      (port → u.taken = true → u.full = true → Ends c s (fun t => Counted s t R.HST_DROP_CNT_FIFO ∧ OnlyFlds s t [R.HST_DROP_CNT_FIFO])) ∧
      (port → u.taken = true → u.full = false → (dparse b = none ∨ dparse b = some m ∧ kindOk m.kind u.dport.toNat = false) → Ends c s (fun t => Counted s t R.HST_RX_CNT_BAD ∧ OnlyFlds s t [R.HST_RX_CNT_BAD])) ∧
      (¬port ∨ u.taken = false → Ends c s (fun t => Unchanged s t))) ∧
    (s.reach 0x800F003C = true →
      Ends (.fwqTxSubmit head) s (fun t => t.get R.HST_FWQ_TXPTR_HEAD = head.toNat ∧ t.get R.HST_FWQ_TXPTR_TAIL = head.toNat ∧ FldsBut s t [R.HST_FWQ_TXPTR_HEAD, R.HST_FWQ_TXPTR_TAIL] ∧ hstOnly t) ∧
      (let x := s.get R.HST_FWQ_TXPTR_TAIL
       let a := fwSlot (s.get R.HST_FWQ_TXBASE_BASE) x
       let n := s.load a 2
       x < 16 → head.toNat = (x + 1) % 16 → 24 ≤ n → n ≤ 536 → s.root = true → s.flag R.HST_STAT_LINK = true → (s.macOf (s.hop (s.load (a + 4) 4))).isSome = true → Ends (.fwqTxSubmit head) s (fun t =>
        (∃ d, t.outs = [.ip ⟨64, true, s.get R.HST_MAC_HI_DSCP⟩ (.udp (s.load (a + 4) 4) (s.load (a + 2) 2) (s.load (a + 8) 2) d)] ∧ d.length = n) ∧ BytesBut s t (a + 12 + n) 4 ∧ t.hst = s.hst)))

/-- LINK follows the lane's synchronisation and the PHY, and a link that comes up announces itself by ARP; a poll reads the PHY's status and waits while a firmware access runs; an MDIO write or read starts its access and sets GO, and its end clears GO, stands the value read in DATA and makes up for the poll. A request for the own address is answered; a reply fills the cache and sends what waits for it; an entry of 300 s and an answer that has waited 1 s go. An echo request of at most 512 bytes is answered with TTL 64 and DF, up to 100 in a second, once its next hop is resolved. With its clock gated the block does nothing. -/
def Obligations.HostPort : Prop :=
  ∀ (s : State) (sync gig : Bool) (status : BitVec 16) (phy reg : BitVec 5) (data : BitVec 16) (ip target : BitVec 32) (mac : BitVec 48) (d : List (BitVec 8)),
    let only (t : State) (fs : List Fld) : Prop := FldsBut s t fs ∧ t = { s with hst := t.hst, flds := t.flds, bus := t.bus, outs := t.outs }
    let link := s.flag R.HST_STAT_LINK
    let mdio (k : Instr) (op v : Nat) (o : Out) : Prop := s.reach 0x800F0020 = true → s.hst.busy = false → Ends k s (fun t =>
      t.get R.HST_MDIO_OP = op ∧ t.get R.HST_MDIO_PHY = phy.toNat ∧ t.get R.HST_MDIO_REG = reg.toNat ∧ t.get R.HST_MDIO_DATA = v ∧ t.flag R.HST_MDIO_GO = true ∧ t.outs = [o] ∧
      t.hst = { s.hst with busy := true } ∧ only t [R.HST_MDIO_OP, R.HST_MDIO_PHY, R.HST_MDIO_REG, R.HST_MDIO_DATA, R.HST_MDIO_GO])
    let hdr : IpHdr := ⟨64, true, s.get R.HST_MAC_HI_DSCP⟩
    let hop := s.hop ip.toNat
    let polled (t : State) (st : Nat) (g : Bool) : Prop := t.hst = { s.hst with busy := false, phyUp := bit st 2 && g, pollDue := none } ∧
      t.flag R.HST_STAT_LINK = (bit st 2 && g && s.flag R.HST_STAT_SGMII_SYNC) ∧ t.outs.head? = some (.mdio false s.hst.phy 1 0)
    (s.clocked 0x800F0000 = false → ∀ c, c ∈ [Instr.hostLinkChange sync gig, .phyPoll status gig, .mdioComplete data, .arpRequest target ip mac, .arpReply ip mac, .arpCacheExpire ip, .arpResolveTimeout ip, .icmpEchoRequest ip d] →
      Ends c s (fun t => Unchanged s t)) ∧
    (s.clocked 0x800F0000 = true →
    Ends (.hostLinkChange sync gig) s (fun t => t.flag R.HST_STAT_SGMII_SYNC = (sync && s.hostOn) ∧ t.flag R.HST_STAT_LINK = (sync && s.hostOn && s.hst.phyUp && gig) ∧
      t.outs = (if sync && s.hostOn && s.hst.phyUp && gig && !link then [.arpGratuitous] else []) ∧ t.hst = { s.hst with phyUp := s.hst.phyUp && gig } ∧ only t [R.HST_STAT_SGMII_SYNC, R.HST_STAT_LINK]) ∧
    (s.hostOn = true → s.hst.busy = false → Ends (.phyPoll status gig) s (fun t => polled t status.toNat gig ∧ only t [R.HST_STAT_LINK])) ∧
    (s.hostOn = true → s.hst.busy = true → Ends (.phyPoll status gig) s (fun t => t.hst = { s.hst with pollDue := some (status.toNat, gig) } ∧ t.outs = [] ∧ only t [])) ∧
    mdio (.mdioWrite phy reg data) 1 data.toNat (.mdio true phy.toNat reg.toNat data.toNat) ∧
    mdio (.mdioRead phy reg) 2 (s.get R.HST_MDIO_DATA % 2 ^ 16) (.mdio false phy.toNat reg.toNat 0) ∧
    (∀ st g, s.hst.busy = true → s.hst.pollDue = some (st, g) → s.hostOn = true → Ends (.mdioComplete data) s (fun t => t.flag R.HST_MDIO_GO = false ∧ polled t st g ∧
      (s.get R.HST_MDIO_OP = 2 → t.get R.HST_MDIO_DATA = data.toNat ∧ only t [R.HST_MDIO_GO, R.HST_MDIO_DATA, R.HST_STAT_LINK]) ∧ (s.get R.HST_MDIO_OP ≠ 2 → only t [R.HST_MDIO_GO, R.HST_STAT_LINK]))) ∧
    (s.hst.busy = true → s.hst.pollDue = none → Ends (.mdioComplete data) s (fun t => t.flag R.HST_MDIO_GO = false ∧ t.hst = { s.hst with busy := false } ∧
      (s.get R.HST_MDIO_OP = 2 → t.get R.HST_MDIO_DATA = data.toNat ∧ only t [R.HST_MDIO_GO, R.HST_MDIO_DATA]) ∧ (s.get R.HST_MDIO_OP ≠ 2 → only t [R.HST_MDIO_GO]))) ∧
    (link = true → target.toNat = s.get R.HST_IP_IP → Ends (.arpRequest target ip mac) s (fun t => t.outs = [.arpReply ip.toNat mac.toNat] ∧ Unchanged s t)) ∧
    (target.toNat ≠ s.get R.HST_IP_IP → Ends (.arpRequest target ip mac) s (fun t => t.outs = [] ∧ Unchanged s t)) ∧
    (link = true → Ends (.arpReply ip mac) s (fun t => t.hst.arp.head? = some (ip.toNat, mac.toNat, s.now) ∧ t.hst.arp.length ≤ 32 ∧ t.hst.waits = s.hst.waits.filter (fun w => w.hop != ip.toNat) ∧
      t.outs = (s.hst.waits.filter (fun w => w.hop == ip.toNat)).map (fun w => Out.ip hdr w.pkt) ∧ t.hst = { s.hst with arp := t.hst.arp, waits := t.hst.waits } ∧ only t [])) ∧
    Ends (.arpCacheExpire ip) s (fun t => (∀ x, x ∈ t.hst.arp ↔ x ∈ s.hst.arp ∧ ¬(x.1 = ip.toNat ∧ x.2.2 + 300000000000 ≤ s.now)) ∧ t.hst = { s.hst with arp := t.hst.arp } ∧ only t []) ∧
    Ends (.arpResolveTimeout ip) s (fun t => (∀ w, w ∈ t.hst.waits ↔ w ∈ s.hst.waits ∧ ¬(w.hop = ip.toNat ∧ w.until_ ≤ s.now)) ∧ t.outs = [] ∧ t.hst = { s.hst with waits := t.hst.waits } ∧ only t []) ∧
    (link = true → d.length ≤ 512 → s.now < s.hst.echoAt + 1000000000 → s.hst.echoes < 100 → (s.macOf hop).isSome = true → Ends (.icmpEchoRequest ip d) s (fun t =>
      t.outs = [.ip hdr (.echo ip.toNat (d.map BitVec.toNat))] ∧ t.hst.echoes = s.hst.echoes + 1 ∧ t.hst.waits = s.hst.waits ∧ only t [])) ∧
    (link = true → d.length ≤ 512 → s.now < s.hst.echoAt + 1000000000 → s.hst.echoes < 100 → s.macOf hop = none → Ends (.icmpEchoRequest ip d) s (fun t =>
      t.outs = [.arpRequest hop] ∧ t.hst.echoes = s.hst.echoes + 1 ∧ t.hst.waits = s.hst.waits ++ [⟨hop, s.now + 1000000000, .echo ip.toNat (d.map BitVec.toNat)⟩] ∧ only t [])) ∧
    (link = true → d.length ≤ 512 → s.hst.echoAt + 1000000000 ≤ s.now → (s.macOf hop).isSome = true → Ends (.icmpEchoRequest ip d) s (fun t =>
      t.outs = [.ip hdr (.echo ip.toNat (d.map BitVec.toNat))] ∧ t.hst = { s.hst with echoAt := s.now, echoes := 1 } ∧ only t [])) ∧
    ((link = false ∨ 512 < d.length ∨ s.now < s.hst.echoAt + 1000000000 ∧ 100 ≤ s.hst.echoes) → Ends (.icmpEchoRequest ip d) s (fun t => t.outs = [] ∧ Unchanged s t)))

/-- A Sync exchange with the selected master, of one step or completed by its Follow_Up, gives an offset from t1, t2, the mean path delay and the corrections: TIM_OFS shows it, in LOCKED it sets ADJ by the control law or, beyond JUMP_TH, refuses it with TIME_JUMP and HOLDOVER. A Delay_Req is stamped at its sending, and its response adds a path delay to TIM_MPD. A sender counts as a master from its second Announce. Without Syncs or Announces the device is in HOLDOVER with ADJ as it stands. A message of another domain changes nothing. -/
def Obligations.DeviceTimeMessages : Prop :=
  ∀ (s : State) (p : Ptp) (t1 t4 raw : Int) (a : Ann),
    let only (t : State) (fs : List Fld) : Prop := FldsBut s t fs ∧ t = { s with tim := t.tim, flds := t.flds, bus := t.bus, outs := t.outs }
    let rx := p.stamp - 96 - (s.get R.TIM_PHY_CORR_PHY_RX_NS : Int)
    let span := s.now - s.tim.syncAt
    let measured (t2 c : Int) (t : State) : Prop := t.tim.pair = some (t1, t2 - c) ∧ t.tim.sync = none ∧ t.tim.syncAt = s.now ∧
      (s.tim.mpd = none → t.tim.last = s.tim.last ∧ only t []) ∧
      (∀ dly, s.tim.mpd = some dly → let o := t2 - t1 - dly - c
        t.tim.last = some (o, s.now) ∧ t.get R.TIM_OFS_OFS = ux 32 (max (-(2 ^ 31)) (min (2 ^ 31 - 1) o)) ∧
        (s.timSt = 2 → (o.natAbs : Int) ≤ s.jumpTh → span ≠ 0 → let y : Rat := (o : Rat) * 1000000000 / (span : Rat)
          t.timSt = 2 ∧ t.tim.rInt = clampPpb (s.tim.rInt - y / 64) ∧ t.get R.TIM_ADJ_ADJ = ux 32 (adjOf (clampPpb (t.tim.rInt - y / 4))) ∧ only t [R.TIM_OFS_OFS, R.TIM_ADJ_ADJ]) ∧
        (s.timSt = 2 → (s.jumpTh : Int) < o.natAbs → t.timSt = 3 ∧ t.flag R.TIM_STAT_TIME_JUMP = true ∧ Counted s t R.TIM_STEP_CNT_JUMPS ∧
          only t [R.TIM_OFS_OFS, R.TIM_STEP_CNT_JUMPS, R.TIM_STAT_TIME_JUMP, R.TIM_STAT_STATE]))
    (s.ofMaster p = true →
      Ends (.sync p t1 false) s (measured rx (corrNs p.corr)) ∧
      Ends (.sync p t1 true) s (fun t => t.tim = { s.tim with sync := some (p.seq, rx, corrNs p.corr) } ∧ only t []) ∧
      (∀ t2 c, s.tim.sync = some (p.seq, t2, c) → Ends (.followUp p t1) s (measured t2 (c + corrNs p.corr))) ∧
      ((∀ t2 c, s.tim.sync ≠ some (p.seq, t2, c)) → Ends (.followUp p t1) s (fun t => Unchanged s t)) ∧
      (∀ t3 u1 u2, s.tim.dreq = some (p.seq, t3) → s.tim.pair = some (u1, u2) → Ends (.delayResp p t4) s (fun t =>
        t.tim = { s.tim with dreq := none, delays := (((u2 - u1) + (t4 - corrNs p.corr - t3)) :: s.tim.delays).take 8 } ∧ (∃ v, t.tim.mpd = some v ∧ t.get R.TIM_MPD_MPD = ux 32 v) ∧ only t [R.TIM_MPD_MPD]))) ∧
    (s.ptpOn = true → s.tim.master ≠ none → Ends (.delayReq raw) s (fun t => t.outs = [.ip ⟨64, true, s.get R.HST_MAC_HI_DSCP⟩ (.delayReq s.tim.dseq)] ∧
      t.tim = { s.tim with dreq := some (s.tim.dseq, raw + 72 + (s.get R.TIM_PHY_CORR_PHY_TX_NS : Int)), dseq := (s.tim.dseq + 1) % 65536 } ∧ only t [])) ∧
    (let b : Ann := { a with src := p.src, port := p.port }
     s.ptpOk p = true →
      (s.tim.cands = [] → Ends (.announce p a) s (fun t => t.tim = { s.tim with cands := [(b, 1)] } ∧ only t [])) ∧
      (∀ x n, s.tim.cands = [(x, n)] → x.src = p.src → x.port = p.port → 1 ≤ n → s.tim.master = none → Ends (.announce p a) s (fun t =>
        t.tim.master = some b ∧ t.tim.cands = [(b, 2)] ∧ t.flag R.TIM_STAT_MASTER_CHG = true ∧ (s.timSt = 0 → t.timSt = 1) ∧ (s.timSt ≠ 0 → t.timSt = s.timSt) ∧ t.tim.delays = [] ∧
        only t [R.TIM_STAT_MASTER_CHG, R.TIM_STAT_STATE]))) ∧
    (s.ptpOn = true → s.timSt = 1 ∨ s.timSt = 2 →
      Ends .syncTimeout s (fun t => t.timSt = 3 ∧ t.tim = { s.tim with ofss := [] } ∧ only t [R.TIM_STAT_STATE]) ∧
      Ends .announceTimeout s (fun t => t.timSt = 3 ∧ t.tim = { s.tim with ofss := [], master := none, cands := [] } ∧ only t [R.TIM_STAT_STATE])) ∧
    (p.domain ≠ s.get R.TIM_CFG_DOMAIN → ∀ c, c ∈ [Instr.sync p t1 false, .followUp p t1, .delayResp p t4, .announce p a] → Ends c s (fun t => Unchanged s t))

/-- A bypassed stop takes no frame; an inserted one passes a frame of another source on at its other port, a MARK with its CORR advanced. A frame with a wrong CRC counts, a second copy does nothing more, and the first copy of a frame for this stop acts: a MARK advances the run of a stop that sends none itself and, measured, gives its delay and pending switch, shows whether the course start lies within 25 ns, and with a new STEP_SEQ steps device time; SETP writes the sender's records, after the profile tick where it is still to come; MSG brings a command to the journal and an answer to the root's client; TRIG reaches CAP; STATUS marks its sender present at the root; PLAN stands. A missing MARK counts, two in a row are lasting; 16 in a row insert the stop; 32 courses without STATUS clear the position; planned frames leave both ports. ENUM numbers the chain and, back at the master, starts the images; IMAGE is kept, and at the master its return is followed by the next block, a second sending, or the record of its failure. -/
def Obligations.CascadeFramesAndBootChain : Prop :=
  ∀ (s : State) (f : CFrm) (m : Mark) (p : List (BitVec 8)) (x : DMsg) (tm : Nat) (sender pos : Fin 64) (set_ : Fin 8) (flags : BitVec 8) (epoch : BitVec 16) (plan : List (BitVec 32)) (n : BitVec 5) (okk : Bool) (q : Fin 16) (block : Nat) (i : Fin 32),
    let here := s.get R.CAS_CFG_POS
    let takes (type : Nat) (key : List Nat) : Prop := s.casEn = true ∧ 2 ≤ s.get R.CAS_STAT_STATE ∧ f.crcOk = true ∧ (f.src.val = here → f.memberB ≠ s.flag R.MTR_STAT_MEMBER) ∧ (f.dest = 0xFF ∨ f.dest = here) ∧
      s.cas.acted.contains (type, f.src.val * 2 + b2n f.memberB, key) = false
    let frame (t : State) : Prop := t = { s with cas := t.cas, crs := t.crs, now := t.now, free := t.free, cap := t.cap, hst := t.hst, tim := t.tim, rings := t.rings, axes := t.axes, mtr := t.mtr, pwr := t.pwr, cores := t.cores, mem := t.mem, tst := t.tst, flds := t.flds, bus := t.bus, outs := t.outs }
    let ticked (t : State) : Prop := t = { t.tickPart s with cas := t.cas, hst := t.hst, pwr := t.pwr, cores := t.cores }
    let only (t : State) (fs : List Fld) : Prop := FldsBut s t fs ∧ t = { s with cas := t.cas, flds := t.flds, bus := t.bus, outs := t.outs }
    let bytes := p.map BitVec.toNat
    let port := s.cas.port f.portB
    let st := s.get R.CAS_STAT_STATE
    let own := f.src.val = here ∧ f.memberB = s.flag R.MTR_STAT_MEMBER
    let through := s.casIn = true ∧ port.sync = true ∧ port.fwd = true ∧ (s.cas.port (!f.portB)).sync = true ∧ (s.cas.port (!f.portB)).fwd = true ∧ ¬own
    let passed (type : Nat) (pl : List Nat) (t : State) : Prop := (through → t.outs = [.casc (!f.portB) ⟨type, f.src, f.memberB, f.course, f.dest, f.west⟩ pl]) ∧ (¬through → t.outs = [])
    let busyOnly (t : State) : Prop := t.cas = { s.cas with tillA := t.cas.tillA, tillB := t.cas.tillB }
    let both (type : Nat) (d : List Nat) : List Out := [.casc false ⟨type, here, s.flag R.MTR_STAT_MEMBER, s.crs.cnt % 65536, 0xFF, true⟩ d, .casc true ⟨type, here, s.flag R.MTR_STAT_MEMBER, s.crs.cnt % 65536, 0xFF, false⟩ d]
    (s.casEn = true → 2 ≤ st → f.crcOk = false → Ends (.mark f m) s (fun t => Counted s t R.CAS_CNT_CRC ∧ passed 1 m.bytes t ∧ busyOnly t ∧ only t [R.CAS_CNT_CRC])) ∧
    (st < 2 → Ends (.mark f m) s (fun t => Unchanged s t) ∧ Ends (.setp f p) s (fun t => Unchanged s t) ∧ Ends (.plan f plan) s (fun t => Unchanged s t)) ∧
    (s.casEn = true → 2 ≤ st → f.crcOk = true → s.cas.acted.contains (2, f.src.val * 2 + b2n f.memberB, []) = true → Ends (.setp f p) s (fun t => passed 2 bytes t ∧ busyOnly t ∧ only t [])) ∧
    (s.casEn = true → 2 ≤ st → f.crcOk = true → (own ∨ f.dest ≠ 0xFF ∧ f.dest ≠ here ∨ st = 4 ∧ s.cas.acted.contains (1, f.src.val * 2 + b2n f.memberB, []) = true) →
      Ends (.mark f m) s (fun t => passed 1 { m with corr := m.corr + port.dly + 2048 }.bytes t ∧ busyOnly t ∧ only t [])) ∧
    (takes 1 [] → st ≠ 4 →
      (port.meas = false → s.markBad m = false → Ends (.mark f m) s (fun t => t.cas.seen = some true ∧ t.cas.miss = 0 ∧ t.cas.run = s.cas.run + 1 ∧ t.cas.mark = some m ∧ only t [])) ∧
      (s.root = false → port.meas = true → st = 3 → m.stepSeq = s.cas.stepSeq → s.markBad m = false → Ends (.mark f m) s (fun t => t.cas.seen = some true ∧ t.cas.miss = 0 ∧ t.cas.run = s.cas.run + 1 ∧
        t.get R.CAS_ROOT_DLY_D = (m.corr + port.dly) % 2 ^ 32 ∧ t.cas.ofs = (m.time : Int) + ((m.corr + port.dly) / 16 : Nat) - (f.at_ : Int) ∧ t.now = s.now ∧ t.crs.cnt = s.crs.cnt ∧
        t.flag R.CAS_STAT_ALIGNED = decide (((s.crs.start : Int) - ((f.at_ : Int) - ((m.corr + port.dly) / 16 : Nat))).natAbs ≤ 25) ∧
        (m.pending = true → s.schedIn m.next = true → t.crs.swTo = some m.next ∧ t.get R.BOND_CRS_STAT_SW_LEFT = m.left % 2 ^ 5) ∧
        (m.pending = false → t.crs.swTo = none ∧ t.get R.BOND_CRS_STAT_SW_LEFT = 0) ∧ frame t)) ∧
      (s.root = false → port.meas = true → st = 3 → m.stepSeq ≠ s.cas.stepSeq → Ends (.mark f m) s (fun t => t.cas.stepSeq = m.stepSeq ∧ t.cas.ofs = 0 ∧ t.crs.cnt = s.crs.cnt ∧ Counted s t R.TIM_STEP_CNT_COUNT ∧
        t.now = ((s.now : Int) + ((m.time : Int) + ((m.corr + port.dly) / 16 : Nat) - (f.at_ : Int))).toNat)) ∧
      (s.markBad m = true → Ends (.mark f m) s (fun t => t.flag R.CAS_STAT_PLAN_ERR = true ∧ t.cas.run = 0))) ∧
    (s.casEn = true → st ≠ 4 → s.cas.seen = none →
      (st = 3 → s.cas.miss = 0 → Ends .markMissing s (fun t => t.cas = { s.cas with seen := some false, miss := 1, run := 0 } ∧ Counted s t R.CAS_CNT_LOST ∧ only t [R.CAS_CNT_LOST])) ∧
      (st = 3 → 1 ≤ s.cas.miss → Ends .markMissing s (fun t => t.cas.miss = 2 ∧ Counted s t R.CAS_CNT_LOST ∧ t.flag R.CAS_STAT_MARK_LOST = true ∧ t.flag R.CAS_STAT_ALIGNED = false ∧
        only t [R.CAS_CNT_LOST, R.CAS_STAT_MARK_LOST, R.CAS_STAT_ALIGNED])) ∧
      (st ≠ 3 → Ends .markMissing s (fun t => t.cas.run = 0 ∧ only t []))) ∧
    (s.casEn = true → 16 ≤ s.cas.run → st = 2 → s.dev = .run ∨ s.dev = .safeHold → Ends .cascadeInsert s (fun t => t.flag R.CAS_STAT_BYP = true ∧ t.get R.CAS_STAT_STATE = 3 ∧
      t.cas = { s.cas with due := !s.root } ∧ only t [R.CAS_STAT_BYP, R.CAS_STAT_STATE])) ∧
    (s.cas.run < 16 → Ends .cascadeInsert s (fun t => Unchanged s t)) ∧
    (takes 2 [] → p.length = 20 → leAt bytes 0 4 = 2 ^ i.val → Ends (.setp f p) s (fun t => (∀ j, j < 16 → t.byte (sharedRec f.src i + j) = BitVec.ofNat 8 (at_ bytes (4 + j))) ∧
      (s.crs.tick = none → BytesBut s t (sharedRec f.src i) 16 ∧ t.flds = s.flds ∧ frame t) ∧ bit t.cas.heard f.src = true ∧ ticked t)) ∧
    (takes 3 bytes → dparse bytes = some x →
      (∀ y w, bits x.dev 0 6 = here → s.root = false → x.kind = 1 → s.leads = true → (x.opcode < 0x8000 ∨ 0x8001 ≤ x.opcode ∧ x.opcode ≤ 0x8005) → (s.jScan.jJudge x.client x.seq x.opcode x.body).1 = .written y w →
        Ends (.msg f p) s (fun t => (∃ e, t.jnl.ent y = some e ∧ e.client = x.client ∧ e.seq = x.seq ∧ e.body = x.body ∧ e.acc = s.crs.cnt ∧ e.st = (if w then 1 else 2)) ∧ t.mem = s.mem ∧ frame t)) ∧
      (∀ c ip pt, s.root = true → s.leads = true → s.hst.clients.find? (fun y => y.1 == x.client) = some (c, ip, pt) → s.flag R.HST_STAT_LINK = true → (s.macOf (s.hop ip)).isSome = true →
        Ends (.msg f p) s (fun t => ∃ o, passed 3 bytes { t with outs := o } ∧ t.outs = o ++ [.ip ⟨64, true, s.get R.HST_MAC_HI_DSCP⟩ (.udp ip pt (if x.kind = 0x20 then 40962 else 40961) bytes)] ∧ only t []))) ∧
    (takes 4 [tm % 2 ^ 64, sender, set_] → Ends (.trig f tm sender set_) s (fun t => t.flag R.CAP_CASC_IN_SEEN = true ∧ t.get R.CAP_CASC_IN_POS = sender.val ∧ t.cap.cascT = tm % 2 ^ 64 ∧ t.mem = s.mem ∧ t.crs = s.crs ∧ frame t)) ∧
    (takes 5 [epoch.toNat] → s.root = true → Ends (.cascadeStatus f flags epoch) s (fun t => t.present f.src = true ∧ t.still f.src = bit flags.toNat 0 ∧ Store.get none t.cas.last f.src = some s.crs.cnt ∧
      (∀ y, y < 64 → y ≠ f.src.val → t.present y = s.present y ∧ t.still y = s.still y) ∧ only t [R.CAS_PRESENT0_PRESENT, R.CAS_PRESENT1_PRESENT, R.CAS_STILL0_STILL, R.CAS_STILL1_STILL])) ∧
    (takes 6 (plan.map BitVec.toNat) → s.root = false → Ends (.plan f plan) s (fun t => t.flag R.CAS_STAT_PLANNED = true ∧ t.cas.plan = plan.map BitVec.toNat ∧ only t [R.CAS_STAT_PLANNED])) ∧
    (∀ c, Store.get none s.cas.last pos = some c → s.root = true → c + 32 ≤ s.crs.cnt → Ends (.positionPresenceExpire pos) s (fun t => t.present pos = false ∧ (∀ y, t.still y = s.still y) ∧ Store.get none t.cas.last pos = none ∧
      (∀ y, y < 64 → y ≠ pos.val → t.present y = s.present y) ∧ only t [R.CAS_PRESENT0_PRESENT, R.CAS_PRESENT1_PRESENT])) ∧
    (s.casEn = true → s.casIn = true → s.leads = true → s.flag R.CAS_STAT_PLANNED = true →
      (s.crs.cnt % 16 = bits (s.planOf here) 20 4 → Ends (.plannedFrameDue false) s (fun t => busyOnly t ∧ only t [] ∧
        t.outs = both 5 ([b2n s.allStill + 2 * b2n s.mtr.paired + 4 * b2n (s.mtr.paired && s.peerReady), 0] ++ leBytes (s.get R.MTR_EPOCH_EPOCH) 2 ++ leBytes 0 4))) ∧
      (let all := (List.range 32).filter (fun j => (s.axes.any (fun y => bit y.2.par.pubCfg 0 && y.2.copied && bits y.2.par.pubCfg 1 5 == j)) && s.load (sharedRec here j + 12) 2 == (s.crs.cnt + 1) % 65536)
       let lim := bits (s.planOf here) 14 6
       (s.crs.tick = none → all ≠ [] → Ends (.plannedFrameDue true) s (fun t => (∃ d, t.outs = both 2 d ∧ d.length = 4 + 16 * min lim all.length) ∧ (lim < all.length → t.flag R.CAS_STAT_PLAN_ERR = true) ∧
         busyOnly t ∧ only t (if lim < all.length then [R.CAS_STAT_PLAN_ERR] else []))) ∧
       (s.crs.tick = none → all = [] → Ends (.plannedFrameDue true) s (fun t => Unchanged s t ∧ t.outs = [])) ∧ Ends (.plannedFrameDue true) s (fun t => ticked t))) ∧
    (s.chainRole = 2 → Ends (.enum n) s (fun t => t.get R.CAS_BOOT_CHAIN_POS = (n.toNat + 1) % 2 ^ 4 ∧ t.outs = [.bootEnum (n.toNat + 1)] ∧ OnlyFlds s t [R.CAS_BOOT_CHAIN_POS])) ∧
    (let first (p c : Nat) : Option Nat := (List.range 16).find? (fun z => decide (p < z ∧ z ≤ c) && (s.chainImg z).2 != 0)
     let sends (t : State) (z k : Nat) (again : Bool) : Prop := t.chain = { s.chain with cur := some (z, k), again := again } ∧ t.outs = [.bootSend z k ((s.chainImg z).1 + 4096 * k) (min 4096 ((s.chainImg z).2 - 4096 * k))]
     let goesOn (t : State) (o : Option Nat) : Prop := (∀ z, o = some z → sends t z 0 false) ∧ (o = none → t.chain = { s.chain with cur := none, again := false } ∧ t.outs = [])
     let chains (t : State) (fs : List Fld) : Prop := FldsBut s t fs ∧ t = { s with chain := t.chain, flds := t.flds, bus := t.bus, outs := t.outs }
     s.chainRole = 1 →
      (s.chain.cur ≠ none → Ends (.enum n) s (fun t => Unchanged s t)) ∧
      (s.chain.cur = none → Ends (.enum n) s (fun t => t.get R.CAS_BOOT_COUNT = n.toNat ∧ goesOn t (first 0 n.toNat) ∧ chains t [R.CAS_BOOT_COUNT])) ∧
      (s.chain.cur ≠ some (q.val, block) → Ends (.image q block p true okk) s (fun t => Unchanged s t)) ∧
      (s.chain.cur = some (q.val, block) →
        (4096 * (block + 1) < (s.chainImg q).2 → Ends (.image q block p true true) s (fun t => sends t q (block + 1) false ∧ chains t [])) ∧
        ((s.chainImg q).2 ≤ 4096 * (block + 1) → Ends (.image q block p true true) s (fun t => goesOn t (first q (s.get R.CAS_BOOT_COUNT)) ∧ chains t [])) ∧
        (s.chain.again = false → Ends (.image q block p false okk) s (fun t => sends t q block true ∧ chains t []) ∧ Ends (.image q block p true false) s (fun t => sends t q block true ∧ chains t [])) ∧
        (s.chain.again = true → Ends (.image q block p false okk) s (fun t => bit (t.get R.CAS_BOOT_FAIL) q = true ∧ goesOn t (first q (s.get R.CAS_BOOT_COUNT)) ∧ chains t [R.CAS_BOOT_FAIL])))) ∧
    (s.chainRole = 2 → q.val = s.get R.CAS_BOOT_CHAIN_POS → Ends (.image q block p false true) s (fun t => Store.get [] t.chain.image block = bytes ∧ (∀ y, y ≠ block → Store.get [] t.chain.image y = Store.get [] s.chain.image y) ∧
      t.outs = [.bootImage q block bytes true] ∧ t = { s with chain := t.chain, bus := t.bus, outs := t.outs }))

/-- IDCODE shifts out the device's code; SAMPLE/PRELOAD shifts out the pins and loads the boundary register; with RESET_n low EXTEST shifts out the levels captured and drives the pins from what it loads, the cells of observe-only pins aside, HIGHZ releases them, CLAMP holds them with the bypass register selected; with RESET_n high these act as BYPASS. GPIO_SET and GPIO_CLR change the named output bits alone. An edge at a pin shows in GPIO_IN after INV and sets RISE or FALL while the block is clocked. A loss of signal takes its link down: a port that was up sets BREAK, one already down sets none. -/
def Obligations.BoundaryScanAndPins : Prop :=
  ∀ (s : State) (pins v : Nat) (sc : Scan) (code : BitVec 8) (w : BitVec 32) (n : Fin 32) (level : Bool) (k : Fin 4) (west b : Bool),
    let tap (i : Instr) (j : Jtag) (o : List Out) : Prop := Ends i s (fun t => t.jtag = j ∧ t.outs = o ∧ t = { s with jtag := t.jtag, bus := t.bus, outs := t.outs })
    tap .idcode { s.jtag with ir := 1, sel := .idcode, scan := .none } [.tdo 0x101923F3] ∧
    tap (.samplePreload pins v) { ir := 2, sel := .boundary, bnd := v, scan := .none } [.tdo pins] ∧
    (s.rstLow = true → (∃ bnd, (∀ i, bit bnd i = if bit Config.bscanObserve i then bit sc.pins i else bit sc.bits i) ∧ tap (.extest sc) { ir := 0, sel := .boundary, bnd := bnd, scan := .extest } [.tdo sc.pins]) ∧
      tap .highz { s.jtag with ir := 3, sel := .bypass, scan := .highz } [] ∧ tap .clamp { s.jtag with ir := 4, sel := .bypass, scan := .clamp } []) ∧
    (s.rstLow = false → tap (.extest sc) { s.jtag with ir := 0, sel := .bypass, scan := .none } [] ∧
      tap .highz { s.jtag with ir := 3, sel := .bypass, scan := .none } [] ∧ tap .clamp { s.jtag with ir := 4, sel := .bypass, scan := .none } []) ∧
    tap (.bypass code) { s.jtag with ir := if code.toNat < 5 then 0xFF else code.toNat, sel := .bypass, scan := .none } [] ∧
    (s.reach 0x80160008 = true → Ends (.gpioSet w) s (fun t => t.get R.GPIO_OUT_OUT = (s.get R.GPIO_OUT_OUT ||| w.toNat) % 2 ^ 32 ∧ OnlyFlds s t [R.GPIO_OUT_OUT])) ∧
    (s.reach 0x8016000C = true → Ends (.gpioClr w) s (fun t => (∀ i, i < 32 → bit (t.get R.GPIO_OUT_OUT) i = (bit (s.get R.GPIO_OUT_OUT) i && !bit w.toNat i)) ∧ OnlyFlds s t [R.GPIO_OUT_OUT])) ∧
    (let x := level != s.flag (R.SYS_PINFUNC_INV n)
     let edge := if x then R.GPIO_RISE_RISE else R.GPIO_FALL_FALL
     Ends (.gpioEdge n level) s (fun t => t.gpioIn n = x ∧ (∀ i, i ≠ n.val → t.gpioIn i = s.gpioIn i) ∧
       (x ≠ s.gpioIn n → s.clocked 0x80160000 = true → bit (t.get edge) n = true ∧ (s.get (R.SYS_PINFUNC_MODE n) ≠ 3 → FldsBut s t [edge])) ∧
       (x = s.gpioIn n ∨ s.clocked 0x80160000 = false → s.get (R.SYS_PINFUNC_MODE n) ≠ 3 → FldsBut s t []) ∧
       (s.get (R.SYS_PINFUNC_MODE n) ≠ 3 → t.rings = s.rings ∧ t.cas = s.cas) ∧
       t = { s with gpio := t.gpio, flds := t.flds, rings := t.rings, cas := t.cas, bus := t.bus, outs := t.outs })) ∧
    (s.ringEn k = true → Ends (.sfpLos (.ring k west)) s (fun t => ((t.ring k).port west).sync = false ∧ t.flag (R.RING_STAT_BREAK k) = (s.flag (R.RING_STAT_BREAK k) || ((s.ring k).port west).sync) ∧ (t.ring k).port (!west) = (s.ring k).port (!west) ∧ t.mem = s.mem)) ∧
    (s.casEn = true → Ends (.sfpLos (.cas b)) s (fun t => (t.cas.port b).sync = false ∧ (t.cas.port b).fwd = false ∧ t.flag R.CAS_STAT_BREAK = (s.flag R.CAS_STAT_BREAK || (s.cas.port b).sync) ∧ t.cas.port (!b) = s.cas.port (!b) ∧
      FldsBut s t [R.CAS_STAT_BREAK, R.CAS_STAT_A_SYNC, R.CAS_STAT_B_SYNC] ∧ t.rings = s.rings ∧ t.mem = s.mem))

/-- Where a core comes to an instruction with nothing at the boundary in its place: a fetch whose ECC error a second read passes is counted; integer operations, LUI, branches, JALR, loads of every size from SRAM, FP arithmetic in a legal rounding mode, CSR writes and MRET leave exactly the registers, pc and CSRs that the instruction gives, ECALL and an illegal word trap with causes 8, 11 and 2; FENCE.I takes memory as it stands into the instruction cache; LR.W reserves its word; SC.W stores and answers 0 while the reservation stands, else 1; an AMO stores its result and ends other cores' reservations of the word; WFI sleeps unless an interrupt or a switch is due. Every other core, and all else, is unchanged. What the referenced RISC-V manual gives is the model's reading (log entry 63). -/
def Obligations.CoreInstructions : Prop :=
  ∀ (s : State) (n : Fin 4), s.quiet.boundary n = none →
    let q := s.quiet
    let frame (t : State) : Prop := t = { s with cores := t.cores, mem := t.mem, tst := t.tst, sch := t.sch, free := t.free, pim := t.pim, flds := t.flds, bus := t.bus, outs := t.outs }
    let regs (k : Instr) (i : Rv) (cond : State → Prop) (f : State → Nat → Core) : Prop := ∀ u len w, q.comes n = (u, .ok (some i, len, w)) → cond u →
      Ends k s (fun t => t.core n = f u len ∧ (∀ m, m ≠ n.val → t.core m = s.core m) ∧ t.mem = s.mem ∧ frame t)
    let word (u : State) (a p : Nat) : Prop := a % 4 = 0 ∧ inSram a = true ∧ (u.core n).dataOk a 4 p = true ∧ u.domUp 2 = true
    let stores (k : Instr) (i : Rv) (cond : State → Prop) (f : State → Nat → Core) (a v : State → Nat) : Prop := ∀ u len w, q.comes n = (u, .ok (some i, len, w)) → cond u →
      Ends k s (fun t => t.core n = f u len ∧ t.load (a u) 4 = v u % 2 ^ 32 ∧ BytesBut s t (a u) 4 ∧
        (∀ m : Fin 4, m ≠ n → t.core m = (match (s.core m).res with | some r => if r / 4 = a u / 4 then { s.core m with res := none } else s.core m | none => s.core m)) ∧ frame t)
    (∀ rd imm, regs (.coreInstruction ⟨n, .clean, .clean⟩) (.lui rd imm) (fun _ => True) (fun u len => ((u.core n).next len).setX rd imm)) ∧
    (∀ rd imm u len w, inSram ((s.core n).pc / 4 * 4) = true → s.domUp 2 = true → q.comes n = (u, .ok (some (.lui rd imm), len, w)) → Ends (.coreInstruction ⟨n, .transient, .clean⟩) s (fun t =>
      t.core n = ((u.core n).next len).setX rd imm ∧ Counted s t R.TST_ECC_CNT_TRANSIENT ∧ t.mem = s.mem ∧ frame t)) ∧
    (∀ op rd a b, regs (.coreInstruction ⟨n, .clean, .clean⟩) (.alu op rd a b) (fun _ => True) (fun u len => ((u.core n).next len).setX rd (rvOp op ((u.core n).getX a) ((u.core n).getX b)))) ∧
    (∀ op rd a imm, regs (.coreInstruction ⟨n, .clean, .clean⟩) (.alui op rd a imm) (fun _ => True) (fun u len => ((u.core n).next len).setX rd (rvOp op ((u.core n).getX a) imm))) ∧
    (∀ k a b off, regs (.coreInstruction ⟨n, .clean, .clean⟩) (.branch k a b off) (fun _ => True) (fun u len =>
      if rvTest k ((u.core n).getX a) ((u.core n).getX b) then { (u.core n).next len with pc := ((u.core n).pc + off) % 2 ^ 32 } else (u.core n).next len)) ∧
    (∀ rd a imm, regs (.coreInstruction ⟨n, .clean, .clean⟩) (.jalr rd a imm) (fun _ => True) (fun u len =>
      { ((u.core n).next len).setX rd (((u.core n).pc + len) % 2 ^ 32) with pc := ((u.core n).getX a + imm) % 2 ^ 32 / 2 * 2 })) ∧
    (∀ op rd a b rm r, regs (.coreInstruction ⟨n, .clean, .clean⟩) (.farith op rd a b rm) (fun u => (u.core n).fpOn = true ∧ (u.core n).rm rm = some r) (fun u len =>
      ((u.core n).next len).putF rd (rvFop op r ((u.core n).getF a) ((u.core n).getF b)))) ∧
    (∀ rd src k old, regs (.coreInstruction ⟨n, .clean, .clean⟩) (.csr .rw false rd src k) (fun u => u.csrRead n k = some old ∧ (u.core n).csrMay k = true ∧ bits k 10 2 ≠ 3) (fun u len =>
      (((u.core n).next len).csrWrite k ((u.core n).getX src)).setX rd old)) ∧
    regs (.coreInstruction ⟨n, .clean, .clean⟩) .mret (fun u => (u.core n).machine = true) (fun u len => ((u.core n).next len).mret) ∧
    regs (.coreInstruction ⟨n, .clean, .clean⟩) .ecall (fun _ => True) (fun u _ => (u.core n).trap false (if (u.core n).machine then 11 else 8) 0) ∧
    (∀ u len w, q.comes n = (u, .ok (none, len, w)) → Ends (.coreInstruction ⟨n, .clean, .clean⟩) s (fun t => (∃ tval, (tval = 0 ∨ tval = w) ∧ t.core n = (u.core n).trap false 2 tval) ∧
      (∀ m, m ≠ n.val → t.core m = s.core m) ∧ t.mem = s.mem ∧ frame t)) ∧
    (∀ sz sg rd a imm, sz = 1 ∨ sz = 2 ∨ sz = 4 → let at_ (u : State) : Nat := ((u.core n).getX a + imm) % 2 ^ 32
      regs (.coreInstruction ⟨n, .clean, .clean⟩) (.load sz sg rd a imm) (fun u => at_ u % sz = 0 ∧ inSram (at_ u) = true ∧ (u.core n).dataOk (at_ u) sz 0 = true ∧ u.domUp 2 = true ∧ u.poisoned (at_ u) sz = false)
        (fun u len => ((u.core n).next len).setX rd (if sg then sext (8 * sz) (u.load (at_ u) sz) else u.load (at_ u) sz))) ∧
    (∀ a b imm, stores (.coreInstruction ⟨n, .clean, .clean⟩) (.store 4 a b imm) (fun u => word u (((u.core n).getX a + imm) % 2 ^ 32) 1) (fun u len => (u.core n).next len)
      (fun u => ((u.core n).getX a + imm) % 2 ^ 32) (fun u => (u.core n).getX b)) ∧
    regs (.fenceI n) .fenceI (fun _ => True) (fun u len => { (u.core n).next len with ic := some u.mem }) ∧
    (∀ rd a, regs (.lrW n) (.lr rd a) (fun u => word u ((u.core n).getX a) 0 ∧ u.poisoned ((u.core n).getX a) 4 = false) (fun u len =>
      { ((u.core n).next len).setX rd (u.load ((u.core n).getX a) 4) with res := some ((u.core n).getX a) })) ∧
    (∀ rd a b, stores (.scW n) (.sc rd a b) (fun u => word u ((u.core n).getX a) 1 ∧ (u.core n).res = some ((u.core n).getX a)) (fun u len => { ((u.core n).next len).setX rd 0 with res := none })
      (fun u => (u.core n).getX a) (fun u => (u.core n).getX b)) ∧
    (∀ rd a b, regs (.scW n) (.sc rd a b) (fun u => word u ((u.core n).getX a) 1 ∧ (u.core n).res ≠ some ((u.core n).getX a)) (fun u len => { ((u.core n).next len).setX rd 1 with res := none })) ∧
    (∀ op rd a b, stores (.amo n) (.amo op rd a b) (fun u => word u ((u.core n).getX a) 0 ∧ word u ((u.core n).getX a) 1 ∧ u.poisoned ((u.core n).getX a) 4 = false)
      (fun u len => ((u.core n).next len).setX rd (u.load ((u.core n).getX a) 4)) (fun u => (u.core n).getX a) (fun u => rvAmoOp op (u.load ((u.core n).getX a) 4) ((u.core n).getX b))) ∧
    regs (.wfi n) .wfi (fun u => (u.core n).machine = true ∨ bit ((u.core n).getCsr csrMstatus) 21 = false) (fun u len =>
      { (u.core n).next len with wfi := !(u.wfiOver n || (Store.get none u.sch.slot n).isSome) })

/-- MAKE_READY takes a DORMANT or BLOCKED thread with a valid record to READY with its PRIO and AFFIN, BLOCK a READY one to BLOCKED, CANCEL a READY or BLOCKED one to DORMANT, each with RESULT 0; on a RUNNING thread BLOCK and CANCEL note what it becomes at its core's switch; YIELD is answered 0. The other states answer ALREADY, NOT_RUNNING, BAD_TCB, the idle threads and a same-cycle loss their codes, and change no thread. At a switch point a core writes its thread's context back, takes its slot's, and 24 cycles pass. A released core runs its idle thread. A compare reached and an enabled source end WFI. -/
def Obligations.SchedulerCommands : Prop :=
  ∀ (s : State) (n : Fin 4) (t : BitVec 8) (beat : Bool) (v : BitVec 32) (src : Fin 15),
    let x := s.thr t.toNat
    let prio := s.load (s.tcb t.toNat + 264) 1
    let affin := s.load (s.tcb t.toNat + 265) 1 % 16
    let op (k : Instr) (code thread : Nat) (eff : State → Prop) : Prop := s.reach (0x80120010 + 8 * n.val) = true → Ends k s (fun u =>
      u.get (R.SCH_RES_RESULT n) = code ∧ u.get (R.SCH_RES_THREAD n) = thread % 2 ^ (R.SCH_RES_THREAD n).w ∧ eff u ∧ FldsBut s u [R.SCH_RES_RESULT n, R.SCH_RES_THREAD n] ∧
      u = { s with sch := u.sch, flds := u.flds, bus := u.bus, outs := u.outs })
    let becomes (st : ThrSt) (u : State) : Prop := (u.thr t.toNat).st = st ∧ ∀ y, y ≠ t.toNat → u.thr y = s.thr y
    let kept (u : State) : Prop := u.sch = s.sch
    (252 ≤ t.toNat → op (.makeReady n t beat) 3 t.toNat kept ∧ op (.block n t beat) 3 t.toNat kept ∧ op (.cancel n t) 3 t.toNat kept) ∧
    (t.toNat < 252 → beat = true → op (.makeReady n t beat) 2 t.toNat kept ∧ op (.block n t beat) 2 t.toNat kept) ∧
    (t.toNat < 252 → beat = false →
      (x.st = .dormant ∨ x.st = .blocked → prio ≤ 31 → affin ≠ 0 → op (.makeReady n t beat) 0 t.toNat (fun u => becomes .ready u ∧ (u.thr t.toNat).prio = prio ∧ (u.thr t.toNat).affin = affin)) ∧
      (x.st = .dormant ∨ x.st = .blocked → 31 < prio ∨ affin = 0 → op (.makeReady n t beat) 5 t.toNat kept) ∧
      (x.st = .ready ∨ x.st = .running → op (.makeReady n t beat) 1 t.toNat kept) ∧
      (x.st = .ready → op (.block n t beat) 0 t.toNat (becomes .blocked)) ∧ (x.st = .blocked → op (.block n t beat) 1 t.toNat kept) ∧ (x.st = .dormant → op (.block n t beat) 4 t.toNat kept)) ∧
    (t.toNat < 252 → (x.st = .ready ∨ x.st = .blocked → op (.cancel n t) 0 t.toNat (becomes .dormant)) ∧ (x.st = .dormant → op (.cancel n t) 1 t.toNat kept) ∧
      (x.st = .running → ∀ m, s.sch.cur.findIdx? (fun y => y == t.toNat) = some m → op (.cancel n t) 0 t.toNat (fun u => Store.get none u.sch.out m = some .dormant ∧ u.sch.thr = s.sch.thr) ∧
        (beat = false → op (.block n t beat) 0 t.toNat (fun u => Store.get none u.sch.out m = some .blocked ∧ u.sch.thr = s.sch.thr)))) ∧
    (s.running n < 252 → op (.yield n) 0 (s.running n) (fun u => u.sch.thr = s.sch.thr ∧ u.sch.cur = s.sch.cur)) ∧
    (252 ≤ s.running n → op (.yield n) 3 (s.running n) kept) ∧
    (∀ y w, Store.get none s.sch.slot n = some (y, w) → s.coreRuns n = true → s.switchPoint n = true → s.sch.cur.length = 4 → y ≠ s.running n → Ends (.contextSwitch n) s (fun u =>
      u.running n = y ∧ u.core n = { (s.core n).takeContext w with cyc := ((s.core n).cyc + 24) % 2 ^ 64 } ∧ (y < 252 → (u.thr y).st = .running) ∧
      (s.running n < 252 → (u.thr (s.running n)).st = (Store.get none s.sch.out n).getD .ready) ∧
      (∀ z, z ≠ y → z ≠ s.running n → u.thr z = s.thr z) ∧ BytesBut s u (s.tcb (s.running n)) 308 ∧ (Store.get none s.sch.out n = some .dormant → u.mem = s.mem) ∧
      u = { s with sch := u.sch, cores := u.cores, mem := u.mem, tst := u.tst, bus := u.bus, outs := u.outs })) ∧
    ((Store.get none s.sch.slot n = none ∨ s.switchPoint n = false) → Ends (.contextSwitch n) s (fun u => Unchanged s u)) ∧
    (s.reach 0x80120004 = true → n.val ≠ 0 → bit (s.get R.SCH_CORE_RUN_RUN) (n.val - 1) = false → Ends (.coreRelease n) s (fun u => bit (u.get R.SCH_CORE_RUN_RUN) (n.val - 1) = true ∧
      u.core n = { (s.core n).takeContext (s.record (252 + n.val)) with machine := true } ∧ (∀ m, m ≠ n.val → u.core m = s.core m) ∧ FldsBut s u [R.SCH_CORE_RUN_RUN] ∧
      u = { s with sch := u.sch, cores := u.cores, flds := u.flds, bus := u.bus, outs := u.outs })) ∧
    (s.reach (0x80120084 + 8 * n.val) = true → s.sch.tcmp.length = 4 → Ends (.tcmpHiWrite n v) s (fun u => u.get (R.SCH_TCMP_HI_TCMP_HI n) = v.toNat ∧
      u.sch.tcmp.getD n 0 = v.toNat * 2 ^ 32 + s.get (R.SCH_TCMP_LO_TCMP_LO n) ∧ (∀ m, m ≠ n.val → u.sch.tcmp.getD m 0 = s.sch.tcmp.getD m 0) ∧ FldsBut s u [R.SCH_TCMP_HI_TCMP_HI n] ∧
      u = { s with sch := u.sch, flds := u.flds, bus := u.bus, outs := u.outs })) ∧
    Ends (.timerCompareMatch n) s (fun u => u.now = max s.now (s.sch.tcmp.getD n 0) ∧ u.mtip n = true ∧ (bit ((s.core n).getCsr 0x304) 7 = true → (u.core n).wfi = false) ∧
      (∀ m, m ≠ n.val → u.core m = s.core m) ∧ u = { s with now := u.now, cores := u.cores, bus := u.bus, outs := u.outs }) ∧
    (s.irqLevel src = true → bit (s.get (R.SCH_IRQ_EN_EN n)) src = true → Ends (.externalInterrupt n src) s (fun u => u.meip n = true ∧ (bit ((s.core n).getCsr 0x304) 11 = true → (u.core n).wfi = false) ∧
      u = { s with cores := u.cores, bus := u.bus, outs := u.outs }))

/-- START of a free channel without a request source reads the LINEAR descriptor in application SRAM and is ACTIVE with its COUNT, or in ERROR CFG_ERR; with a source it is WAIT_REQ, with a reserved one in ERROR. A request starts the descriptor of a waiting channel and counts in PEND, or REQ_OVF, of a busy one. At DESCRIPTOR_COMPLETE the destination holds the bytes the source held, also where they overlap, while channels of a lower PRIO wait, COUNT is 0, events are set, and the chain ends DONE or waits; HALF_EVENT comes at half. A transient error counts; a lasting write error ends its channel, a lasting read error holds every ACTIVE one until RECOVER. ABORT acts by the channel's state. Everything else keeps its value. (That COUNT at ABORT follows the bytes the command names is the model's choice, log entry 62.) -/
def Obligations.DmaChannelsAndTransfers : Prop :=
  ∀ (s : State) (n : Fin 32) (q : Fin 9) (k : DErr) (addr : BitVec 32) (again tie last : Bool) (written : Nat) (d : DDesc),
    let st (u : State) (m : Nat) : Nat := u.get (R.DMA_CH_STAT_STATE m)
    let c := s.dch n
    let running : Prop := s.clocked 0x80130000 = true ∧ st s n = 2 ∧ s.flag R.DMA_STAT_HALTED = false
    let own (t : State) (fs : List Fld) : Prop := (∀ m, m ≠ n.val → t.dch m = s.dch m) ∧ FldsBut s t fs ∧ t = { s with dma := t.dma, flds := t.flds, bus := t.bus, outs := t.outs }
    let moved (t : State) (a m : Nat) (fs : List Fld) : Prop := (∀ j, j ≠ n.val → t.dch j = s.dch j) ∧ BytesBut s t a m ∧ FldsBut s t fs ∧
      t = { s with dma := t.dma, dmaTurn := t.dmaTurn, flds := t.flds, mem := t.mem, tst := { s.tst with poison := t.tst.poison }, cores := t.cores, bus := t.bus, outs := t.outs }
    let at0 := s.get (R.DMA_CH_DESC_DESC n)
    let readable (a : Nat) : Prop := region a = some .sram ∧ a % 32 = 0 ∧ s.domUp 2 = true ∧ s.poisoned a 32 = false
    let linear (a : Nat) : Prop := d = descOf ((List.range 8).map (fun i => s.load (a + 4 * i) 4)) ∧ d.kind = 0
    let copy : Prop := c.desc = some d ∧ d.kind = 0 ∧ d.ok c.elems = true ∧ region d.src = some .sram ∧ region d.dst = some .sram ∧ s.domUp 2 = true ∧ s.poisoned d.src d.count = false ∧ c.moved = 0 ∧
      (∀ m, m < 32 → m ≠ n.val → st s m = 2 → s.get (R.DMA_CH_CFG_PRIO m) < s.get (R.DMA_CH_CFG_PRIO n))
    let holds (t : State) (m : Nat) : Prop := ∀ i, i < m → t.byte (d.dst + i) = s.byte (d.src + i)
    let sets (t : State) (f : Fld) (due : Bool) : Prop := t.get f = if due then (s.get f ||| 2 ^ n.val) % 2 ^ 32 else s.get f
    let ran : List Fld := [R.DMA_CH_STAT_STATE n, R.DMA_CH_COUNT_COUNT n, R.DMA_HALF_HALF, R.DMA_FULL_FULL]
    let started : List Fld := [R.DMA_CH_STAT_STATE n, R.DMA_CH_STAT_ERR_CODE n, R.DMA_CH_STAT_PEND n, R.DMA_CH_CUR_CUR n, R.DMA_CH_COUNT_COUNT n, R.DMA_ERR_ERR]
    let total := d.total c.elems
    (s.reach (0x80130100 + 0x20 * n.val) = true →
      (s.dmaBusy n = true → Ends (.dmaStart n) s (fun t => Unchanged s t)) ∧
      (s.dmaBusy n = false →
        (s.get (R.DMA_CH_CFG_REQ n) = 0 → s.flag R.DMA_STAT_HALTED = false → readable at0 → linear at0 →
          Ends (.dmaStart n) s (fun t => t.get (R.DMA_CH_CUR_CUR n) = at0 ∧ t.get (R.DMA_CH_STAT_PEND n) = 0 ∧ own t started ∧
            (if d.ok [] then st t n = 2 ∧ t.get (R.DMA_CH_COUNT_COUNT n) = d.count ∧ t.get (R.DMA_CH_STAT_ERR_CODE n) = 0 ∧ t.dch n = ⟨some d, [], 0, d.next, 0⟩ ∧ t.get R.DMA_ERR_ERR = s.get R.DMA_ERR_ERR
             else st t n = 5 ∧ t.get (R.DMA_CH_STAT_ERR_CODE n) = 1 ∧ sets t R.DMA_ERR_ERR true))) ∧
        (1 ≤ s.get (R.DMA_CH_CFG_REQ n) → s.get (R.DMA_CH_CFG_REQ n) ≤ 9 → Ends (.dmaStart n) s (fun t => st t n = 1 ∧ t.get (R.DMA_CH_CUR_CUR n) = at0 % 2 ^ 32 ∧
          t.get (R.DMA_CH_STAT_PEND n) = 0 ∧ t.get (R.DMA_CH_STAT_ERR_CODE n) = 0 ∧ t.dch n = ⟨none, [], 0, at0, 0⟩ ∧ own t started)) ∧
        (10 ≤ s.get (R.DMA_CH_CFG_REQ n) → Ends (.dmaStart n) s (fun t => st t n = 5 ∧ t.get (R.DMA_CH_STAT_ERR_CODE n) = 1 ∧ sets t R.DMA_ERR_ERR true ∧ own t started))) ∧
      (st s n = 1 → Ends (.dmaAbort n written tie) s (fun t => st t n = 6 ∧ t.get (R.DMA_CH_STAT_PEND n) = 0 ∧ t.get (R.DMA_CH_COUNT_COUNT n) = 0 ∧
        OnlyFlds s t [R.DMA_CH_STAT_STATE n, R.DMA_CH_STAT_PEND n, R.DMA_CH_COUNT_COUNT n])) ∧
      (st s n = 7 → Ends (.dmaAbort n written tie) s (fun t => st t n = 6 ∧ OnlyFlds s t [R.DMA_CH_STAT_STATE n])) ∧
      (running → c.desc = some d → written ≤ c.moved → tie = false → Ends (.dmaAbort n written tie) s (fun t => st t n = 6 ∧ t.get (R.DMA_CH_COUNT_COUNT n) = (total - c.moved) % 2 ^ 24 ∧
        t.dch n = c ∧ own t [R.DMA_CH_STAT_STATE n, R.DMA_CH_COUNT_COUNT n])) ∧
      (running → copy → c.next = 0 → tie = true → Ends (.dmaAbort n written tie) s (fun t => st t n = 3 ∧ t.flag (R.DMA_CH_STAT_NTA n) = true ∧ holds t d.count ∧ sets t R.DMA_FULL_FULL d.fullEv ∧
        moved t d.dst d.count (R.DMA_CH_STAT_NTA n :: ran))) ∧
      (running → copy → c.next ≠ 0 → tie = true → Ends (.dmaAbort n written tie) s (fun t => st t n = 6 ∧ t.get (R.DMA_CH_COUNT_COUNT n) = 0 ∧ holds t d.count ∧ sets t R.DMA_FULL_FULL d.fullEv ∧ moved t d.dst d.count ran)) ∧
      (st s n ∈ [0, 3, 4, 5, 6] → Ends (.dmaAbort n written tie) s (fun t => t.flag (R.DMA_CH_STAT_NTA n) = true ∧ OnlyFlds s t [R.DMA_CH_STAT_NTA n]))) ∧
    (s.dmaReqDue (q.val + 1) = false → Ends (.dmaRequest q) s (fun t => Unchanged s t)) ∧
    (s.clocked 0x80130000 = true → s.dmaReqDue (q.val + 1) = true → s.get (R.DMA_CH_CFG_REQ n) = q.val + 1 → (∀ m, m < 32 → m ≠ n.val → s.get (R.DMA_CH_CFG_REQ m) ≠ q.val + 1) →
      let asked (t : State) (fs : List Fld) : Prop := own { t with cap := s.cap } fs ∧ t.cap = if q.val = 8 then s.cap else { s.cap with reqs := s.cap.reqs.erase q.val }
      (st s n = 1 → s.flag R.DMA_STAT_HALTED = false → readable c.next → linear c.next → d.ok [] = true → Ends (.dmaRequest q) s (fun t => st t n = 2 ∧ t.get (R.DMA_CH_CUR_CUR n) = c.next ∧
        t.get (R.DMA_CH_COUNT_COUNT n) = d.count ∧ t.dch n = ⟨some d, [], 0, d.next, c.held⟩ ∧ asked t [R.DMA_CH_STAT_STATE n, R.DMA_CH_CUR_CUR n, R.DMA_CH_COUNT_COUNT n])) ∧
      (st s n = 2 ∨ st s n = 7 ∨ st s n = 1 ∧ s.flag R.DMA_STAT_HALTED = true → Ends (.dmaRequest q) s (fun t =>
        (s.get (R.DMA_CH_STAT_PEND n) < 15 → t.get (R.DMA_CH_STAT_PEND n) = s.get (R.DMA_CH_STAT_PEND n) + 1 ∧ asked t [R.DMA_CH_STAT_PEND n]) ∧
        (15 ≤ s.get (R.DMA_CH_STAT_PEND n) → t.flag (R.DMA_CH_STAT_REQ_OVF n) = true ∧ asked t [R.DMA_CH_STAT_REQ_OVF n]))) ∧
      (st s n ∈ [0, 3, 4, 5, 6] → Ends (.dmaRequest q) s (fun t => asked t []))) ∧
    (running → copy →
      (c.next = 0 → Ends (.descriptorComplete n) s (fun t => st t n = 3 ∧ t.get (R.DMA_CH_COUNT_COUNT n) = 0 ∧ holds t d.count ∧ sets t R.DMA_FULL_FULL d.fullEv ∧ sets t R.DMA_HALF_HALF d.halfEv ∧ moved t d.dst d.count ran)) ∧
      (c.next ≠ 0 → s.get (R.DMA_CH_CFG_REQ n) ≠ 0 → s.get (R.DMA_CH_STAT_PEND n) = 0 → Ends (.descriptorComplete n) s (fun t => st t n = 1 ∧ t.get (R.DMA_CH_COUNT_COUNT n) = 0 ∧ holds t d.count ∧
        sets t R.DMA_FULL_FULL d.fullEv ∧ sets t R.DMA_HALF_HALF d.halfEv ∧ t.dch n = { c with desc := none, elems := [] } ∧ moved t d.dst d.count ran)) ∧
      (d.halfEv = true → 2 ≤ d.count → (d.dst ≤ d.src ∨ d.src + d.count ≤ d.dst) → Ends (.halfEvent n) s (fun t =>
        let m := d.beat * ceilDiv (d.count / 2) d.beat
        sets t R.DMA_HALF_HALF true ∧ t.get (R.DMA_CH_COUNT_COUNT n) = d.count - m ∧ holds t m ∧ t.dch n = { c with moved := m } ∧ st t n = 2 ∧ moved t d.dst m [R.DMA_CH_COUNT_COUNT n, R.DMA_HALF_HALF]))) ∧
    (c.desc = none → Ends (.descriptorComplete n) s (fun t => Unchanged s t) ∧ Ends (.halfEvent n) s (fun t => Unchanged s t)) ∧
    (running →
      (again = true → Ends (.dmaBusError n k addr again written last) s (fun t => Counted s t R.DMA_TRANS_CNT_COUNT ∧ OnlyFlds s t [R.DMA_TRANS_CNT_COUNT])) ∧
      (again = false → c.desc = some d → written ≤ c.moved →
        (k = .write → last = false → Ends (.dmaBusError n k addr again written last) s (fun t => st t n = 5 ∧ t.get (R.DMA_CH_STAT_ERR_CODE n) = 2 ∧ t.get (R.DMA_CH_ERR_ADDR_ADDR n) = addr.toNat ∧
          t.get (R.DMA_CH_COUNT_COUNT n) = (total - c.moved) % 2 ^ 24 ∧ sets t R.DMA_ERR_ERR true ∧ t.dch n = c ∧ own t [R.DMA_CH_STAT_STATE n, R.DMA_CH_STAT_ERR_CODE n, R.DMA_CH_ERR_ADDR_ADDR n, R.DMA_CH_COUNT_COUNT n, R.DMA_ERR_ERR])) ∧
        (k = .write → last = true → c.moved = total - d.beat → Ends (.dmaBusError n k addr again written last) s (fun t => st t n = 4 ∧ t.get (R.DMA_CH_STAT_ERR_CODE n) = 2 ∧ t.get (R.DMA_CH_ERR_ADDR_ADDR n) = addr.toNat ∧
          t.get (R.DMA_CH_COUNT_COUNT n) = 0 ∧ sets t R.DMA_ERR_ERR true ∧ own t [R.DMA_CH_STAT_STATE n, R.DMA_CH_STAT_ERR_CODE n, R.DMA_CH_ERR_ADDR_ADDR n, R.DMA_CH_COUNT_COUNT n, R.DMA_ERR_ERR])) ∧
        (k ≠ .write → Ends (.dmaBusError n k addr again written last) s (fun t => t.flag R.DMA_STAT_HALTED = true ∧ t.flag R.DMA_STAT_FAULT = true ∧ t.get R.DMA_FAULT_ADDR_ADDR = addr.toNat ∧
          (∀ m, m < 32 → (st s m = 2 → st t m = 7 ∧ (t.dch m).held = if k = .read then 3 else 4) ∧ (st s m ≠ 2 → st t m = st s m ∧ t.dch m = s.dch m)) ∧
          FldsBut s t ([R.DMA_STAT_HALTED, R.DMA_STAT_FAULT, R.DMA_FAULT_ADDR_ADDR, R.DMA_CH_COUNT_COUNT n] ++ (List.range 32).map R.DMA_CH_STAT_STATE) ∧
          t = { s with dma := t.dma, flds := t.flds, bus := t.bus, outs := t.outs })))) ∧
    (s.reach 0x80130000 = true →
      (s.flag R.DMA_STAT_HALTED = false → Ends .recover s (fun t => Unchanged s t)) ∧
      (s.flag R.DMA_STAT_HALTED = true → (∀ m, m < 32 → (st s m = 2 → (s.dch m).desc.isSome = true) ∧ (st s m = 1 → s.get (R.DMA_CH_STAT_PEND m) = 0)) → Ends .recover s (fun t =>
        t.flag R.DMA_STAT_HALTED = false ∧
        (∀ m, m < 32 → (st s m = 7 → st t m = 5 ∧ t.get (R.DMA_CH_STAT_ERR_CODE m) = (s.dch m).held % 2 ^ 3 ∧ t.get (R.DMA_CH_ERR_ADDR_ADDR m) = s.get R.DMA_FAULT_ADDR_ADDR % 2 ^ 32 ∧ bit (t.get R.DMA_ERR_ERR) m = true) ∧
          (st s m ≠ 7 → st t m = st s m ∧ (bit (t.get R.DMA_ERR_ERR) m = true ↔ bit (s.get R.DMA_ERR_ERR) m = true))) ∧
        FldsBut s t ([R.DMA_STAT_HALTED, R.DMA_ERR_ERR] ++ (List.range 32).flatMap (fun m => [R.DMA_CH_STAT_STATE m, R.DMA_CH_STAT_ERR_CODE m, R.DMA_CH_ERR_ADDR_ADDR m])) ∧
        (∀ m, t.dch m = s.dch m) ∧ t = { s with flds := t.flds, bus := t.bus, outs := t.outs })))

/-- A stable source that has not failed is taken into use, HSX with its ratio and DEGRADED clear; one that is not stable in time is marked. A monitor window within its limits changes nothing; a slow source, or IRC by its own check, outside them is marked failed; the loss of HSX moves the fast trees to IRC, stops the lanes, with BREAK on each ring whose port goes down by it, expires the fence, puts an active island in ISL_FAULT code 3 and a running device in SAFE_HOLD. A mux that waits is forced. A gate opens, closes, is deferred while its block is accessed, or its close is refused with GATE_ERR, and an enable of a block that the image leaves unpowered is ignored and counted with the address of CLK_GATE; a deferred close takes effect. A supply below 1.68 V and a junction above 125 °C set their flags, which stand. 0x5A then 0xA5 feeds the watchdog, any other write counts. -/
def Obligations.ClocksGatesAndSupply : Prop :=
  ∀ (s : State) (ratio : BitVec 32) (hsx lsx lrc : Int) (irc : Option Int) (stopped : BitVec 2) (v busy : BitVec 18) (i : Fin 18) (mv tj : BitVec 16) (w : BitVec 8),
    let failed (u : State) (k : Nat) : Bool := bit (u.get R.CLK_FAIL_SRC_FAILED) k
    let fine (d : Int) : Prop := d.natAbs ≤ 20000
    let frame (t : State) : Prop := t = { s with rings := t.rings, cas := t.cas, mtr := t.mtr, hst := t.hst, isl := t.isl, axes := t.axes, chans := t.chans, dev := t.dev, holdBy := t.holdBy, pwr := t.pwr, flds := t.flds, bus := t.bus, outs := t.outs }
    let lost (t : State) : Prop := failed t 0 = true ∧ t.flag R.TIM_STAT_DEGRADED = true ∧ t.dev = .safeHold ∧ .hsx ∈ t.holdBy ∧
      (s.mtr.holder = true → t.mtr.holder = false ∧ t.mtr.fence = 0 ∧ t.mtr.pairAct = false) ∧ (s.islSt = 1 ∨ s.islSt = 2 → t.islSt = 4 ∧ t.get R.SAF_STAT_ISL_CODE = 3) ∧
      (∀ k : Fin 4, s.ringEn k = true → ((t.ring k).port false).sync = false ∧ ((t.ring k).port true).sync = false ∧
        t.flag (R.RING_STAT_BREAK k) = (s.flag (R.RING_STAT_BREAK k) || ((s.ring k).port false).sync || ((s.ring k).port true).sync)) ∧
      (s.casEn = true → (t.cas.port false).sync = false ∧ (t.cas.port true).sync = false) ∧ (s.mtr.paired = true → t.linkUp = false) ∧ t.flag R.HST_STAT_LINK = false ∧ frame t
    (s.dev ≠ .off →
      (failed s 1 = false → Ends (.oscillatorStable true ratio) s (fun t => t.flag R.CLK_STAT_LSX_OK = true ∧ t.flag R.CLK_STAT_AO_SRC = false ∧ OnlyFlds s t [R.CLK_STAT_LSX_OK, R.CLK_STAT_AO_SRC])) ∧
      (failed s 0 = false → Ends (.oscillatorStable false ratio) s (fun t => t.flag R.CLK_STAT_HSX_OK = true ∧ t.flag R.CLK_STAT_FAST_SRC = false ∧ t.flag R.CLK_STAT_PLL_LOCK = true ∧
        t.get R.CLK_RATIO_RATIO = ratio.toNat ∧ t.flag R.TIM_STAT_DEGRADED = false ∧ OnlyFlds s t [R.CLK_STAT_HSX_OK, R.CLK_STAT_FAST_SRC, R.CLK_STAT_PLL_LOCK, R.CLK_RATIO_RATIO, R.TIM_STAT_DEGRADED])) ∧
      (s.flag R.CLK_STAT_LSX_OK = false → Ends (.oscillatorTimeout true) s (fun t => failed t 1 = true ∧ t.flag R.CLK_STAT_LSX_TO = true ∧ OnlyFlds s t [R.CLK_FAIL_SRC_FAILED, R.CLK_STAT_LSX_TO])) ∧
      (s.flag R.CLK_STAT_HSX_OK = true → Ends (.oscillatorTimeout false) s (fun t => Unchanged s t)) ∧
      (s.flag R.CLK_STAT_HSX_OK = false → failed s 2 = false → s.dev = .run → Ends (.oscillatorTimeout false) s (fun t => t.flag R.CLK_STAT_HSX_TO = true ∧ lost t)) ∧
      (s.flag R.CLK_STAT_HSX_OK = true → s.flag R.CLK_STAT_IRC_OK = true → Ends (.ratioRelearn ratio) s (fun t => t.get R.CLK_RATIO_RATIO = ratio.toNat ∧ OnlyFlds s t [R.CLK_RATIO_RATIO])) ∧
      (failed s 0 = false →
        (fine hsx → fine lsx → fine lrc → irc = none ∨ irc = some 0 → Ends (.clockMonitorWindow hsx irc lsx lrc stopped) s (fun t => Unchanged s t)) ∧
        (fine hsx → ¬fine lsx → fine lrc → irc = none → s.flag R.CLK_STAT_LSX_OK = true → Ends (.clockMonitorWindow hsx irc lsx lrc stopped) s (fun t => failed t 1 = true ∧ t.flag R.CLK_STAT_CLK_FAIL = true ∧
          t.flag R.CLK_STAT_LSX_OK = false ∧ (bit stopped.toNat 1 = false → t.flag R.CLK_STAT_AO_SRC = true ∧ t.pwr = s.pwr) ∧ (bit stopped.toNat 1 = true → t.pwr = { s.pwr with muxAo := true }) ∧
          FldsBut s t [R.CLK_FAIL_SRC_FAILED, R.CLK_STAT_CLK_FAIL, R.CLK_STAT_LSX_OK, R.CLK_STAT_AO_SRC] ∧ t = { s with flds := t.flds, pwr := t.pwr, bus := t.bus, outs := t.outs })) ∧
        (fine hsx → fine lsx → ¬fine lrc → irc = none → s.flag R.CLK_STAT_LRC_OK = true → Ends (.clockMonitorWindow hsx irc lsx lrc stopped) s (fun t => failed t 3 = true ∧ t.flag R.CLK_STAT_CLK_FAIL = true ∧
          t.flag R.CLK_STAT_LRC_OK = false ∧ OnlyFlds s t [R.CLK_FAIL_SRC_FAILED, R.CLK_STAT_CLK_FAIL, R.CLK_STAT_LRC_OK])) ∧
        (∀ d, irc = some d → 10000 < d.natAbs → fine lsx → fine lrc → s.flag R.CLK_STAT_IRC_OK = true → Ends (.clockMonitorWindow hsx irc lsx lrc stopped) s (fun t => failed t 2 = true ∧ t.flag R.CLK_STAT_CLK_FAIL = true ∧
          t.flag R.CLK_STAT_IRC_OK = false ∧ OnlyFlds s t [R.CLK_FAIL_SRC_FAILED, R.CLK_STAT_CLK_FAIL, R.CLK_STAT_IRC_OK])) ∧
        (¬fine hsx → fine lsx → fine lrc → irc = none → s.flag R.CLK_STAT_HSX_OK = true → failed s 2 = false → s.dev = .run → Ends (.clockMonitorWindow hsx irc lsx lrc stopped) s (fun t => lost t ∧ t.flag R.CLK_STAT_CLK_FAIL = true ∧
          t.flag R.CLK_STAT_HSX_OK = false ∧ (bit stopped.toNat 0 = false → t.flag R.CLK_STAT_FAST_SRC = true) ∧ (bit stopped.toNat 0 = true → t.pwr.muxFast = true)))) ∧
      Ends (.vsupLow mv) s (fun t => t.get R.PWR_VSUP_MV = mv.toNat ∧ t.flag R.PWR_STAT_VSUP_LOW = (decide (mv.toNat < 1680) || s.flag R.PWR_STAT_VSUP_LOW) ∧ OnlyFlds s t [R.PWR_VSUP_MV, R.PWR_STAT_VSUP_LOW]) ∧
      Ends (.overtemp tj) s (fun t => t.get R.PWR_TEMP_TJ = tj.toNat ∧ t.flag R.PWR_STAT_OVERTEMP = (decide (2000 < tj.toInt) || s.flag R.PWR_STAT_OVERTEMP) ∧
        t.get R.PWR_TEMP_TJ_MAX = (if sx 16 (s.get R.PWR_TEMP_TJ_MAX) < tj.toInt then tj.toNat else s.get R.PWR_TEMP_TJ_MAX) ∧ OnlyFlds s t [R.PWR_TEMP_TJ, R.PWR_TEMP_TJ_MAX, R.PWR_STAT_OVERTEMP])) ∧
    (s.pwr.muxFast = true ∨ s.pwr.muxAo = true → Ends .muxForce s (fun t => t.flag R.CLK_STAT_FORCED = true ∧ (s.pwr.muxFast = true → t.flag R.CLK_STAT_FAST_SRC = true) ∧ (s.pwr.muxAo = true → t.flag R.CLK_STAT_AO_SRC = true) ∧
      t.pwr = { s.pwr with muxFast := false, muxAo := false } ∧ FldsBut s t [R.CLK_STAT_FORCED, R.CLK_STAT_FAST_SRC, R.CLK_STAT_AO_SRC] ∧ t = { s with pwr := t.pwr, flds := t.flds, bus := t.bus, outs := t.outs })) ∧
    (s.pwr.muxFast = false → s.pwr.muxAo = false → Ends .muxForce s (fun t => Unchanged s t)) ∧
    (let ignored (j : Nat) : Bool := bit v.toNat j && !bit (s.get R.CLK_GATE_EN) j && s.leftOff (gateDom j)
     Ends (.clockGateWrite v busy) s (fun t => OnlyFlds s t [R.CLK_GATE_EN, R.CLK_GATE_PEND_PEND, R.CLK_STAT_GATE_ERR, R.GATED_ACC_CNT_COUNT, R.CLK_GATED_ADDR_ADDR] ∧
      ((∀ j, j < 18 → bit v.toNat j = true ∨ bit (s.get R.CLK_GATE_EN) j = false ∨ s.gateRefused j = false) → t.get R.CLK_STAT_GATE_ERR = s.get R.CLK_STAT_GATE_ERR) ∧
      ((∀ j, j < 18 → ignored j = false) → t.get R.GATED_ACC_CNT_COUNT = s.get R.GATED_ACC_CNT_COUNT ∧ t.get R.CLK_GATED_ADDR_ADDR = s.get R.CLK_GATED_ADDR_ADDR) ∧
      ((∀ j, j < 18 → ignored j = decide (j = i.val)) → Counted s t R.GATED_ACC_CNT_COUNT ∧ t.get R.CLK_GATED_ADDR_ADDR = 0x80010010) ∧
      ∀ j, j < 18 →
        let en := bit (s.get R.CLK_GATE_EN) j
        let pe := bit (s.get R.CLK_GATE_PEND_PEND) j
        let now (e p : Bool) : Prop := bit (t.get R.CLK_GATE_EN) j = e ∧ bit (t.get R.CLK_GATE_PEND_PEND) j = p
        (ignored j = true → now false pe) ∧ (bit v.toNat j = true → ignored j = false → now true false) ∧ (bit v.toNat j = false →
          (en = false → now false pe) ∧ (en = true → s.gateRefused j = true → now true pe ∧ t.flag R.CLK_STAT_GATE_ERR = true) ∧
          (en = true → s.gateRefused j = false → bit busy.toNat j = true → now true true) ∧ (en = true → s.gateRefused j = false → bit busy.toNat j = false → now false false)))) ∧
    (bit (s.get R.CLK_GATE_PEND_PEND) i = true → Ends (.gateCloseDeferred i) s (fun t => bit (t.get R.CLK_GATE_EN) i = false ∧ bit (t.get R.CLK_GATE_PEND_PEND) i = false ∧
      (∀ j, j < 18 → j ≠ i.val → bit (t.get R.CLK_GATE_EN) j = bit (s.get R.CLK_GATE_EN) j ∧ bit (t.get R.CLK_GATE_PEND_PEND) j = bit (s.get R.CLK_GATE_PEND_PEND) j) ∧ OnlyFlds s t [R.CLK_GATE_EN, R.CLK_GATE_PEND_PEND])) ∧
    (bit (s.get R.CLK_GATE_PEND_PEND) i = false → Ends (.gateCloseDeferred i) s (fun t => Unchanged s t)) ∧
    (s.pwr.fed = true → Ends (.watchdogFeed 0xA5) s (fun t => t.pwr = { s.pwr with fed := false, wdtEnd := s.now + s.get R.PWR_WDT_CFG_TIMEOUT_MS * 1000000 } ∧ t = { s with pwr := t.pwr, bus := t.bus, outs := t.outs })) ∧
    Ends (.watchdogFeed 0x5A) s (fun t => t.pwr = { s.pwr with fed := true } ∧ t = { s with pwr := t.pwr, bus := t.bus, outs := t.outs }) ∧
    (w ≠ 0x5A → w ≠ 0xA5 ∨ s.pwr.fed = false → Ends (.watchdogFeed w) s (fun t => t.pwr = { s.pwr with fed := false } ∧ Counted s t R.PWR_WDT_BAD_FEED ∧ FldsBut s t [R.PWR_WDT_BAD_FEED] ∧
      t = { s with pwr := t.pwr, flds := t.flds, bus := t.bus, outs := t.outs })) ∧
    (s.dev = .reset → s.rstLow = true → Ends .resetHeldLong s (fun t => t.flag R.PWR_RST_CAUSE_RESET_HELD_LONG = true ∧ OnlyFlds s t [R.PWR_RST_CAUSE_RESET_HELD_LONG])) ∧
    (s.rstLow = false → Ends .resetHeldLong s (fun t => Unchanged s t))

/-- A warm reset from any source takes the outputs off, resets every domain but PD0, keeps PD0's registers and every memory, sets its cause and counts; POWER_ON and the release of reset sample the straps and begin BOOT, wake-up begins BOOT; start-up zeroes the memories but the journal, whose poisoned entries go, and lets a powered island leave reset; the loss of supply leaves only the fuses. GO_RUN enters RUN with engines that have axes running, the records of the process image at their reset values, and the rings and the cascade listening; GO_STANDBY, with every axis DISABLED, reads 1 until the next sync gap in a device that is part of a ring or the cascade, and else halts the engines and bypasses the rings at once; GO_WATCH powers every domain down but PD0; each refused request sets REQ_ERR alone. A domain request allowed in STANDBY powers domains down, their memories then reading as nothing written, or lets them rise; one refused for a domain that the image leaves unpowered counts as an access to it; a domain that has powered up reads as nothing written. -/
def Obligations.PowerStatesAndResets : Prop :=
  ∀ (s : State) (c : RstCause) (v : BitVec 12) (d : Fin 12) (pass b root : Bool) (k : Fin 4) (hold : Nat),
    let refused (t : State) : Prop := t.flag R.PWR_STAT_REQ_ERR = true ∧ OnlyFlds s t [R.PWR_STAT_REQ_ERR]
    let aon (t : State) (fs : List Fld) : Prop := ∀ f : Fld, blockDom (f.key / 32) = 0 → (∀ g ∈ fs, g.key ≠ f.key) → t.get f = s.get f
    let entered (t : State) (c : RstCause) : Prop := t.dev = .reset ∧ t.pwr.cause = some c ∧ t.pwr.wdtOn = false ∧ t.flag c.fld = true ∧ Counted s t R.PWR_RST_CNT_WARM ∧ .safetyPins 0 0 0 ∈ t.outs ∧ t.permit = false ∧
      t.mem = s.mem ∧ t.tst.poison = s.tst.poison ∧ t.mtr.fence = 0 ∧ t.axes = [] ∧ t.engs = [] ∧ t.chans = [] ∧ t.rings = [] ∧ t.cores = [] ∧ t.dma = [] ∧ t.get R.CLK_FAIL_SRC_FAILED = (s.get R.CLK_FAIL_SRC_FAILED &&& 10) % 2 ^ 4 ∧
      aon t [R.CLK_FAIL_SRC_FAILED, R.CLK_STAT_IRC_OK, c.fld, R.PWR_RST_CNT_WARM, R.PWR_CTRL_GO_RUN, R.PWR_CTRL_GO_STANDBY, R.PWR_CTRL_GO_WATCH] ∧
      (∀ f : Fld, blockDom (f.key / 32) ≠ 0 → keptKeys.contains f.key = false → t.get f = f.rst) ∧
      t.pending = s.pending ∧ t.boot = s.boot ∧ t.chain = s.chain ∧ t.holdBy = s.holdBy
    let leaves : Bool := s.dev == .reset && s.domUp 1
    let booted (t : State) (fs : List Fld) : Prop := t.dev = .boot ∧ (s.domUp 2 = false → 2 ∈ t.pwr.rising) ∧ t.boot = { Boot.init with protect := s.boot.protect } ∧ t.flag R.PWR_STAT_BOOT_ERR = false ∧ t.mem = [] ∧
      (∀ p ∈ t.tst.poison, p ∈ s.tst.poison ∧ p.1 = 7) ∧ t.mtr = { s.mtr with jnl := t.mtr.jnl } ∧ ((∀ p ∈ s.tst.poison, p.1 ≠ 7) → t.mtr = s.mtr ∧ (leaves = false → t.flag R.JNL_STAT_LOST = s.flag R.JNL_STAT_LOST)) ∧
      (leaves = true → t.isl = Isl.init s.isl.cfg ∧ t.islSt = 1 ∧ t.get R.SAF_CFG_CRC_CRC = s.get R.SAF_CFG_CRC_CRC) ∧ (leaves = false → t.isl = s.isl ∧ t.axes = s.axes ∧ t.chans = s.chans) ∧
      (∀ f : Fld, (∀ g ∈ fs ++ [R.PWR_STAT_BOOT_ERR, R.CAS_BOOT_ROLE, R.CAS_BOOT_CHAIN_POS, R.CAS_BOOT_COUNT, R.CAS_BOOT_FAIL, R.JNL_STAT_LOST], g.key ≠ f.key) →
        (leaves = true → blockDom (f.key / 32) ≠ 1 ∧ f.key ≠ R.STP_SAFE_OFF0_SAFE_OFF.key ∧ f.key ≠ R.STP_SAFE_OFF1_SAFE_OFF.key) → t.get f = s.get f) ∧
      t = { s with dev := t.dev, boot := t.boot, chain := t.chain, holdBy := t.holdBy, pwr := t.pwr, rstLow := t.rstLow, jtag := t.jtag, mem := t.mem, tst := { s.tst with poison := t.tst.poison }, mtr := t.mtr, isl := t.isl, axes := t.axes, chans := t.chans, flds := t.flds, bus := t.bus, outs := t.outs }
    let straps (t : State) : Prop := t.flag R.MTR_STAT_MEMBER = b ∧ t.flag R.CAS_CFG_ROOT = root ∧ t.flag R.HST_STAT_ACTIVE = root
    let strapFlds : List Fld := [R.MTR_STAT_MEMBER, R.CAS_CFG_ROOT, R.HST_STAT_ACTIVE]
    let dark (t : State) : Prop := t.dev = .off ∧ t.mem = [] ∧ t.cores = [] ∧ t.permit = false ∧ .safetyPins 0 0 0 ∈ t.outs ∧ t.pwr = Pwr.init ∧ t.pending = s.pending ∧ t.get R.NVM_FUSE_LOCK = s.get R.NVM_FUSE_LOCK ∧
      (∀ j, j < 8 → t.get (R.NVM_FUSE_HASH_HASH j) = s.get (R.NVM_FUSE_HASH_HASH j)) ∧
      ∀ f : Fld, f.key ≠ R.NVM_FUSE_LOCK.key → (∀ j, j < 8 → f.key ≠ (R.NVM_FUSE_HASH_HASH j).key) → t.get f = f.rst
    (s.dev ≠ .off →
      (c ≠ .por → Ends (.resetEntry c) s (fun t => entered t c ∧ t.rstLow = s.rstLow ∧ t.jtag = s.jtag)) ∧ Ends .softwareReset s (fun t => entered t .sw ∧ t.rstLow = s.rstLow ∧ t.jtag = s.jtag) ∧
      (s.rstLow = false → Ends .pinReset s (fun t => entered t .pin ∧ t.rstLow = true ∧ t.jtag = s.jtag.pin true)) ∧ (s.rstLow = true → Ends .pinReset s (fun t => Unchanged s t)) ∧
      (s.pwr.wdtOn = true → s.dev ≠ .reset → Ends .watchdogExpire s (fun t => entered t .wdt ∧ t.rstLow = s.rstLow ∧ t.jtag = s.jtag)) ∧
      (s.pwr.wdtOn = false → Ends .watchdogExpire s (fun t => Unchanged s t)) ∧ Ends .vsupFail s dark ∧ Ends (.resetEntry .por) s dark ∧ Ends (.powerOn b root) s (fun t => Unchanged s t)) ∧
    (s.dev = .off → Ends (.powerOn b root) s (fun t => straps t ∧ booted t strapFlds ∧ t.rstLow = s.rstLow ∧ t.jtag = s.jtag) ∧ Ends .vsupFail s (fun t => Unchanged s t)) ∧
    (s.dev = .reset → (s.pwr.cause = some .clock → s.flag R.CLK_STAT_HSX_OK = true) → Ends (.resetRelease hold b root) s (fun t => straps t ∧ booted t ([R.PWR_RST_CAUSE_HOLD_T, R.PWR_RST_CAUSE_RESET_HELD_LONG] ++ strapFlds) ∧ t.pwr.cause = none ∧ t.rstLow = false ∧
      (s.rstLow = true → t.get R.PWR_RST_CAUSE_HOLD_T = min hold 65535 ∧ t.flag R.PWR_RST_CAUSE_RESET_HELD_LONG = (decide (1000 ≤ hold) || s.flag R.PWR_RST_CAUSE_RESET_HELD_LONG) ∧ t.jtag = s.jtag.pin false) ∧
      (s.rstLow = false → t.get R.PWR_RST_CAUSE_HOLD_T = s.get R.PWR_RST_CAUSE_HOLD_T ∧ t.flag R.PWR_RST_CAUSE_RESET_HELD_LONG = s.flag R.PWR_RST_CAUSE_RESET_HELD_LONG ∧ t.jtag = s.jtag))) ∧
    (s.dev ≠ .reset ∨ s.pwr.cause = some .clock ∧ s.flag R.CLK_STAT_HSX_OK = false → Ends (.resetRelease hold b root) s (fun t => Unchanged s t)) ∧
    (s.dev = .watch →
      (s.rstLow = false → Ends (.wake 0) s (fun t => entered t .pin ∧ t.rstLow = true)) ∧
      (s.flag R.PWR_WAKE_GPIO0_EN = true → (s.flag R.PWR_WAKE_GPIO0_FALL = false → Ends (.wake 1) s (fun t => booted t [])) ∧ (s.flag R.PWR_WAKE_GPIO0_FALL = true → Ends (.wake 2) s (fun t => booted t []))) ∧
      (s.flag R.PWR_WAKE_GPIO0_EN = false → Ends (.wake 1) s (fun t => Unchanged s t) ∧ Ends (.wake 2) s (fun t => Unchanged s t)) ∧
      (s.flag R.PWR_WAKE_ALARM_EN = true → Ends (.wake 3) s (fun t => booted t [])) ∧ (s.flag R.PWR_WAKE_ALARM_EN = false → Ends (.wake 3) s (fun t => Unchanged s t))) ∧
    (s.dev ≠ .watch → Ends (.wake k) s (fun t => Unchanged s t)) ∧
    (s.dev = .standby → s.faultFree = true → Ends .goRun s (fun t => t.dev = .run ∧ t.get R.BOND_START_STATE = 1 ∧ t.get R.BOND_START_QUIET = 0 ∧ t.get R.BOND_START_FAILS = 0 ∧ t.flag R.BOND_START_HELD64 = false ∧
      t.flag R.BOND_START_WAIT256 = s.wait256 ∧ (∀ j, s.ringEn j = true → j < 4 → t.get (R.RING_STAT_STATE j) = 2) ∧ (s.casEn = true → t.get R.CAS_STAT_STATE = 2) ∧
      (∀ n, n < 12 → ((s.eng n).axes ≠ [] → (t.eng n).st = .running ∧ (t.eng n).axes = (s.eng n).axes ∧ ((s.eng n).st ≠ .running → (t.eng n).pc = s.get (R.LE_ENG_ENTRY_ENTRY n) / 4 * 4)) ∧ ((s.eng n).axes = [] → t.eng n = s.eng n)) ∧
      t.pim = { s.pim with recs := [], latch := [], log := [], writes := 0, start := [], prev := [] } ∧
      (∀ a, a < 0x50000000 ∨ 0x50300000 ≤ a → t.byte a = s.byte a) ∧
      t = { s with dev := t.dev, engs := t.engs, mem := t.mem, tst := { s.tst with poison := t.tst.poison }, pim := t.pim, rings := t.rings, bond := t.bond, flds := t.flds, bus := t.bus, outs := t.outs })) ∧
    (s.dev ≠ .standby ∨ s.faultFree = false → Ends .goRun s refused) ∧
    (s.dev = .run → (∀ a x, (a, x) ∈ s.axes → x.enabled = false) →
      let part := s.casIn || s.ringsEn.any s.inserted
      (part = true → Ends .goStandby s (fun t => t.flag R.PWR_CTRL_GO_STANDBY = true ∧ OnlyFlds s t [R.PWR_CTRL_GO_STANDBY])) ∧
      (part = false → Ends .goStandby s (fun t => t.dev = .standby ∧ t.permit = false ∧ t.get R.BOND_START_STATE = 0 ∧ t.bond = Bond.init ∧
        (∀ j ∈ s.ringsEn, t.get (R.RING_STAT_STATE j) = 1 ∧ t.flag (R.RING_STAT_BYP j) = false) ∧ (s.casEn = true → t.get R.CAS_STAT_STATE = 1 ∧ t.flag R.CAS_STAT_BYP = false) ∧
        (∀ n, n < 12 → (t.eng n).st = .halted ∨ (t.eng n).haltReq = true) ∧
        t = { s with dev := t.dev, engs := t.engs, rings := t.rings, cas := t.cas, crs := t.crs, bond := t.bond, chans := t.chans, mtr := s.mtr.unready, flds := t.flds, bus := t.bus, outs := t.outs }))) ∧
    (s.dev ≠ .run ∨ (∃ a x, (a, x) ∈ s.axes ∧ x.enabled = true) → Ends .goStandby s refused) ∧
    (s.dev = .standby → (∀ i e, (i, e) ∈ s.jnl.all → e.st = 4) → Ends .goWatch s (fun t => t.dev = .watch ∧ (∀ j ∈ allDoms, t.domUp j = false) ∧ t.mem = [] ∧ t.jnl.all = [] ∧ t.permit = false ∧ .safetyPins 0 0 0 ∈ t.outs ∧
      aon t [R.PWR_DOM_ON] ∧ t.pwr = { s.pwr with wdtOn := false, fed := false, rising := [] } ∧ t.pending = s.pending)) ∧
    (s.dev ≠ .standby ∨ (∃ i e, (i, e) ∈ s.jnl.all ∧ e.st ≠ 4) → Ends .goWatch s refused) ∧
    (s.dev = .standby → (∀ j ∈ allDoms, bit v.toNat j ≠ (s.domUp j || s.pwr.rising.contains j) → bit s.pwr.imgDoms j = true) → Ends (.domainRequest v) s (fun t => t.get R.PWR_DOM_REQ_REQ = v.toNat / 2 ∧ t.dev = .standby ∧ t.pending = s.pending ∧
      (∀ j ∈ allDoms, (bit v.toNat j = false → t.domUp j = false ∧ j ∉ t.pwr.rising) ∧ (bit v.toNat j = true → t.domUp j = s.domUp j ∧ (s.domUp j = false → j ∈ t.pwr.rising))) ∧
      (∀ a, bit v.toNat (memDom a) = true → t.byte a = s.byte a) ∧ (∀ a, bit v.toNat (memDom a) = false → s.domUp (memDom a) = true → t.byte a = memRst a) ∧
      ((∀ j ∈ allDoms, bit v.toNat j = (s.domUp j || s.pwr.rising.contains j)) → OnlyFlds s t [R.PWR_DOM_REQ_REQ]))) ∧
    (s.dev = .boot ∨ s.dev = .reset ∨ s.dev = .watch ∨ s.dev = .off → Ends (.domainRequest v) s refused) ∧
    (∀ j ∈ allDoms, s.dev = .standby → bit v.toNat j ≠ (s.domUp j || s.pwr.rising.contains j) → bit s.pwr.imgDoms j = false → Ends (.domainRequest v) s refused) ∧
    (∀ j ∈ allDoms, j ≠ 10 → s.inCourses = true → bit v.toNat j ≠ (s.domUp j || s.pwr.rising.contains j) →
      let off (x : Nat) : Bool := bit v.toNat x && !s.pwr.rising.contains x && s.leftOff x
      ((∀ x ∈ allDoms, off x = false) → Ends (.domainRequest v) s refused) ∧
      ((∀ x ∈ allDoms, off x = decide (x = j)) → Ends (.domainRequest v) s (fun t => t.flag R.PWR_STAT_REQ_ERR = true ∧ Counted s t R.GATED_ACC_CNT_COUNT ∧ t.get R.CLK_GATED_ADDR_ADDR = 0x8002000C ∧
        OnlyFlds s t [R.PWR_STAT_REQ_ERR, R.GATED_ACC_CNT_COUNT, R.CLK_GATED_ADDR_ADDR]))) ∧
    (∀ r, s.pwr.rising = d.val :: r →
      (s.dev ≠ .boot → Ends (.domainPowerUp d pass) s (fun t => t.domUp d = true ∧ t.pwr = { s.pwr with rising := r } ∧ (∀ a, memDom a = d.val → t.byte a = memRst a) ∧ (∀ a, memDom a ≠ d.val → t.byte a = s.byte a) ∧ (d.val = 1 → t.islSt = 1) ∧ (d.val = 2 → t.jnl.all = []) ∧
        (∀ j, j < 12 → j ≠ d.val → t.domUp j = s.domUp j) ∧ t.dev = s.dev ∧ t.pending = s.pending)) ∧
      (s.dev = .boot → Ends (.domainPowerUp d pass) s (fun t => t.domUp d = true ∧ t.pwr = { s.pwr with rising := r } ∧ (pass = false → t.flag R.PWR_STAT_BOOT_ERR = true) ∧
        (d.val ≠ 1 → FldsBut s t (if pass then [R.PWR_DOM_ON] else [R.PWR_DOM_ON, R.PWR_STAT_BOOT_ERR]) ∧ t = { s with pwr := t.pwr, flds := t.flds, bus := t.bus, outs := t.outs }) ∧
        (d.val = 1 → t.isl = Isl.init s.isl.cfg ∧ t.islSt = 1 ∧ t = { s with pwr := t.pwr, isl := t.isl, axes := t.axes, chans := t.chans, flds := t.flds, bus := t.bus, outs := t.outs })))) ∧
    (∀ x r, s.pwr.rising = x :: r → x ≠ d.val → Ends (.domainPowerUp d pass) s (fun t => Unchanged s t)) ∧
    (s.pwr.rising = [] → Ends (.domainPowerUp d pass) s (fun t => Unchanged s t))

/-- ROUND, QUICK and the round's time begin a run or queue it; a slice of an engine with loop events queued waits, one that passes advances the coverage, which ends a round when full; one that fails twice sets FAIL and its unit, and poisons its memory block or is lasting. A scrub read counts, or poisons its word. A device without an NVM becomes a chain follower, which loads the image it has received. The headers' bytes give each slot's code, and the newer valid slot is tried, the chain's master sending ENUM; a section is judged by its bytes and the directory: one whose CRC checks is loaded, one whose CRC fails twice fails the slot with code 4, one whose content fails (an entry address outside the loaded code) with code 5. BOOT_COMPLETE fails the slot with code 6, 7 or 8, sets BOOT_ERR, or enters STANDBY with the image in force. A gated TST or SYS does nothing. An NVM command begins on the flash, is refused with CMD_ERR or WP_ERR, and ends as its read-back gives; fuses are programmed in STANDBY, unlocked. -/
def Obligations.SelfTestBootAndNvm : Prop :=
  ∀ (s : State) (unit lp mp : BitVec 8) (addr a v entry : BitVec 32) (cut first second quick digestOk keyOk sigOk selfTest b : Bool) (m : Fin 9) (r : EccRes) (nvm : NvmInfo) (ra rb : HdrRead) (ha hb : SlotHdr) (xr : SecRead) (x : Section) (cals : List (CalRun × CalRun)) (digest : List (BitVec 32)) (bytes d : List (BitVec 8)) (na : BitVec 27) (len : BitVec 9) (w : BitVec 4) (ok1 ok2 : Bool),
    let tst (t : State) (fs : List Fld) : Prop := FldsBut s t fs ∧ t = { s with tst := t.tst, flds := t.flds, bus := t.bus, outs := t.outs }
    let asked (k : TstRun) (t : State) : Prop :=
      (s.tst.run = .idle → t.tst = { s.tst with run := k } ∧ t.flag R.TST_STAT_RUNNING = true ∧ (k = .round → t.get R.TST_COV_LOGIC_PCT = 0 ∧ t.get R.TST_COV_MEM_PCT = 0)) ∧
      (s.tst.run ≠ .idle → k ∉ s.tst.waits → (k = .quick → s.tst.run ≠ .quick) → t.tst = { s.tst with waits := s.tst.waits ++ [k] }) ∧ (s.tst.run ≠ .idle → k ∈ s.tst.waits → t.tst = s.tst)
    let begun : List Fld := [R.TST_STAT_RUNNING, R.TST_COV_LOGIC_PCT, R.TST_COV_MEM_PCT]
    let poisons (t : State) (mem : Nat) (ws : List Nat) (at0 : Nat) : Prop := t.tst = { s.tst with poison := t.tst.poison } ∧ (∀ p, p ∈ t.tst.poison ↔ p ∈ s.tst.poison ∨ ∃ y ∈ ws, p = (mem, y)) ∧ Counted s t R.TST_ECC_LAST_LASTING ∧ t.get R.TST_ECC_LAST_MEM = mem % 2 ^ 4 ∧ t.get R.TST_ECC_ADDR_ADDR = at0 % 2 ^ 32
    let poisonFlds : List Fld := [R.TST_ECC_LAST_LASTING, R.TST_ECC_LAST_MEM, R.TST_ECC_ADDR_ADDR]
    let part : Prop := lp.toNat < 100 ∨ mp.toNat < 100
    let slice : Instr := .selfTestSlice unit addr cut first second lp mp
    let load : Instr := .sectionLoad nvm ra rb xr
    let hA := s.hdrOf nvm.slot ra
    let hB := s.hdrOf nvm.slot rb
    let received : Prop := s.chain.has 256 = true ∧ (s.chainHdr.code = 0 → s.chain.has s.chainHdr.len = true)
    let judged : Option Section := s.slotHdr.bind (fun h => (if s.chainRole = 2 then s.chainRead xr else xr).judge (h.dir.getD (xr.type.val - 1) (0, 0, 0)))
    let failA : Fld := if b then R.NVM_STAT_FAIL_B else R.NVM_STAT_FAIL_A
    let booting : Prop := s.dev = .boot ∧ s.flag R.PWR_STAT_BOOT_ERR = false ∧ s.domUp 2 = true
    let fails (t : State) (code : Nat) : Prop := t.get failA = code ∧ t.dev = .boot ∧ t.pending = s.pending ∧ t.pwr.rising = [] ∧ (∀ y, 0x10000000 ≤ y → y < 0x10200000 → t.byte y = 0) ∧ (∀ j ∈ allDoms, j ≠ 2 → t.domUp j = false) ∧
      (s.boot.queue = [] → t.flag R.PWR_STAT_BOOT_ERR = true ∧ t.boot.slot = none ∧ t.boot.protect = none) ∧ (∀ y q, s.boot.queue = y :: q → t.boot.slot = some y ∧ t.boot.queue = q ∧ t.boot.done = 0 ∧ t.flag R.PWR_STAT_BOOT_ERR = false)
    let next : Prop := booting ∧ (s.chainRole = 2 → received) ∧ s.boot.hdrs.isSome = true ∧ judged = some x ∧ s.boot.slot = some b ∧ x.slotB = b ∧ x.type.val = s.boot.done + 1 ∧ s.pwr.rising = []
    let loaded (t : State) : Prop := t.boot.done = x.type.val ∧ (x.crc1 = false → Counted s t R.NVM_TRANS_CNT_COUNT) ∧ t = { s with boot := t.boot, mem := t.mem, tst := { s.tst with poison := t.tst.poison }, flds := t.flds, bus := t.bus, outs := t.outs }
    let retry : List Fld := if x.crc1 then [] else [R.NVM_TRANS_CNT_COUNT]
    let full : Prop := s.dev = .boot ∧ s.flag R.PWR_STAT_BOOT_ERR = false ∧ s.boot.slot = some b ∧ s.boot.hdrs = some (ha, hb) ∧ s.boot.done = 9 ∧ s.pwr.rising = []
    let h := if b then hb else ha
    let lock := s.flag R.NVM_FUSE_LOCK
    let done : Instr := .bootComplete digest digestOk keyOk sigOk selfTest cals
    let port : List Fld := [R.NVM_CMD_OP, R.NVM_CMD_LEN, R.NVM_ADDR_ADDR]
    let cmd (c : Instr) (op n span : Nat) (ok : Prop) : Prop :=
      let kept : Prop := op ≠ 1 ∧ ∃ p l, s.boot.protect = some (p, l) ∧ na.toNat < p + l ∧ p < na.toNat + span
      let shown (t : State) : Prop := t.get R.NVM_CMD_OP = op ∧ t.get R.NVM_CMD_LEN = n ∧ t.get R.NVM_ADDR_ADDR = na.toNat
      (s.flag R.NVM_CMD_GO = true → Ends c s (fun t => t.flag R.NVM_STAT_CMD_ERR = true ∧ OnlyFlds s t [R.NVM_STAT_CMD_ERR])) ∧
      (s.flag R.NVM_CMD_GO = false → s.dev = .standby ∨ s.inCourses = true →
        (ok → na.toNat + span ≤ s.boot.nvm.kib * 1024 → ¬kept → Ends c s (fun t => t.flag R.NVM_CMD_GO = true ∧ t.flag R.NVM_STAT_BUSY = true ∧ shown t ∧ t.outs = [.nvm op na.toNat (if op = 2 then s.nvmBytes n else [])] ∧ OnlyFlds s t (R.NVM_CMD_GO :: R.NVM_STAT_BUSY :: port))) ∧
        (ok → na.toNat + span ≤ s.boot.nvm.kib * 1024 → kept → Ends c s (fun t => t.flag R.NVM_STAT_WP_ERR = true ∧ t.flag R.NVM_CMD_GO = false ∧ shown t ∧ OnlyFlds s t (R.NVM_STAT_WP_ERR :: port))) ∧
        (¬ok ∨ s.boot.nvm.kib * 1024 < na.toNat + span → Ends c s (fun t => t.flag R.NVM_STAT_CMD_ERR = true ∧ t.flag R.NVM_CMD_GO = false ∧ shown t ∧ OnlyFlds s t (R.NVM_STAT_CMD_ERR :: port))))
    (s.reach 0x80150000 = true → Ends .round s (fun t => t.flag R.TST_CTRL_ROUND = true ∧ asked .round t ∧ tst t (R.TST_CTRL_ROUND :: begun)) ∧
      Ends .quick s (fun t => t.flag R.TST_CTRL_QUICK = true ∧ t.flag R.MTR_STAT_TEST_RUN = true ∧ asked .quick t ∧ tst t [R.TST_CTRL_QUICK, R.MTR_STAT_TEST_RUN, R.TST_STAT_RUNNING])) ∧
    (s.dev = .standby ∨ s.inCourses = true → Ends .selfTestRoundStart s (fun t => asked .round t ∧ tst t begun)) ∧
    (s.tst.run = (if quick then .quick else .round) → Ends (.roundDeadline quick) s (fun t => t.flag R.TST_STAT_TEST_DEFERRED = true ∧ OnlyFlds s t [R.TST_STAT_TEST_DEFERRED])) ∧
    (s.tst.run ≠ (if quick then .quick else .round) → Ends (.roundDeadline quick) s (fun t => Unchanged s t)) ∧
    (s.tstOn = false ∨ s.tst.run = .idle ∨ cut = true ∨ unitOk unit.toNat = false ∨ s.sliceWaits unit.toNat addr.toNat = true → Ends slice s (fun t => Unchanged s t)) ∧
    (s.tstOn = true → cut = false → unitOk unit.toNat = true → s.sliceWaits unit.toNat addr.toNat = false →
      (first = true ∨ second = true →
        (s.tst.run = .quick → Ends slice s (fun t => Unchanged s t)) ∧
        (s.tst.run = .round → part → Ends slice s (fun t => t.get R.TST_COV_LOGIC_PCT = min 100 lp.toNat ∧ t.get R.TST_COV_MEM_PCT = min 100 mp.toNat ∧ OnlyFlds s t [R.TST_COV_LOGIC_PCT, R.TST_COV_MEM_PCT])) ∧
        (s.tst.run = .round → ¬part → s.tst.waits = [] → Ends slice s (fun t => t.get R.TST_COV_LOGIC_PCT = 100 ∧ t.get R.TST_COV_MEM_PCT = 100 ∧ t.tst = { s.tst with run := .idle, endAt := s.now, covL := 100, covM := 100 } ∧ t.flag R.TST_STAT_RUNNING = false ∧
          t.flag R.TST_CTRL_ROUND = false ∧ tst t (R.TST_CTRL_ROUND :: begun)))) ∧
      (first = false → second = false → part →
        (s.tst.run ≠ .idle → 32 ≤ unit.toNat → Ends slice s (fun t => t.flag R.TST_STAT_FAIL = true ∧ t.get R.TST_STAT_FAIL_UNIT = unit.toNat ∧
          poisons t (unit.toNat - 32) ((List.range 16).map (fun i => addr.toNat / 64 * 64 + 4 * i)) (addr.toNat / 64 * 64) ∧ tst t ([R.TST_STAT_FAIL, R.TST_STAT_FAIL_UNIT, R.TST_COV_LOGIC_PCT, R.TST_COV_MEM_PCT] ++ poisonFlds))) ∧
        (s.tst.run ≠ .idle → unit.toNat < 32 → Ends slice s (fun t => t.flag R.TST_STAT_FAIL = true ∧ t.get R.TST_STAT_FAIL_UNIT = unit.toNat ∧ t.tst = { s.tst with lasting := true } ∧
          (s.tst.run = .quick → t.dev = s.dev) ∧ (s.tst.run = .round → s.dev = .run → s.mtr.paired = false → t.dev = .safeHold ∧ t.holdBy = [.selfTest]) ∧
          (s.tst.run = .round → s.dev = .run → s.mtr.paired = true → s.mtr.holder = true → s.peerReady = true → t.dev = .run ∧ t.mtr = { s.mtr with relDue := true }) ∧
          FldsBut s t [R.TST_STAT_FAIL, R.TST_STAT_FAIL_UNIT, R.TST_COV_LOGIC_PCT, R.TST_COV_MEM_PCT] ∧ t = { s with tst := t.tst, mtr := t.mtr, dev := t.dev, holdBy := t.holdBy, axes := t.axes, flds := t.flds, bus := t.bus, outs := t.outs })))) ∧
    (let on := s.clocked 0x80150000 && memAt m addr.toNat && s.domUp (poisonDom (m, addr.toNat))
     (on = false ∨ r = .clean → Ends (.scrubRead m addr r) s (fun t => Unchanged s t)) ∧
     (on = true → Ends (.scrubRead m addr .corrected) s (fun t => Counted s t R.TST_ECC_CNT_CORRECTED ∧ OnlyFlds s t [R.TST_ECC_CNT_CORRECTED]) ∧
       Ends (.scrubRead m addr .transient) s (fun t => Counted s t R.TST_ECC_CNT_TRANSIENT ∧ OnlyFlds s t [R.TST_ECC_CNT_TRANSIENT]) ∧
       Ends (.scrubRead m addr .lasting) s (fun t => poisons t m [addr.toNat / 4 * 4] addr.toNat ∧ tst t poisonFlds))) ∧
    (s.dev = .boot → s.boot.hdrs = none → s.get R.CAS_BOOT_ROLE = 0 → Ends .sfdpTimeout s (fun t => t.get R.CAS_BOOT_ROLE = 2 ∧ OnlyFlds s t [R.CAS_BOOT_ROLE])) ∧
    (s.dev ≠ .boot → Ends .sfdpTimeout s (fun t => Unchanged s t) ∧ Ends load s (fun t => Unchanged s t) ∧ Ends done s (fun t => Unchanged s t)) ∧
    (booting → s.boot.hdrs = none → s.chainRole ≠ 2 →
      (hA.code ≠ 0 → hB.code ≠ 0 → Ends load s (fun t => t.flag R.PWR_STAT_BOOT_ERR = true ∧ t.get R.NVM_STAT_FAIL_A = hA.code % 2 ^ 4 ∧ t.get R.NVM_STAT_FAIL_B = hB.code % 2 ^ 4 ∧ t.boot.slot = none ∧ t.dev = .boot)) ∧
      (hA.code = 0 → hB.code = 0 → xr.type.val ≠ 1 → Ends load s (fun t => t.boot.slot = some (decide (hA.gen < hB.gen)) ∧ t.boot.queue = [decide (¬hA.gen < hB.gen)] ∧ t.boot.hdrs = some (hA, hB) ∧ t.outs = [.bootEnum 0] ∧
        t.get R.NVM_DENSITY_KIB = nvm.kib % 2 ^ 18 ∧ t.flag R.NVM_STAT_QUAD = nvm.quad ∧ t.get R.CAS_BOOT_ROLE = 1 ∧ t = { s with boot := t.boot, flds := t.flds, bus := t.bus, outs := t.outs }))) ∧
    (booting → s.chainRole = 2 →
      (¬received → Ends load s (fun t => Unchanged s t)) ∧
      (received → s.boot.hdrs = none → s.chainHdr.code ≠ 0 → Ends load s (fun t => t.flag R.PWR_STAT_BOOT_ERR = true ∧ t.get R.NVM_STAT_FAIL_A = s.chainHdr.code % 2 ^ 4 ∧ t.boot.slot = none ∧ t.dev = .boot)) ∧
      (received → s.boot.hdrs = none → s.chainHdr.code = 0 → xr.type.val ≠ 1 → Ends load s (fun t => t.boot.slot = some false ∧ t.boot.queue = [] ∧ t.boot.hdrs = some (s.chainHdr, s.chainHdr) ∧ t = { s with boot := t.boot, flds := t.flds, bus := t.bus, outs := t.outs }))) ∧
    (booting → (s.chainRole = 2 → received) → s.boot.hdrs.isSome = true → judged = none → Ends load s (fun t => Unchanged s t)) ∧
    (next →
      (x.crc1 = false → x.crc2 = false → Ends load s (fun t => fails t 4 ∧ t.get R.NVM_STAT_FAIL_SEC = x.type.val)) ∧
      (x.crc1 = true ∨ x.crc2 = true →
        (x.rest = false → Ends load s (fun t => fails t 5 ∧ t.get R.NVM_STAT_FAIL_SEC = x.type.val)) ∧
        (x.type = 8 → x.rest = true → x.items = [.entry entry] → Ends load s (fun t => fails t 5 ∧ t.get R.NVM_STAT_FAIL_SEC = 8)) ∧
        (x.type = 2 → x.rest = true → x.items = [.reg 0x80010010 v] → s.boot.spans.any (spansMeet (0, 0x80010010, 4)) = false → Ends load s (fun t => loaded t ∧ t.get R.CLK_GATE_EN = v.toNat % 2 ^ 18 ∧
          t.mem = s.mem ∧ FldsBut s t (R.CLK_GATE_EN :: retry))) ∧
        (x.type = 8 → x.rest = true → x.items = [.entry entry, .mem a bytes] → 0x10000000 ≤ a.toNat → a.toNat + bytes.length ≤ 0x10200000 → a.toNat ≤ entry.toNat → entry.toNat < a.toNat + bytes.length →
          s.boot.spans.any (spansMeet (0, a.toNat, bytes.length)) = false → s.boot.spans.any (spansMeet (9, 0, 1)) = false → Ends load s (fun t => loaded t ∧ t.boot.entry = entry.toNat ∧
            (∀ i, i < bytes.length → t.byte (a.toNat + i) = bytes.getD i 0) ∧ BytesBut s t a.toNat bytes.length ∧ FldsBut s t retry)))) ∧
    (full →
      (digestOk = false → Ends done s (fun t => fails t 6)) ∧ (digestOk = true → lock = true → h.signed = false → Ends done s (fun t => fails t 7)) ∧
      (digestOk = true → h.signed = true → sigOk = false ∨ lock = true ∧ keyOk = false → Ends done s (fun t => fails t 8)) ∧
      (digestOk = true → (h.signed = false ∧ lock = false ∨ h.signed = true ∧ sigOk = true ∧ (keyOk = true ∨ lock = false)) →
        (selfTest = false → Ends done s (fun t => t.flag R.PWR_STAT_BOOT_ERR = true ∧ OnlyFlds s t [R.PWR_STAT_BOOT_ERR])) ∧
        (selfTest = true → s.boot.autorun = false → Ends done s (fun t => t.dev = .standby ∧ t.flag R.NVM_STAT_SLOT = b ∧ t.flag R.NVM_STAT_FALLBACK = (s.boot.first != some b) ∧ t.flag R.NVM_STAT_SIGNED = h.signed ∧
          t.get R.NVM_GEN_GEN = h.gen % 2 ^ 32 ∧ (∀ i : Nat, i < 8 → t.get (R.NVM_DIGEST_DIGEST i) = (digest.getD i 0).toNat) ∧ t.get failA = 0 ∧ t.flag R.TST_STAT_BOOT_PASS = true ∧ (t.core 0).pc = s.boot.entry ∧ t.islSt = (if s.domUp 1 then 1 else s.islSt) ∧
          t.pwr.wdtOn = (s.flag R.PWR_WDT_CFG_EN || s.pwr.wdtOn) ∧ (s.mtr.paired = true → t.mtr.role = (if s.linkUp then .syncing else .detached)) ∧ (s.mtr.paired = false → t.mtr.role = .alone) ∧
          t = { s with dev := t.dev, boot := t.boot, mtr := t.mtr, isl := t.isl, axes := t.axes, chans := t.chans, rings := t.rings, cas := t.cas, cores := t.cores, pwr := t.pwr, flds := t.flds, bus := t.bus, outs := t.outs })))) ∧
    (s.reach 0x80140040 = true →
      cmd (.nvmRead na len) 1 len.toNat len.toNat (1 ≤ len.toNat ∧ len.toNat ≤ 256) ∧ cmd (.nvmProgram na len) 2 len.toNat len.toNat (1 ≤ len.toNat ∧ len.toNat ≤ 256 ∧ na.toNat % 256 + len.toNat ≤ 256) ∧
      cmd (.erase4k na) 3 0 0x1000 (s.boot.nvm.e4 = true ∧ na.toNat % 0x1000 = 0) ∧ cmd (.erase64k na) 4 0 0x10000 (s.boot.nvm.e64 = true ∧ na.toNat % 0x10000 = 0)) ∧
    (s.clocked 0x80140000 = false ∨ s.flag R.NVM_CMD_GO = false → Ends (.nvmOpComplete d ok1 ok2) s (fun t => Unchanged s t)) ∧
    (s.clocked 0x80140000 = true → s.flag R.NVM_CMD_GO = true → Ends (.nvmOpComplete d ok1 ok2) s (fun t => t.flag R.NVM_CMD_GO = false ∧ t.flag R.NVM_STAT_BUSY = false ∧
      (s.get R.NVM_CMD_OP = 1 → s.get R.NVM_CMD_LEN ≤ 256 → (∀ i, i < s.get R.NVM_CMD_LEN → i < d.length → bits (t.get (R.NVM_BUF_DATA (i / 4))) (8 * (i % 4)) 8 = (d.getD i 0).toNat) ∧
        OnlyFlds s t (R.NVM_CMD_GO :: R.NVM_STAT_BUSY :: (List.range 64).map R.NVM_BUF_DATA)) ∧
      (s.get R.NVM_CMD_OP ≠ 1 → (ok1 = true → OnlyFlds s t [R.NVM_CMD_GO, R.NVM_STAT_BUSY]) ∧ (ok1 = false → ok2 = true → Counted s t R.NVM_TRANS_CNT_COUNT ∧ OnlyFlds s t [R.NVM_CMD_GO, R.NVM_STAT_BUSY, R.NVM_TRANS_CNT_COUNT]) ∧
        (ok1 = false → ok2 = false → t.flag R.NVM_STAT_PROG_ERR = true ∧ OnlyFlds s t [R.NVM_CMD_GO, R.NVM_STAT_BUSY, R.NVM_STAT_PROG_ERR])))) ∧
    (s.reach 0x80140224 = true →
      (s.dev = .standby → lock = false → w.toNat < 8 → Ends (.fuseProgram w) s (fun t => t.get (R.NVM_FUSE_HASH_HASH w.toNat) = (s.get (R.NVM_FUSE_HASH_HASH w.toNat) ||| s.get (R.NVM_BUF_DATA 0)) % 2 ^ 32 ∧
        OnlyFlds s t [R.NVM_FUSE_HASH_HASH w.toNat, R.NVM_FUSE_PROG_WORD])) ∧
      (s.dev = .standby → lock = false → w = 8 → Ends (.fuseProgram w) s (fun t => t.flag R.NVM_FUSE_LOCK = true ∧ OnlyFlds s t [R.NVM_FUSE_LOCK, R.NVM_FUSE_PROG_WORD])) ∧
      (s.dev ≠ .standby ∨ lock = true ∨ 8 < w.toNat → Ends (.fuseProgram w) s (fun t => t.flag R.NVM_STAT_CMD_ERR = true ∧ OnlyFlds s t [R.NVM_STAT_CMD_ERR])))
end

