-- ==== Sys2Proof/Laws/Store.lean ====
section
/-! SUPPORT. Laws of sparse stores: a read after a write, and that every operation keeps the canonical form. -/
namespace Sys2Proof.Laws
open Machine

set_option linter.unusedSectionVars false

variable {β : Type} [DecidableEq β] (d : β)

@[simp] theorem get_nil (k : Nat) : Store.get d [] k = d := rfl

theorem get_drop_same (l : Store β) (k : Nat) : Store.get d (Store.drop l k) k = d := by
  induction l with
  | nil => rfl
  | cons p r ih =>
    obtain ⟨a, x⟩ := p
    by_cases h : a = k <;> simp [Store.drop, Store.get, h, ih]

theorem get_drop_other (l : Store β) {k j : Nat} (h : j ≠ k) : Store.get d (Store.drop l k) j = Store.get d l j := by
  induction l with
  | nil => rfl
  | cons p r ih =>
    obtain ⟨a, x⟩ := p
    by_cases hk : a = k
    · subst hk
      simp [Store.drop, Store.get, ih, Ne.symm h]
    · rw [Store.drop, if_neg hk]
      by_cases hj : a = j <;> simp [Store.get, hj, ih]

theorem get_insert_same (l : Store β) (k : Nat) (x : β) (h : Store.get d l k = d) (hl : ∀ p ∈ l, p.1 ≠ k) :
    Store.get d (Store.insert k x l) k = x := by
  induction l with
  | nil => simp [Store.insert, Store.get]
  | cons p r ih =>
    obtain ⟨a, y⟩ := p
    have hak : a ≠ k := hl (a, y) (by simp)
    by_cases hlt : k < a
    · simp [Store.insert, hlt, Store.get]
    · simp only [Store.insert, hlt, if_false, Store.get, hak]
      exact ih (by simpa [Store.get, hak] using h) (fun q hq => hl q (by simp [hq]))

theorem get_insert_other (l : Store β) {k j : Nat} (x : β) (h : j ≠ k) :
    Store.get d (Store.insert k x l) j = Store.get d l j := by
  induction l with
  | nil => simp [Store.insert, Store.get, Ne.symm h]
  | cons p r ih =>
    obtain ⟨a, y⟩ := p
    by_cases hlt : k < a
    · simp [Store.insert, hlt, Store.get, Ne.symm h]
    · rw [Store.insert, if_neg hlt]
      by_cases hj : a = j <;> simp [Store.get, hj, ih]

theorem drop_free (l : Store β) (k : Nat) : ∀ p ∈ Store.drop l k, p.1 ≠ k := by
  induction l with
  | nil => intro p hp; simp [Store.drop] at hp
  | cons q r ih =>
    obtain ⟨a, x⟩ := q
    by_cases h : a = k
    · simpa [Store.drop, h] using ih
    · intro p hp
      simp only [Store.drop, h, if_false, List.mem_cons] at hp
      rcases hp with rfl | hp
      · exact h
      · exact ih p hp

/-- Reading the key just written gives the value. -/
@[simp] theorem get_put_same (l : Store β) (k : Nat) (x : β) : Store.get d (Store.put d l k x) k = x := by
  by_cases h : x = d
  · simp [Store.put, h, get_drop_same]
  · simp only [Store.put, h, if_false]
    exact get_insert_same d _ k x (get_drop_same d l k) (drop_free l k)

/-- Writing a key leaves every other key, whatever default it is read with. -/
theorem get_put_other (d' : β) (l : Store β) {k j : Nat} (x : β) (h : j ≠ k) :
    Store.get d' (Store.put d l k x) j = Store.get d' l j := by
  by_cases hx : x = d
  · simp [Store.put, hx, get_drop_other, h]
  · simp only [Store.put, hx, if_false]
    rw [get_insert_other d' _ x h, get_drop_other d' l h]

theorem put_get_ne (l : Store β) {k j : Nat} (x : β) (h : j ≠ k) : Store.get d (Store.put d l k x) j = Store.get d l j :=
  get_put_other d d l x h

/-! The canonical form. -/

theorem above_mono {m n : Nat} (hmn : m ≤ n) {l : Store β} (h : Store.above n l = true) : Store.above m l = true := by
  cases l with
  | nil => rfl
  | cons p r =>
    simp only [Store.above, Bool.and_eq_true, decide_eq_true_eq] at h ⊢
    exact ⟨by omega, h.2⟩

theorem above_drop {n k : Nat} {l : Store β} (h : Store.above n l = true) : Store.above n (Store.drop l k) = true := by
  induction l generalizing n with
  | nil => rfl
  | cons p r ih =>
    obtain ⟨a, x⟩ := p
    simp only [Store.above, Bool.and_eq_true, decide_eq_true_eq] at h
    by_cases hk : a = k
    · simpa [Store.drop, hk] using above_mono (Nat.le_of_lt h.1) (ih h.2)
    · simp [Store.drop, hk, Store.above, ih h.2, h.1]

theorem wf_drop (d : Nat → β) {k : Nat} {l : Store β} (h : Store.wf d l = true) : Store.wf d (Store.drop l k) = true := by
  induction l with
  | nil => rfl
  | cons p r ih =>
    obtain ⟨a, x⟩ := p
    simp only [Store.wf, Bool.and_eq_true] at h
    by_cases hk : a = k
    · simpa [Store.drop, hk] using ih h.2
    · simp only [Store.drop, hk, if_false, Store.wf, Bool.and_eq_true]
      exact ⟨⟨above_drop h.1.1, h.1.2⟩, ih h.2⟩

theorem above_insert {n k : Nat} {x : β} (hn : n < k) {l : Store β} (h : Store.above n l = true)
    (hl : ∀ p ∈ l, p.1 ≠ k) : Store.above n (Store.insert k x l) = true := by
  induction l generalizing n with
  | nil => simp [Store.insert, Store.above, hn]
  | cons p r ih =>
    obtain ⟨a, y⟩ := p
    have hak : a ≠ k := hl (a, y) (by simp)
    simp only [Store.above, Bool.and_eq_true, decide_eq_true_eq] at h
    by_cases hlt : k < a
    · simp only [Store.insert, hlt, if_true, Store.above, Bool.and_eq_true, decide_eq_true_eq]
      exact ⟨hn, trivial, h.2⟩
    · simp only [Store.insert, hlt, if_false, Store.above, Bool.and_eq_true, decide_eq_true_eq]
      exact ⟨h.1, ih (by omega) h.2 (fun q hq => hl q (by simp [hq]))⟩

theorem wf_insert (d : Nat → β) {k : Nat} {x : β} (hx : x ≠ d k) {l : Store β} (h : Store.wf d l = true) (hl : ∀ p ∈ l, p.1 ≠ k) :
    Store.wf d (Store.insert k x l) = true := by
  induction l with
  | nil => simp [Store.insert, Store.wf, Store.above, hx]
  | cons p r ih =>
    obtain ⟨a, y⟩ := p
    simp only [Store.wf, Bool.and_eq_true] at h
    have hak : a ≠ k := hl (a, y) (by simp)
    by_cases hlt : k < a
    · simp [Store.insert, hlt, Store.wf, Store.above, hx, h.1.1, h.2]
      simpa using h.1.2
    · have hkr : a < k := by omega
      simp only [Store.insert, hlt, if_false, Store.wf, Bool.and_eq_true]
      exact ⟨⟨above_insert hkr h.1.1 (fun q hq => hl q (by simp [hq])), h.1.2⟩, ih h.2 (fun q hq => hl q (by simp [hq]))⟩

/-- A write keeps the canonical form. -/
theorem wf_put (d : Nat → β) {l : Store β} (k : Nat) (x : β) (h : Store.wf d l = true) : Store.wf d (Store.put (d k) l k x) = true := by
  by_cases hx : x = d k
  · simpa [Store.put, hx] using wf_drop d h
  · simp only [Store.put, hx, if_false]
    exact wf_insert d hx (wf_drop d h) (drop_free l k)

theorem above_filter {n : Nat} (p : Nat × β → Bool) {l : Store β} (h : Store.above n l = true) :
    Store.above n (l.filter p) = true := by
  induction l generalizing n with
  | nil => rfl
  | cons q r ih =>
    obtain ⟨a, x⟩ := q
    simp only [Store.above, Bool.and_eq_true, decide_eq_true_eq] at h
    by_cases hp : p (a, x) = true
    · simp [hp, Store.above, ih h.2, h.1]
    · simpa [hp] using above_mono (Nat.le_of_lt h.1) (ih h.2)

/-- Clearing entries keeps the canonical form. -/
theorem wf_filter (d : Nat → β) (p : Nat × β → Bool) {l : Store β} (h : Store.wf d l = true) : Store.wf d (l.filter p) = true := by
  induction l with
  | nil => rfl
  | cons q r ih =>
    obtain ⟨a, x⟩ := q
    simp only [Store.wf, Bool.and_eq_true] at h
    by_cases hp : p (a, x) = true
    · simp [hp, Store.wf, above_filter p h.1.1, ih h.2]
      simpa using h.1.2
    · simpa [hp] using ih h.2

/-! Memory. -/

@[simp] theorem mem_get_put_same (m : List Host.Cell) (a : Nat) (x : BitVec 8) : Memory.get (Memory.put m a x) a = x :=
  get_put_same _ m a x

theorem mem_get_put_other (m : List Host.Cell) {a b : Nat} (x : BitVec 8) (h : b ≠ a) : Memory.get (Memory.put m a x) b = Memory.get m b :=
  get_put_other _ _ m x h

/-- A list of writes keeps memory's canonical form. -/
theorem memWf_putAll {m : List Host.Cell} (w : List (Nat × BitVec 8)) (h : Memory.wf m = true) : Memory.wf (Memory.putAll m w) = true := by
  induction w generalizing m with
  | nil => exact h
  | cons p r ih => exact ih (wf_put memRst p.1 p.2 h)

/-- A list of writes leaves every byte it does not name. -/
theorem mem_get_putAll_other (m : List Host.Cell) (w : List (Nat × BitVec 8)) (a : Nat) (h : ∀ p ∈ w, p.1 ≠ a) :
    Memory.get (Memory.putAll m w) a = Memory.get m a := by
  induction w generalizing m with
  | nil => rfl
  | cons p r ih =>
    rw [Memory.putAll, ih _ (fun q hq => h q (by simp [hq]))]
    exact mem_get_put_other m p.2 (fun e => h p (by simp) e.symm)

end Sys2Proof.Laws
end

