-- ==== Sys2Proof/Laws/State.lean ====
section
/-! SUPPORT. One lemma per field per update of the state, and what a register field reads after a write. -/
namespace Sys2Proof.Laws
open Machine

/-! set. -/

@[simp] theorem set_mem (s : State) (f : Fld) (v : Nat) : (s.set f v).mem = s.mem := rfl
@[simp] theorem set_now (s : State) (f : Fld) (v : Nat) : (s.set f v).now = s.now := rfl
@[simp] theorem set_bus (s : State) (f : Fld) (v : Nat) : (s.set f v).bus = s.bus := rfl
@[simp] theorem set_outs (s : State) (f : Fld) (v : Nat) : (s.set f v).outs = s.outs := rfl
@[simp] theorem set_free (s : State) (f : Fld) (v : Nat) : (s.set f v).free = s.free := rfl
@[simp] theorem set_dev (s : State) (f : Fld) (v : Nat) : (s.set f v).dev = s.dev := rfl
@[simp] theorem set_crs (s : State) (f : Fld) (v : Nat) : (s.set f v).crs = s.crs := rfl
@[simp] theorem set_axes (s : State) (f : Fld) (v : Nat) : (s.set f v).axes = s.axes := rfl
@[simp] theorem set_grps (s : State) (f : Fld) (v : Nat) : (s.set f v).grps = s.grps := rfl
@[simp] theorem set_pfSampled (s : State) (f : Fld) (v : Nat) : (s.set f v).pfSampled = s.pfSampled := rfl
@[simp] theorem set_pfAns (s : State) (f : Fld) (v : Nat) : (s.set f v).pfAns = s.pfAns := rfl
@[simp] theorem set_loops (s : State) (f : Fld) (v : Nat) : (s.set f v).loops = s.loops := rfl
@[simp] theorem set_upd (s : State) (f : Fld) (v : Nat) : (s.set f v).upd = s.upd := rfl
@[simp] theorem set_engs (s : State) (f : Fld) (v : Nat) : (s.set f v).engs = s.engs := rfl
@[simp] theorem set_chans (s : State) (f : Fld) (v : Nat) : (s.set f v).chans = s.chans := rfl
@[simp] theorem set_bond (s : State) (f : Fld) (v : Nat) : (s.set f v).bond = s.bond := rfl
@[simp] theorem set_rings (s : State) (f : Fld) (v : Nat) : (s.set f v).rings = s.rings := rfl
@[simp] theorem set_pim (s : State) (f : Fld) (v : Nat) : (s.set f v).pim = s.pim := rfl
@[simp] theorem set_cap (s : State) (f : Fld) (v : Nat) : (s.set f v).cap = s.cap := rfl
@[simp] theorem set_isl (s : State) (f : Fld) (v : Nat) : (s.set f v).isl = s.isl := rfl
@[simp] theorem set_mtr (s : State) (f : Fld) (v : Nat) : (s.set f v).mtr = s.mtr := rfl
@[simp] theorem set_hst (s : State) (f : Fld) (v : Nat) : (s.set f v).hst = s.hst := rfl
@[simp] theorem set_tim (s : State) (f : Fld) (v : Nat) : (s.set f v).tim = s.tim := rfl
@[simp] theorem set_cas (s : State) (f : Fld) (v : Nat) : (s.set f v).cas = s.cas := rfl
@[simp] theorem set_chain (s : State) (f : Fld) (v : Nat) : (s.set f v).chain = s.chain := rfl
@[simp] theorem set_jtag (s : State) (f : Fld) (v : Nat) : (s.set f v).jtag = s.jtag := rfl
@[simp] theorem set_rstLow (s : State) (f : Fld) (v : Nat) : (s.set f v).rstLow = s.rstLow := rfl
@[simp] theorem set_pwr (s : State) (f : Fld) (v : Nat) : (s.set f v).pwr = s.pwr := rfl
@[simp] theorem set_tst (s : State) (f : Fld) (v : Nat) : (s.set f v).tst = s.tst := rfl
@[simp] theorem set_boot (s : State) (f : Fld) (v : Nat) : (s.set f v).boot = s.boot := rfl
@[simp] theorem set_cores (s : State) (f : Fld) (v : Nat) : (s.set f v).cores = s.cores := rfl
@[simp] theorem set_sch (s : State) (f : Fld) (v : Nat) : (s.set f v).sch = s.sch := rfl
@[simp] theorem set_dma (s : State) (f : Fld) (v : Nat) : (s.set f v).dma = s.dma := rfl
@[simp] theorem set_dmaTurn (s : State) (f : Fld) (v : Nat) : (s.set f v).dmaTurn = s.dmaTurn := rfl
@[simp] theorem set_gpio (s : State) (f : Fld) (v : Nat) : (s.set f v).gpio = s.gpio := rfl
@[simp] theorem set_holdBy (s : State) (f : Fld) (v : Nat) : (s.set f v).holdBy = s.holdBy := rfl
@[simp] theorem set_pending (s : State) (f : Fld) (v : Nat) : (s.set f v).pending = s.pending := rfl
@[simp] theorem set_byte (s : State) (f : Fld) (v : Nat) (a0 : Nat) : (s.set f v).byte a0 = s.byte a0 := rfl

/-! setFlag. -/

@[simp] theorem setFlag_mem (s : State) (f : Fld) (b : Bool) : (s.setFlag f b).mem = s.mem := rfl
@[simp] theorem setFlag_now (s : State) (f : Fld) (b : Bool) : (s.setFlag f b).now = s.now := rfl
@[simp] theorem setFlag_bus (s : State) (f : Fld) (b : Bool) : (s.setFlag f b).bus = s.bus := rfl
@[simp] theorem setFlag_outs (s : State) (f : Fld) (b : Bool) : (s.setFlag f b).outs = s.outs := rfl
@[simp] theorem setFlag_free (s : State) (f : Fld) (b : Bool) : (s.setFlag f b).free = s.free := rfl
@[simp] theorem setFlag_dev (s : State) (f : Fld) (b : Bool) : (s.setFlag f b).dev = s.dev := rfl
@[simp] theorem setFlag_crs (s : State) (f : Fld) (b : Bool) : (s.setFlag f b).crs = s.crs := rfl
@[simp] theorem setFlag_axes (s : State) (f : Fld) (b : Bool) : (s.setFlag f b).axes = s.axes := rfl
@[simp] theorem setFlag_grps (s : State) (f : Fld) (b : Bool) : (s.setFlag f b).grps = s.grps := rfl
@[simp] theorem setFlag_pfSampled (s : State) (f : Fld) (b : Bool) : (s.setFlag f b).pfSampled = s.pfSampled := rfl
@[simp] theorem setFlag_pfAns (s : State) (f : Fld) (b : Bool) : (s.setFlag f b).pfAns = s.pfAns := rfl
@[simp] theorem setFlag_loops (s : State) (f : Fld) (b : Bool) : (s.setFlag f b).loops = s.loops := rfl
@[simp] theorem setFlag_upd (s : State) (f : Fld) (b : Bool) : (s.setFlag f b).upd = s.upd := rfl
@[simp] theorem setFlag_engs (s : State) (f : Fld) (b : Bool) : (s.setFlag f b).engs = s.engs := rfl
@[simp] theorem setFlag_chans (s : State) (f : Fld) (b : Bool) : (s.setFlag f b).chans = s.chans := rfl
@[simp] theorem setFlag_bond (s : State) (f : Fld) (b : Bool) : (s.setFlag f b).bond = s.bond := rfl
@[simp] theorem setFlag_rings (s : State) (f : Fld) (b : Bool) : (s.setFlag f b).rings = s.rings := rfl
@[simp] theorem setFlag_pim (s : State) (f : Fld) (b : Bool) : (s.setFlag f b).pim = s.pim := rfl
@[simp] theorem setFlag_cap (s : State) (f : Fld) (b : Bool) : (s.setFlag f b).cap = s.cap := rfl
@[simp] theorem setFlag_isl (s : State) (f : Fld) (b : Bool) : (s.setFlag f b).isl = s.isl := rfl
@[simp] theorem setFlag_mtr (s : State) (f : Fld) (b : Bool) : (s.setFlag f b).mtr = s.mtr := rfl
@[simp] theorem setFlag_hst (s : State) (f : Fld) (b : Bool) : (s.setFlag f b).hst = s.hst := rfl
@[simp] theorem setFlag_tim (s : State) (f : Fld) (b : Bool) : (s.setFlag f b).tim = s.tim := rfl
@[simp] theorem setFlag_cas (s : State) (f : Fld) (b : Bool) : (s.setFlag f b).cas = s.cas := rfl
@[simp] theorem setFlag_chain (s : State) (f : Fld) (b : Bool) : (s.setFlag f b).chain = s.chain := rfl
@[simp] theorem setFlag_jtag (s : State) (f : Fld) (b : Bool) : (s.setFlag f b).jtag = s.jtag := rfl
@[simp] theorem setFlag_rstLow (s : State) (f : Fld) (b : Bool) : (s.setFlag f b).rstLow = s.rstLow := rfl
@[simp] theorem setFlag_pwr (s : State) (f : Fld) (b : Bool) : (s.setFlag f b).pwr = s.pwr := rfl
@[simp] theorem setFlag_tst (s : State) (f : Fld) (b : Bool) : (s.setFlag f b).tst = s.tst := rfl
@[simp] theorem setFlag_boot (s : State) (f : Fld) (b : Bool) : (s.setFlag f b).boot = s.boot := rfl
@[simp] theorem setFlag_cores (s : State) (f : Fld) (b : Bool) : (s.setFlag f b).cores = s.cores := rfl
@[simp] theorem setFlag_sch (s : State) (f : Fld) (b : Bool) : (s.setFlag f b).sch = s.sch := rfl
@[simp] theorem setFlag_dma (s : State) (f : Fld) (b : Bool) : (s.setFlag f b).dma = s.dma := rfl
@[simp] theorem setFlag_dmaTurn (s : State) (f : Fld) (b : Bool) : (s.setFlag f b).dmaTurn = s.dmaTurn := rfl
@[simp] theorem setFlag_gpio (s : State) (f : Fld) (b : Bool) : (s.setFlag f b).gpio = s.gpio := rfl
@[simp] theorem setFlag_holdBy (s : State) (f : Fld) (b : Bool) : (s.setFlag f b).holdBy = s.holdBy := rfl
@[simp] theorem setFlag_pending (s : State) (f : Fld) (b : Bool) : (s.setFlag f b).pending = s.pending := rfl
@[simp] theorem setFlag_byte (s : State) (f : Fld) (b : Bool) (a0 : Nat) : (s.setFlag f b).byte a0 = s.byte a0 := rfl

/-! orFld. -/

@[simp] theorem orFld_mem (s : State) (f : Fld) (m : Nat) : (s.orFld f m).mem = s.mem := rfl
@[simp] theorem orFld_now (s : State) (f : Fld) (m : Nat) : (s.orFld f m).now = s.now := rfl
@[simp] theorem orFld_bus (s : State) (f : Fld) (m : Nat) : (s.orFld f m).bus = s.bus := rfl
@[simp] theorem orFld_outs (s : State) (f : Fld) (m : Nat) : (s.orFld f m).outs = s.outs := rfl
@[simp] theorem orFld_free (s : State) (f : Fld) (m : Nat) : (s.orFld f m).free = s.free := rfl
@[simp] theorem orFld_dev (s : State) (f : Fld) (m : Nat) : (s.orFld f m).dev = s.dev := rfl
@[simp] theorem orFld_crs (s : State) (f : Fld) (m : Nat) : (s.orFld f m).crs = s.crs := rfl
@[simp] theorem orFld_axes (s : State) (f : Fld) (m : Nat) : (s.orFld f m).axes = s.axes := rfl
@[simp] theorem orFld_grps (s : State) (f : Fld) (m : Nat) : (s.orFld f m).grps = s.grps := rfl
@[simp] theorem orFld_pfSampled (s : State) (f : Fld) (m : Nat) : (s.orFld f m).pfSampled = s.pfSampled := rfl
@[simp] theorem orFld_pfAns (s : State) (f : Fld) (m : Nat) : (s.orFld f m).pfAns = s.pfAns := rfl
@[simp] theorem orFld_loops (s : State) (f : Fld) (m : Nat) : (s.orFld f m).loops = s.loops := rfl
@[simp] theorem orFld_upd (s : State) (f : Fld) (m : Nat) : (s.orFld f m).upd = s.upd := rfl
@[simp] theorem orFld_engs (s : State) (f : Fld) (m : Nat) : (s.orFld f m).engs = s.engs := rfl
@[simp] theorem orFld_chans (s : State) (f : Fld) (m : Nat) : (s.orFld f m).chans = s.chans := rfl
@[simp] theorem orFld_bond (s : State) (f : Fld) (m : Nat) : (s.orFld f m).bond = s.bond := rfl
@[simp] theorem orFld_rings (s : State) (f : Fld) (m : Nat) : (s.orFld f m).rings = s.rings := rfl
@[simp] theorem orFld_pim (s : State) (f : Fld) (m : Nat) : (s.orFld f m).pim = s.pim := rfl
@[simp] theorem orFld_cap (s : State) (f : Fld) (m : Nat) : (s.orFld f m).cap = s.cap := rfl
@[simp] theorem orFld_isl (s : State) (f : Fld) (m : Nat) : (s.orFld f m).isl = s.isl := rfl
@[simp] theorem orFld_mtr (s : State) (f : Fld) (m : Nat) : (s.orFld f m).mtr = s.mtr := rfl
@[simp] theorem orFld_hst (s : State) (f : Fld) (m : Nat) : (s.orFld f m).hst = s.hst := rfl
@[simp] theorem orFld_tim (s : State) (f : Fld) (m : Nat) : (s.orFld f m).tim = s.tim := rfl
@[simp] theorem orFld_cas (s : State) (f : Fld) (m : Nat) : (s.orFld f m).cas = s.cas := rfl
@[simp] theorem orFld_chain (s : State) (f : Fld) (m : Nat) : (s.orFld f m).chain = s.chain := rfl
@[simp] theorem orFld_jtag (s : State) (f : Fld) (m : Nat) : (s.orFld f m).jtag = s.jtag := rfl
@[simp] theorem orFld_rstLow (s : State) (f : Fld) (m : Nat) : (s.orFld f m).rstLow = s.rstLow := rfl
@[simp] theorem orFld_pwr (s : State) (f : Fld) (m : Nat) : (s.orFld f m).pwr = s.pwr := rfl
@[simp] theorem orFld_tst (s : State) (f : Fld) (m : Nat) : (s.orFld f m).tst = s.tst := rfl
@[simp] theorem orFld_boot (s : State) (f : Fld) (m : Nat) : (s.orFld f m).boot = s.boot := rfl
@[simp] theorem orFld_cores (s : State) (f : Fld) (m : Nat) : (s.orFld f m).cores = s.cores := rfl
@[simp] theorem orFld_sch (s : State) (f : Fld) (m : Nat) : (s.orFld f m).sch = s.sch := rfl
@[simp] theorem orFld_dma (s : State) (f : Fld) (m : Nat) : (s.orFld f m).dma = s.dma := rfl
@[simp] theorem orFld_dmaTurn (s : State) (f : Fld) (m : Nat) : (s.orFld f m).dmaTurn = s.dmaTurn := rfl
@[simp] theorem orFld_gpio (s : State) (f : Fld) (m : Nat) : (s.orFld f m).gpio = s.gpio := rfl
@[simp] theorem orFld_holdBy (s : State) (f : Fld) (m : Nat) : (s.orFld f m).holdBy = s.holdBy := rfl
@[simp] theorem orFld_pending (s : State) (f : Fld) (m : Nat) : (s.orFld f m).pending = s.pending := rfl
@[simp] theorem orFld_byte (s : State) (f : Fld) (m : Nat) (a0 : Nat) : (s.orFld f m).byte a0 = s.byte a0 := rfl

/-! count. -/

@[simp] theorem count_mem (s : State) (f : Fld) : (s.count f).mem = s.mem := by unfold State.count; split <;> rfl
@[simp] theorem count_now (s : State) (f : Fld) : (s.count f).now = s.now := by unfold State.count; split <;> rfl
@[simp] theorem count_bus (s : State) (f : Fld) : (s.count f).bus = s.bus := by unfold State.count; split <;> rfl
@[simp] theorem count_outs (s : State) (f : Fld) : (s.count f).outs = s.outs := by unfold State.count; split <;> rfl
@[simp] theorem count_free (s : State) (f : Fld) : (s.count f).free = s.free := by unfold State.count; split <;> rfl
@[simp] theorem count_dev (s : State) (f : Fld) : (s.count f).dev = s.dev := by unfold State.count; split <;> rfl
@[simp] theorem count_crs (s : State) (f : Fld) : (s.count f).crs = s.crs := by unfold State.count; split <;> rfl
@[simp] theorem count_axes (s : State) (f : Fld) : (s.count f).axes = s.axes := by unfold State.count; split <;> rfl
@[simp] theorem count_grps (s : State) (f : Fld) : (s.count f).grps = s.grps := by unfold State.count; split <;> rfl
@[simp] theorem count_pfSampled (s : State) (f : Fld) : (s.count f).pfSampled = s.pfSampled := by unfold State.count; split <;> rfl
@[simp] theorem count_pfAns (s : State) (f : Fld) : (s.count f).pfAns = s.pfAns := by unfold State.count; split <;> rfl
@[simp] theorem count_loops (s : State) (f : Fld) : (s.count f).loops = s.loops := by unfold State.count; split <;> rfl
@[simp] theorem count_upd (s : State) (f : Fld) : (s.count f).upd = s.upd := by unfold State.count; split <;> rfl
@[simp] theorem count_engs (s : State) (f : Fld) : (s.count f).engs = s.engs := by unfold State.count; split <;> rfl
@[simp] theorem count_chans (s : State) (f : Fld) : (s.count f).chans = s.chans := by unfold State.count; split <;> rfl
@[simp] theorem count_bond (s : State) (f : Fld) : (s.count f).bond = s.bond := by unfold State.count; split <;> rfl
@[simp] theorem count_rings (s : State) (f : Fld) : (s.count f).rings = s.rings := by unfold State.count; split <;> rfl
@[simp] theorem count_pim (s : State) (f : Fld) : (s.count f).pim = s.pim := by unfold State.count; split <;> rfl
@[simp] theorem count_cap (s : State) (f : Fld) : (s.count f).cap = s.cap := by unfold State.count; split <;> rfl
@[simp] theorem count_isl (s : State) (f : Fld) : (s.count f).isl = s.isl := by unfold State.count; split <;> rfl
@[simp] theorem count_mtr (s : State) (f : Fld) : (s.count f).mtr = s.mtr := by unfold State.count; split <;> rfl
@[simp] theorem count_hst (s : State) (f : Fld) : (s.count f).hst = s.hst := by unfold State.count; split <;> rfl
@[simp] theorem count_tim (s : State) (f : Fld) : (s.count f).tim = s.tim := by unfold State.count; split <;> rfl
@[simp] theorem count_cas (s : State) (f : Fld) : (s.count f).cas = s.cas := by unfold State.count; split <;> rfl
@[simp] theorem count_chain (s : State) (f : Fld) : (s.count f).chain = s.chain := by unfold State.count; split <;> rfl
@[simp] theorem count_jtag (s : State) (f : Fld) : (s.count f).jtag = s.jtag := by unfold State.count; split <;> rfl
@[simp] theorem count_rstLow (s : State) (f : Fld) : (s.count f).rstLow = s.rstLow := by unfold State.count; split <;> rfl
@[simp] theorem count_pwr (s : State) (f : Fld) : (s.count f).pwr = s.pwr := by unfold State.count; split <;> rfl
@[simp] theorem count_tst (s : State) (f : Fld) : (s.count f).tst = s.tst := by unfold State.count; split <;> rfl
@[simp] theorem count_boot (s : State) (f : Fld) : (s.count f).boot = s.boot := by unfold State.count; split <;> rfl
@[simp] theorem count_cores (s : State) (f : Fld) : (s.count f).cores = s.cores := by unfold State.count; split <;> rfl
@[simp] theorem count_sch (s : State) (f : Fld) : (s.count f).sch = s.sch := by unfold State.count; split <;> rfl
@[simp] theorem count_dma (s : State) (f : Fld) : (s.count f).dma = s.dma := by unfold State.count; split <;> rfl
@[simp] theorem count_dmaTurn (s : State) (f : Fld) : (s.count f).dmaTurn = s.dmaTurn := by unfold State.count; split <;> rfl
@[simp] theorem count_gpio (s : State) (f : Fld) : (s.count f).gpio = s.gpio := by unfold State.count; split <;> rfl
@[simp] theorem count_holdBy (s : State) (f : Fld) : (s.count f).holdBy = s.holdBy := by unfold State.count; split <;> rfl
@[simp] theorem count_pending (s : State) (f : Fld) : (s.count f).pending = s.pending := by unfold State.count; split <;> rfl
@[simp] theorem count_byte (s : State) (f : Fld) (a0 : Nat) : (s.count f).byte a0 = s.byte a0 := by unfold State.count; split <;> rfl

/-! poke. -/

@[simp] theorem poke_flds (s : State) (w : List (Nat × BitVec 8)) : (s.poke w).flds = s.flds := rfl
@[simp] theorem poke_now (s : State) (w : List (Nat × BitVec 8)) : (s.poke w).now = s.now := rfl
@[simp] theorem poke_bus (s : State) (w : List (Nat × BitVec 8)) : (s.poke w).bus = s.bus := rfl
@[simp] theorem poke_outs (s : State) (w : List (Nat × BitVec 8)) : (s.poke w).outs = s.outs := rfl
@[simp] theorem poke_free (s : State) (w : List (Nat × BitVec 8)) : (s.poke w).free = s.free := rfl
@[simp] theorem poke_dev (s : State) (w : List (Nat × BitVec 8)) : (s.poke w).dev = s.dev := rfl
@[simp] theorem poke_crs (s : State) (w : List (Nat × BitVec 8)) : (s.poke w).crs = s.crs := rfl
@[simp] theorem poke_axes (s : State) (w : List (Nat × BitVec 8)) : (s.poke w).axes = s.axes := rfl
@[simp] theorem poke_grps (s : State) (w : List (Nat × BitVec 8)) : (s.poke w).grps = s.grps := rfl
@[simp] theorem poke_pfSampled (s : State) (w : List (Nat × BitVec 8)) : (s.poke w).pfSampled = s.pfSampled := rfl
@[simp] theorem poke_pfAns (s : State) (w : List (Nat × BitVec 8)) : (s.poke w).pfAns = s.pfAns := rfl
@[simp] theorem poke_loops (s : State) (w : List (Nat × BitVec 8)) : (s.poke w).loops = s.loops := rfl
@[simp] theorem poke_upd (s : State) (w : List (Nat × BitVec 8)) : (s.poke w).upd = s.upd := rfl
@[simp] theorem poke_engs (s : State) (w : List (Nat × BitVec 8)) : (s.poke w).engs = s.engs := rfl
@[simp] theorem poke_chans (s : State) (w : List (Nat × BitVec 8)) : (s.poke w).chans = s.chans := rfl
@[simp] theorem poke_bond (s : State) (w : List (Nat × BitVec 8)) : (s.poke w).bond = s.bond := rfl
@[simp] theorem poke_rings (s : State) (w : List (Nat × BitVec 8)) : (s.poke w).rings = s.rings := rfl
@[simp] theorem poke_pim (s : State) (w : List (Nat × BitVec 8)) : (s.poke w).pim = s.pim := rfl
@[simp] theorem poke_cap (s : State) (w : List (Nat × BitVec 8)) : (s.poke w).cap = s.cap := rfl
@[simp] theorem poke_isl (s : State) (w : List (Nat × BitVec 8)) : (s.poke w).isl = s.isl := rfl
@[simp] theorem poke_mtr (s : State) (w : List (Nat × BitVec 8)) : (s.poke w).mtr = s.mtr := rfl
@[simp] theorem poke_hst (s : State) (w : List (Nat × BitVec 8)) : (s.poke w).hst = s.hst := rfl
@[simp] theorem poke_tim (s : State) (w : List (Nat × BitVec 8)) : (s.poke w).tim = s.tim := rfl
@[simp] theorem poke_cas (s : State) (w : List (Nat × BitVec 8)) : (s.poke w).cas = s.cas := rfl
@[simp] theorem poke_chain (s : State) (w : List (Nat × BitVec 8)) : (s.poke w).chain = s.chain := rfl
@[simp] theorem poke_jtag (s : State) (w : List (Nat × BitVec 8)) : (s.poke w).jtag = s.jtag := rfl
@[simp] theorem poke_rstLow (s : State) (w : List (Nat × BitVec 8)) : (s.poke w).rstLow = s.rstLow := rfl
@[simp] theorem poke_pwr (s : State) (w : List (Nat × BitVec 8)) : (s.poke w).pwr = s.pwr := rfl
@[simp] theorem poke_boot (s : State) (w : List (Nat × BitVec 8)) : (s.poke w).boot = s.boot := rfl
@[simp] theorem poke_cores (s : State) (w : List (Nat × BitVec 8)) : (s.poke w).cores = s.cores := rfl
@[simp] theorem poke_sch (s : State) (w : List (Nat × BitVec 8)) : (s.poke w).sch = s.sch := rfl
@[simp] theorem poke_dma (s : State) (w : List (Nat × BitVec 8)) : (s.poke w).dma = s.dma := rfl
@[simp] theorem poke_dmaTurn (s : State) (w : List (Nat × BitVec 8)) : (s.poke w).dmaTurn = s.dmaTurn := rfl
@[simp] theorem poke_gpio (s : State) (w : List (Nat × BitVec 8)) : (s.poke w).gpio = s.gpio := rfl
@[simp] theorem poke_holdBy (s : State) (w : List (Nat × BitVec 8)) : (s.poke w).holdBy = s.holdBy := rfl
@[simp] theorem poke_pending (s : State) (w : List (Nat × BitVec 8)) : (s.poke w).pending = s.pending := rfl
@[simp] theorem poke_get (s : State) (w : List (Nat × BitVec 8)) (g0 : Fld) : (s.poke w).get g0 = s.get g0 := rfl
@[simp] theorem poke_flag (s : State) (w : List (Nat × BitVec 8)) (g0 : Fld) : (s.poke w).flag g0 = s.flag g0 := rfl

/-! store. -/

@[simp] theorem store_flds (s : State) (a v n : Nat) : (s.store a v n).flds = s.flds := rfl
@[simp] theorem store_now (s : State) (a v n : Nat) : (s.store a v n).now = s.now := rfl
@[simp] theorem store_bus (s : State) (a v n : Nat) : (s.store a v n).bus = s.bus := rfl
@[simp] theorem store_outs (s : State) (a v n : Nat) : (s.store a v n).outs = s.outs := rfl
@[simp] theorem store_free (s : State) (a v n : Nat) : (s.store a v n).free = s.free := rfl
@[simp] theorem store_dev (s : State) (a v n : Nat) : (s.store a v n).dev = s.dev := rfl
@[simp] theorem store_crs (s : State) (a v n : Nat) : (s.store a v n).crs = s.crs := rfl
@[simp] theorem store_axes (s : State) (a v n : Nat) : (s.store a v n).axes = s.axes := rfl
@[simp] theorem store_grps (s : State) (a v n : Nat) : (s.store a v n).grps = s.grps := rfl
@[simp] theorem store_pfSampled (s : State) (a v n : Nat) : (s.store a v n).pfSampled = s.pfSampled := rfl
@[simp] theorem store_pfAns (s : State) (a v n : Nat) : (s.store a v n).pfAns = s.pfAns := rfl
@[simp] theorem store_loops (s : State) (a v n : Nat) : (s.store a v n).loops = s.loops := rfl
@[simp] theorem store_upd (s : State) (a v n : Nat) : (s.store a v n).upd = s.upd := rfl
@[simp] theorem store_engs (s : State) (a v n : Nat) : (s.store a v n).engs = s.engs := rfl
@[simp] theorem store_chans (s : State) (a v n : Nat) : (s.store a v n).chans = s.chans := rfl
@[simp] theorem store_bond (s : State) (a v n : Nat) : (s.store a v n).bond = s.bond := rfl
@[simp] theorem store_rings (s : State) (a v n : Nat) : (s.store a v n).rings = s.rings := rfl
@[simp] theorem store_pim (s : State) (a v n : Nat) : (s.store a v n).pim = s.pim := rfl
@[simp] theorem store_cap (s : State) (a v n : Nat) : (s.store a v n).cap = s.cap := rfl
@[simp] theorem store_isl (s : State) (a v n : Nat) : (s.store a v n).isl = s.isl := rfl
@[simp] theorem store_mtr (s : State) (a v n : Nat) : (s.store a v n).mtr = s.mtr := rfl
@[simp] theorem store_hst (s : State) (a v n : Nat) : (s.store a v n).hst = s.hst := rfl
@[simp] theorem store_tim (s : State) (a v n : Nat) : (s.store a v n).tim = s.tim := rfl
@[simp] theorem store_cas (s : State) (a v n : Nat) : (s.store a v n).cas = s.cas := rfl
@[simp] theorem store_chain (s : State) (a v n : Nat) : (s.store a v n).chain = s.chain := rfl
@[simp] theorem store_jtag (s : State) (a v n : Nat) : (s.store a v n).jtag = s.jtag := rfl
@[simp] theorem store_rstLow (s : State) (a v n : Nat) : (s.store a v n).rstLow = s.rstLow := rfl
@[simp] theorem store_pwr (s : State) (a v n : Nat) : (s.store a v n).pwr = s.pwr := rfl
@[simp] theorem store_boot (s : State) (a v n : Nat) : (s.store a v n).boot = s.boot := rfl
@[simp] theorem store_cores (s : State) (a v n : Nat) : (s.store a v n).cores = s.cores := rfl
@[simp] theorem store_sch (s : State) (a v n : Nat) : (s.store a v n).sch = s.sch := rfl
@[simp] theorem store_dma (s : State) (a v n : Nat) : (s.store a v n).dma = s.dma := rfl
@[simp] theorem store_dmaTurn (s : State) (a v n : Nat) : (s.store a v n).dmaTurn = s.dmaTurn := rfl
@[simp] theorem store_gpio (s : State) (a v n : Nat) : (s.store a v n).gpio = s.gpio := rfl
@[simp] theorem store_holdBy (s : State) (a v n : Nat) : (s.store a v n).holdBy = s.holdBy := rfl
@[simp] theorem store_pending (s : State) (a v n : Nat) : (s.store a v n).pending = s.pending := rfl
@[simp] theorem store_get (s : State) (a v n : Nat) (g0 : Fld) : (s.store a v n).get g0 = s.get g0 := rfl
@[simp] theorem store_flag (s : State) (a v n : Nat) (g0 : Fld) : (s.store a v n).flag g0 = s.flag g0 := rfl

/-! emit. -/

@[simp] theorem emit_flds (s : State) (o : Out) : (s.emit o).flds = s.flds := rfl
@[simp] theorem emit_mem (s : State) (o : Out) : (s.emit o).mem = s.mem := rfl
@[simp] theorem emit_now (s : State) (o : Out) : (s.emit o).now = s.now := rfl
@[simp] theorem emit_bus (s : State) (o : Out) : (s.emit o).bus = s.bus := rfl
@[simp] theorem emit_free (s : State) (o : Out) : (s.emit o).free = s.free := rfl
@[simp] theorem emit_dev (s : State) (o : Out) : (s.emit o).dev = s.dev := rfl
@[simp] theorem emit_crs (s : State) (o : Out) : (s.emit o).crs = s.crs := rfl
@[simp] theorem emit_axes (s : State) (o : Out) : (s.emit o).axes = s.axes := rfl
@[simp] theorem emit_grps (s : State) (o : Out) : (s.emit o).grps = s.grps := rfl
@[simp] theorem emit_pfSampled (s : State) (o : Out) : (s.emit o).pfSampled = s.pfSampled := rfl
@[simp] theorem emit_pfAns (s : State) (o : Out) : (s.emit o).pfAns = s.pfAns := rfl
@[simp] theorem emit_loops (s : State) (o : Out) : (s.emit o).loops = s.loops := rfl
@[simp] theorem emit_upd (s : State) (o : Out) : (s.emit o).upd = s.upd := rfl
@[simp] theorem emit_engs (s : State) (o : Out) : (s.emit o).engs = s.engs := rfl
@[simp] theorem emit_chans (s : State) (o : Out) : (s.emit o).chans = s.chans := rfl
@[simp] theorem emit_bond (s : State) (o : Out) : (s.emit o).bond = s.bond := rfl
@[simp] theorem emit_rings (s : State) (o : Out) : (s.emit o).rings = s.rings := rfl
@[simp] theorem emit_pim (s : State) (o : Out) : (s.emit o).pim = s.pim := rfl
@[simp] theorem emit_cap (s : State) (o : Out) : (s.emit o).cap = s.cap := rfl
@[simp] theorem emit_isl (s : State) (o : Out) : (s.emit o).isl = s.isl := rfl
@[simp] theorem emit_mtr (s : State) (o : Out) : (s.emit o).mtr = s.mtr := rfl
@[simp] theorem emit_hst (s : State) (o : Out) : (s.emit o).hst = s.hst := rfl
@[simp] theorem emit_tim (s : State) (o : Out) : (s.emit o).tim = s.tim := rfl
@[simp] theorem emit_cas (s : State) (o : Out) : (s.emit o).cas = s.cas := rfl
@[simp] theorem emit_chain (s : State) (o : Out) : (s.emit o).chain = s.chain := rfl
@[simp] theorem emit_jtag (s : State) (o : Out) : (s.emit o).jtag = s.jtag := rfl
@[simp] theorem emit_rstLow (s : State) (o : Out) : (s.emit o).rstLow = s.rstLow := rfl
@[simp] theorem emit_pwr (s : State) (o : Out) : (s.emit o).pwr = s.pwr := rfl
@[simp] theorem emit_tst (s : State) (o : Out) : (s.emit o).tst = s.tst := rfl
@[simp] theorem emit_boot (s : State) (o : Out) : (s.emit o).boot = s.boot := rfl
@[simp] theorem emit_cores (s : State) (o : Out) : (s.emit o).cores = s.cores := rfl
@[simp] theorem emit_sch (s : State) (o : Out) : (s.emit o).sch = s.sch := rfl
@[simp] theorem emit_dma (s : State) (o : Out) : (s.emit o).dma = s.dma := rfl
@[simp] theorem emit_dmaTurn (s : State) (o : Out) : (s.emit o).dmaTurn = s.dmaTurn := rfl
@[simp] theorem emit_gpio (s : State) (o : Out) : (s.emit o).gpio = s.gpio := rfl
@[simp] theorem emit_holdBy (s : State) (o : Out) : (s.emit o).holdBy = s.holdBy := rfl
@[simp] theorem emit_pending (s : State) (o : Out) : (s.emit o).pending = s.pending := rfl
@[simp] theorem emit_get (s : State) (o : Out) (g0 : Fld) : (s.emit o).get g0 = s.get g0 := rfl
@[simp] theorem emit_flag (s : State) (o : Out) (g0 : Fld) : (s.emit o).flag g0 = s.flag g0 := rfl
@[simp] theorem emit_byte (s : State) (o : Out) (a0 : Nat) : (s.emit o).byte a0 = s.byte a0 := rfl

/-! quiet. -/

@[simp] theorem quiet_flds (s : State) : (s.quiet).flds = s.flds := rfl
@[simp] theorem quiet_mem (s : State) : (s.quiet).mem = s.mem := rfl
@[simp] theorem quiet_now (s : State) : (s.quiet).now = s.now := rfl
@[simp] theorem quiet_bus (s : State) : (s.quiet).bus = s.bus := rfl
@[simp] theorem quiet_free (s : State) : (s.quiet).free = s.free := rfl
@[simp] theorem quiet_dev (s : State) : (s.quiet).dev = s.dev := rfl
@[simp] theorem quiet_crs (s : State) : (s.quiet).crs = s.crs := rfl
@[simp] theorem quiet_axes (s : State) : (s.quiet).axes = s.axes := rfl
@[simp] theorem quiet_grps (s : State) : (s.quiet).grps = s.grps := rfl
@[simp] theorem quiet_pfSampled (s : State) : (s.quiet).pfSampled = s.pfSampled := rfl
@[simp] theorem quiet_pfAns (s : State) : (s.quiet).pfAns = s.pfAns := rfl
@[simp] theorem quiet_loops (s : State) : (s.quiet).loops = s.loops := rfl
@[simp] theorem quiet_upd (s : State) : (s.quiet).upd = s.upd := rfl
@[simp] theorem quiet_engs (s : State) : (s.quiet).engs = s.engs := rfl
@[simp] theorem quiet_chans (s : State) : (s.quiet).chans = s.chans := rfl
@[simp] theorem quiet_bond (s : State) : (s.quiet).bond = s.bond := rfl
@[simp] theorem quiet_rings (s : State) : (s.quiet).rings = s.rings := rfl
@[simp] theorem quiet_pim (s : State) : (s.quiet).pim = s.pim := rfl
@[simp] theorem quiet_cap (s : State) : (s.quiet).cap = s.cap := rfl
@[simp] theorem quiet_isl (s : State) : (s.quiet).isl = s.isl := rfl
@[simp] theorem quiet_mtr (s : State) : (s.quiet).mtr = s.mtr := rfl
@[simp] theorem quiet_hst (s : State) : (s.quiet).hst = s.hst := rfl
@[simp] theorem quiet_tim (s : State) : (s.quiet).tim = s.tim := rfl
@[simp] theorem quiet_cas (s : State) : (s.quiet).cas = s.cas := rfl
@[simp] theorem quiet_chain (s : State) : (s.quiet).chain = s.chain := rfl
@[simp] theorem quiet_jtag (s : State) : (s.quiet).jtag = s.jtag := rfl
@[simp] theorem quiet_rstLow (s : State) : (s.quiet).rstLow = s.rstLow := rfl
@[simp] theorem quiet_pwr (s : State) : (s.quiet).pwr = s.pwr := rfl
@[simp] theorem quiet_tst (s : State) : (s.quiet).tst = s.tst := rfl
@[simp] theorem quiet_boot (s : State) : (s.quiet).boot = s.boot := rfl
@[simp] theorem quiet_cores (s : State) : (s.quiet).cores = s.cores := rfl
@[simp] theorem quiet_sch (s : State) : (s.quiet).sch = s.sch := rfl
@[simp] theorem quiet_dma (s : State) : (s.quiet).dma = s.dma := rfl
@[simp] theorem quiet_dmaTurn (s : State) : (s.quiet).dmaTurn = s.dmaTurn := rfl
@[simp] theorem quiet_gpio (s : State) : (s.quiet).gpio = s.gpio := rfl
@[simp] theorem quiet_holdBy (s : State) : (s.quiet).holdBy = s.holdBy := rfl
@[simp] theorem quiet_pending (s : State) : (s.quiet).pending = s.pending := rfl
@[simp] theorem quiet_get (s : State)  (g0 : Fld) : (s.quiet).get g0 = s.get g0 := rfl
@[simp] theorem quiet_flag (s : State)  (g0 : Fld) : (s.quiet).flag g0 = s.flag g0 := rfl
@[simp] theorem quiet_byte (s : State)  (a0 : Nat) : (s.quiet).byte a0 = s.byte a0 := rfl

/-! resetPin. -/

@[simp] theorem resetPin_flds (s : State) (b : Bool) : (s.resetPin b).flds = s.flds := rfl
@[simp] theorem resetPin_mem (s : State) (b : Bool) : (s.resetPin b).mem = s.mem := rfl
@[simp] theorem resetPin_now (s : State) (b : Bool) : (s.resetPin b).now = s.now := rfl
@[simp] theorem resetPin_bus (s : State) (b : Bool) : (s.resetPin b).bus = s.bus := rfl
@[simp] theorem resetPin_outs (s : State) (b : Bool) : (s.resetPin b).outs = s.outs := rfl
@[simp] theorem resetPin_free (s : State) (b : Bool) : (s.resetPin b).free = s.free := rfl
@[simp] theorem resetPin_dev (s : State) (b : Bool) : (s.resetPin b).dev = s.dev := rfl
@[simp] theorem resetPin_crs (s : State) (b : Bool) : (s.resetPin b).crs = s.crs := rfl
@[simp] theorem resetPin_axes (s : State) (b : Bool) : (s.resetPin b).axes = s.axes := rfl
@[simp] theorem resetPin_grps (s : State) (b : Bool) : (s.resetPin b).grps = s.grps := rfl
@[simp] theorem resetPin_pfSampled (s : State) (b : Bool) : (s.resetPin b).pfSampled = s.pfSampled := rfl
@[simp] theorem resetPin_pfAns (s : State) (b : Bool) : (s.resetPin b).pfAns = s.pfAns := rfl
@[simp] theorem resetPin_loops (s : State) (b : Bool) : (s.resetPin b).loops = s.loops := rfl
@[simp] theorem resetPin_upd (s : State) (b : Bool) : (s.resetPin b).upd = s.upd := rfl
@[simp] theorem resetPin_engs (s : State) (b : Bool) : (s.resetPin b).engs = s.engs := rfl
@[simp] theorem resetPin_chans (s : State) (b : Bool) : (s.resetPin b).chans = s.chans := rfl
@[simp] theorem resetPin_bond (s : State) (b : Bool) : (s.resetPin b).bond = s.bond := rfl
@[simp] theorem resetPin_rings (s : State) (b : Bool) : (s.resetPin b).rings = s.rings := rfl
@[simp] theorem resetPin_pim (s : State) (b : Bool) : (s.resetPin b).pim = s.pim := rfl
@[simp] theorem resetPin_cap (s : State) (b : Bool) : (s.resetPin b).cap = s.cap := rfl
@[simp] theorem resetPin_isl (s : State) (b : Bool) : (s.resetPin b).isl = s.isl := rfl
@[simp] theorem resetPin_mtr (s : State) (b : Bool) : (s.resetPin b).mtr = s.mtr := rfl
@[simp] theorem resetPin_hst (s : State) (b : Bool) : (s.resetPin b).hst = s.hst := rfl
@[simp] theorem resetPin_tim (s : State) (b : Bool) : (s.resetPin b).tim = s.tim := rfl
@[simp] theorem resetPin_cas (s : State) (b : Bool) : (s.resetPin b).cas = s.cas := rfl
@[simp] theorem resetPin_chain (s : State) (b : Bool) : (s.resetPin b).chain = s.chain := rfl
@[simp] theorem resetPin_pwr (s : State) (b : Bool) : (s.resetPin b).pwr = s.pwr := rfl
@[simp] theorem resetPin_tst (s : State) (b : Bool) : (s.resetPin b).tst = s.tst := rfl
@[simp] theorem resetPin_boot (s : State) (b : Bool) : (s.resetPin b).boot = s.boot := rfl
@[simp] theorem resetPin_cores (s : State) (b : Bool) : (s.resetPin b).cores = s.cores := rfl
@[simp] theorem resetPin_sch (s : State) (b : Bool) : (s.resetPin b).sch = s.sch := rfl
@[simp] theorem resetPin_dma (s : State) (b : Bool) : (s.resetPin b).dma = s.dma := rfl
@[simp] theorem resetPin_dmaTurn (s : State) (b : Bool) : (s.resetPin b).dmaTurn = s.dmaTurn := rfl
@[simp] theorem resetPin_gpio (s : State) (b : Bool) : (s.resetPin b).gpio = s.gpio := rfl
@[simp] theorem resetPin_holdBy (s : State) (b : Bool) : (s.resetPin b).holdBy = s.holdBy := rfl
@[simp] theorem resetPin_pending (s : State) (b : Bool) : (s.resetPin b).pending = s.pending := rfl
@[simp] theorem resetPin_get (s : State) (b : Bool) (g0 : Fld) : (s.resetPin b).get g0 = s.get g0 := rfl
@[simp] theorem resetPin_flag (s : State) (b : Bool) (g0 : Fld) : (s.resetPin b).flag g0 = s.flag g0 := rfl
@[simp] theorem resetPin_byte (s : State) (b : Bool) (a0 : Nat) : (s.resetPin b).byte a0 = s.byte a0 := rfl

/-! setAx. -/

@[simp] theorem setAx_flds (s : State) (a : Nat) (x : Ax) : (s.setAx a x).flds = s.flds := rfl
@[simp] theorem setAx_mem (s : State) (a : Nat) (x : Ax) : (s.setAx a x).mem = s.mem := rfl
@[simp] theorem setAx_now (s : State) (a : Nat) (x : Ax) : (s.setAx a x).now = s.now := rfl
@[simp] theorem setAx_bus (s : State) (a : Nat) (x : Ax) : (s.setAx a x).bus = s.bus := rfl
@[simp] theorem setAx_outs (s : State) (a : Nat) (x : Ax) : (s.setAx a x).outs = s.outs := rfl
@[simp] theorem setAx_free (s : State) (a : Nat) (x : Ax) : (s.setAx a x).free = s.free := rfl
@[simp] theorem setAx_dev (s : State) (a : Nat) (x : Ax) : (s.setAx a x).dev = s.dev := rfl
@[simp] theorem setAx_crs (s : State) (a : Nat) (x : Ax) : (s.setAx a x).crs = s.crs := rfl
@[simp] theorem setAx_grps (s : State) (a : Nat) (x : Ax) : (s.setAx a x).grps = s.grps := rfl
@[simp] theorem setAx_pfSampled (s : State) (a : Nat) (x : Ax) : (s.setAx a x).pfSampled = s.pfSampled := rfl
@[simp] theorem setAx_pfAns (s : State) (a : Nat) (x : Ax) : (s.setAx a x).pfAns = s.pfAns := rfl
@[simp] theorem setAx_loops (s : State) (a : Nat) (x : Ax) : (s.setAx a x).loops = s.loops := rfl
@[simp] theorem setAx_upd (s : State) (a : Nat) (x : Ax) : (s.setAx a x).upd = s.upd := rfl
@[simp] theorem setAx_engs (s : State) (a : Nat) (x : Ax) : (s.setAx a x).engs = s.engs := rfl
@[simp] theorem setAx_chans (s : State) (a : Nat) (x : Ax) : (s.setAx a x).chans = s.chans := rfl
@[simp] theorem setAx_bond (s : State) (a : Nat) (x : Ax) : (s.setAx a x).bond = s.bond := rfl
@[simp] theorem setAx_rings (s : State) (a : Nat) (x : Ax) : (s.setAx a x).rings = s.rings := rfl
@[simp] theorem setAx_pim (s : State) (a : Nat) (x : Ax) : (s.setAx a x).pim = s.pim := rfl
@[simp] theorem setAx_cap (s : State) (a : Nat) (x : Ax) : (s.setAx a x).cap = s.cap := rfl
@[simp] theorem setAx_isl (s : State) (a : Nat) (x : Ax) : (s.setAx a x).isl = s.isl := rfl
@[simp] theorem setAx_mtr (s : State) (a : Nat) (x : Ax) : (s.setAx a x).mtr = s.mtr := rfl
@[simp] theorem setAx_hst (s : State) (a : Nat) (x : Ax) : (s.setAx a x).hst = s.hst := rfl
@[simp] theorem setAx_tim (s : State) (a : Nat) (x : Ax) : (s.setAx a x).tim = s.tim := rfl
@[simp] theorem setAx_cas (s : State) (a : Nat) (x : Ax) : (s.setAx a x).cas = s.cas := rfl
@[simp] theorem setAx_chain (s : State) (a : Nat) (x : Ax) : (s.setAx a x).chain = s.chain := rfl
@[simp] theorem setAx_jtag (s : State) (a : Nat) (x : Ax) : (s.setAx a x).jtag = s.jtag := rfl
@[simp] theorem setAx_rstLow (s : State) (a : Nat) (x : Ax) : (s.setAx a x).rstLow = s.rstLow := rfl
@[simp] theorem setAx_pwr (s : State) (a : Nat) (x : Ax) : (s.setAx a x).pwr = s.pwr := rfl
@[simp] theorem setAx_tst (s : State) (a : Nat) (x : Ax) : (s.setAx a x).tst = s.tst := rfl
@[simp] theorem setAx_boot (s : State) (a : Nat) (x : Ax) : (s.setAx a x).boot = s.boot := rfl
@[simp] theorem setAx_cores (s : State) (a : Nat) (x : Ax) : (s.setAx a x).cores = s.cores := rfl
@[simp] theorem setAx_sch (s : State) (a : Nat) (x : Ax) : (s.setAx a x).sch = s.sch := rfl
@[simp] theorem setAx_dma (s : State) (a : Nat) (x : Ax) : (s.setAx a x).dma = s.dma := rfl
@[simp] theorem setAx_dmaTurn (s : State) (a : Nat) (x : Ax) : (s.setAx a x).dmaTurn = s.dmaTurn := rfl
@[simp] theorem setAx_gpio (s : State) (a : Nat) (x : Ax) : (s.setAx a x).gpio = s.gpio := rfl
@[simp] theorem setAx_holdBy (s : State) (a : Nat) (x : Ax) : (s.setAx a x).holdBy = s.holdBy := rfl
@[simp] theorem setAx_pending (s : State) (a : Nat) (x : Ax) : (s.setAx a x).pending = s.pending := rfl
@[simp] theorem setAx_get (s : State) (a : Nat) (x : Ax) (g0 : Fld) : (s.setAx a x).get g0 = s.get g0 := rfl
@[simp] theorem setAx_flag (s : State) (a : Nat) (x : Ax) (g0 : Fld) : (s.setAx a x).flag g0 = s.flag g0 := rfl
@[simp] theorem setAx_byte (s : State) (a : Nat) (x : Ax) (a0 : Nat) : (s.setAx a x).byte a0 = s.byte a0 := rfl

/-! setGrp. -/

@[simp] theorem setGrp_flds (s : State) (a : Nat) (x : Grp) : (s.setGrp a x).flds = s.flds := rfl
@[simp] theorem setGrp_mem (s : State) (a : Nat) (x : Grp) : (s.setGrp a x).mem = s.mem := rfl
@[simp] theorem setGrp_now (s : State) (a : Nat) (x : Grp) : (s.setGrp a x).now = s.now := rfl
@[simp] theorem setGrp_bus (s : State) (a : Nat) (x : Grp) : (s.setGrp a x).bus = s.bus := rfl
@[simp] theorem setGrp_outs (s : State) (a : Nat) (x : Grp) : (s.setGrp a x).outs = s.outs := rfl
@[simp] theorem setGrp_free (s : State) (a : Nat) (x : Grp) : (s.setGrp a x).free = s.free := rfl
@[simp] theorem setGrp_dev (s : State) (a : Nat) (x : Grp) : (s.setGrp a x).dev = s.dev := rfl
@[simp] theorem setGrp_crs (s : State) (a : Nat) (x : Grp) : (s.setGrp a x).crs = s.crs := rfl
@[simp] theorem setGrp_axes (s : State) (a : Nat) (x : Grp) : (s.setGrp a x).axes = s.axes := rfl
@[simp] theorem setGrp_pfSampled (s : State) (a : Nat) (x : Grp) : (s.setGrp a x).pfSampled = s.pfSampled := rfl
@[simp] theorem setGrp_pfAns (s : State) (a : Nat) (x : Grp) : (s.setGrp a x).pfAns = s.pfAns := rfl
@[simp] theorem setGrp_loops (s : State) (a : Nat) (x : Grp) : (s.setGrp a x).loops = s.loops := rfl
@[simp] theorem setGrp_upd (s : State) (a : Nat) (x : Grp) : (s.setGrp a x).upd = s.upd := rfl
@[simp] theorem setGrp_engs (s : State) (a : Nat) (x : Grp) : (s.setGrp a x).engs = s.engs := rfl
@[simp] theorem setGrp_chans (s : State) (a : Nat) (x : Grp) : (s.setGrp a x).chans = s.chans := rfl
@[simp] theorem setGrp_bond (s : State) (a : Nat) (x : Grp) : (s.setGrp a x).bond = s.bond := rfl
@[simp] theorem setGrp_rings (s : State) (a : Nat) (x : Grp) : (s.setGrp a x).rings = s.rings := rfl
@[simp] theorem setGrp_pim (s : State) (a : Nat) (x : Grp) : (s.setGrp a x).pim = s.pim := rfl
@[simp] theorem setGrp_cap (s : State) (a : Nat) (x : Grp) : (s.setGrp a x).cap = s.cap := rfl
@[simp] theorem setGrp_isl (s : State) (a : Nat) (x : Grp) : (s.setGrp a x).isl = s.isl := rfl
@[simp] theorem setGrp_mtr (s : State) (a : Nat) (x : Grp) : (s.setGrp a x).mtr = s.mtr := rfl
@[simp] theorem setGrp_hst (s : State) (a : Nat) (x : Grp) : (s.setGrp a x).hst = s.hst := rfl
@[simp] theorem setGrp_tim (s : State) (a : Nat) (x : Grp) : (s.setGrp a x).tim = s.tim := rfl
@[simp] theorem setGrp_cas (s : State) (a : Nat) (x : Grp) : (s.setGrp a x).cas = s.cas := rfl
@[simp] theorem setGrp_chain (s : State) (a : Nat) (x : Grp) : (s.setGrp a x).chain = s.chain := rfl
@[simp] theorem setGrp_jtag (s : State) (a : Nat) (x : Grp) : (s.setGrp a x).jtag = s.jtag := rfl
@[simp] theorem setGrp_rstLow (s : State) (a : Nat) (x : Grp) : (s.setGrp a x).rstLow = s.rstLow := rfl
@[simp] theorem setGrp_pwr (s : State) (a : Nat) (x : Grp) : (s.setGrp a x).pwr = s.pwr := rfl
@[simp] theorem setGrp_tst (s : State) (a : Nat) (x : Grp) : (s.setGrp a x).tst = s.tst := rfl
@[simp] theorem setGrp_boot (s : State) (a : Nat) (x : Grp) : (s.setGrp a x).boot = s.boot := rfl
@[simp] theorem setGrp_cores (s : State) (a : Nat) (x : Grp) : (s.setGrp a x).cores = s.cores := rfl
@[simp] theorem setGrp_sch (s : State) (a : Nat) (x : Grp) : (s.setGrp a x).sch = s.sch := rfl
@[simp] theorem setGrp_dma (s : State) (a : Nat) (x : Grp) : (s.setGrp a x).dma = s.dma := rfl
@[simp] theorem setGrp_dmaTurn (s : State) (a : Nat) (x : Grp) : (s.setGrp a x).dmaTurn = s.dmaTurn := rfl
@[simp] theorem setGrp_gpio (s : State) (a : Nat) (x : Grp) : (s.setGrp a x).gpio = s.gpio := rfl
@[simp] theorem setGrp_holdBy (s : State) (a : Nat) (x : Grp) : (s.setGrp a x).holdBy = s.holdBy := rfl
@[simp] theorem setGrp_pending (s : State) (a : Nat) (x : Grp) : (s.setGrp a x).pending = s.pending := rfl
@[simp] theorem setGrp_get (s : State) (a : Nat) (x : Grp) (g0 : Fld) : (s.setGrp a x).get g0 = s.get g0 := rfl
@[simp] theorem setGrp_flag (s : State) (a : Nat) (x : Grp) (g0 : Fld) : (s.setGrp a x).flag g0 = s.flag g0 := rfl
@[simp] theorem setGrp_byte (s : State) (a : Nat) (x : Grp) (a0 : Nat) : (s.setGrp a x).byte a0 = s.byte a0 := rfl

/-! setCore. -/

@[simp] theorem setCore_flds (s : State) (a : Nat) (x : Core) : (s.setCore a x).flds = s.flds := rfl
@[simp] theorem setCore_mem (s : State) (a : Nat) (x : Core) : (s.setCore a x).mem = s.mem := rfl
@[simp] theorem setCore_now (s : State) (a : Nat) (x : Core) : (s.setCore a x).now = s.now := rfl
@[simp] theorem setCore_bus (s : State) (a : Nat) (x : Core) : (s.setCore a x).bus = s.bus := rfl
@[simp] theorem setCore_outs (s : State) (a : Nat) (x : Core) : (s.setCore a x).outs = s.outs := rfl
@[simp] theorem setCore_free (s : State) (a : Nat) (x : Core) : (s.setCore a x).free = s.free := rfl
@[simp] theorem setCore_dev (s : State) (a : Nat) (x : Core) : (s.setCore a x).dev = s.dev := rfl
@[simp] theorem setCore_crs (s : State) (a : Nat) (x : Core) : (s.setCore a x).crs = s.crs := rfl
@[simp] theorem setCore_axes (s : State) (a : Nat) (x : Core) : (s.setCore a x).axes = s.axes := rfl
@[simp] theorem setCore_grps (s : State) (a : Nat) (x : Core) : (s.setCore a x).grps = s.grps := rfl
@[simp] theorem setCore_pfSampled (s : State) (a : Nat) (x : Core) : (s.setCore a x).pfSampled = s.pfSampled := rfl
@[simp] theorem setCore_pfAns (s : State) (a : Nat) (x : Core) : (s.setCore a x).pfAns = s.pfAns := rfl
@[simp] theorem setCore_loops (s : State) (a : Nat) (x : Core) : (s.setCore a x).loops = s.loops := rfl
@[simp] theorem setCore_upd (s : State) (a : Nat) (x : Core) : (s.setCore a x).upd = s.upd := rfl
@[simp] theorem setCore_engs (s : State) (a : Nat) (x : Core) : (s.setCore a x).engs = s.engs := rfl
@[simp] theorem setCore_chans (s : State) (a : Nat) (x : Core) : (s.setCore a x).chans = s.chans := rfl
@[simp] theorem setCore_bond (s : State) (a : Nat) (x : Core) : (s.setCore a x).bond = s.bond := rfl
@[simp] theorem setCore_rings (s : State) (a : Nat) (x : Core) : (s.setCore a x).rings = s.rings := rfl
@[simp] theorem setCore_pim (s : State) (a : Nat) (x : Core) : (s.setCore a x).pim = s.pim := rfl
@[simp] theorem setCore_cap (s : State) (a : Nat) (x : Core) : (s.setCore a x).cap = s.cap := rfl
@[simp] theorem setCore_isl (s : State) (a : Nat) (x : Core) : (s.setCore a x).isl = s.isl := rfl
@[simp] theorem setCore_mtr (s : State) (a : Nat) (x : Core) : (s.setCore a x).mtr = s.mtr := rfl
@[simp] theorem setCore_hst (s : State) (a : Nat) (x : Core) : (s.setCore a x).hst = s.hst := rfl
@[simp] theorem setCore_tim (s : State) (a : Nat) (x : Core) : (s.setCore a x).tim = s.tim := rfl
@[simp] theorem setCore_cas (s : State) (a : Nat) (x : Core) : (s.setCore a x).cas = s.cas := rfl
@[simp] theorem setCore_chain (s : State) (a : Nat) (x : Core) : (s.setCore a x).chain = s.chain := rfl
@[simp] theorem setCore_jtag (s : State) (a : Nat) (x : Core) : (s.setCore a x).jtag = s.jtag := rfl
@[simp] theorem setCore_rstLow (s : State) (a : Nat) (x : Core) : (s.setCore a x).rstLow = s.rstLow := rfl
@[simp] theorem setCore_pwr (s : State) (a : Nat) (x : Core) : (s.setCore a x).pwr = s.pwr := rfl
@[simp] theorem setCore_tst (s : State) (a : Nat) (x : Core) : (s.setCore a x).tst = s.tst := rfl
@[simp] theorem setCore_boot (s : State) (a : Nat) (x : Core) : (s.setCore a x).boot = s.boot := rfl
@[simp] theorem setCore_sch (s : State) (a : Nat) (x : Core) : (s.setCore a x).sch = s.sch := rfl
@[simp] theorem setCore_dma (s : State) (a : Nat) (x : Core) : (s.setCore a x).dma = s.dma := rfl
@[simp] theorem setCore_dmaTurn (s : State) (a : Nat) (x : Core) : (s.setCore a x).dmaTurn = s.dmaTurn := rfl
@[simp] theorem setCore_gpio (s : State) (a : Nat) (x : Core) : (s.setCore a x).gpio = s.gpio := rfl
@[simp] theorem setCore_holdBy (s : State) (a : Nat) (x : Core) : (s.setCore a x).holdBy = s.holdBy := rfl
@[simp] theorem setCore_pending (s : State) (a : Nat) (x : Core) : (s.setCore a x).pending = s.pending := rfl
@[simp] theorem setCore_get (s : State) (a : Nat) (x : Core) (g0 : Fld) : (s.setCore a x).get g0 = s.get g0 := rfl
@[simp] theorem setCore_flag (s : State) (a : Nat) (x : Core) (g0 : Fld) : (s.setCore a x).flag g0 = s.flag g0 := rfl
@[simp] theorem setCore_byte (s : State) (a : Nat) (x : Core) (a0 : Nat) : (s.setCore a x).byte a0 = s.byte a0 := rfl

/-! setDch. -/

@[simp] theorem setDch_flds (s : State) (a : Nat) (x : DCh) : (s.setDch a x).flds = s.flds := rfl
@[simp] theorem setDch_mem (s : State) (a : Nat) (x : DCh) : (s.setDch a x).mem = s.mem := rfl
@[simp] theorem setDch_now (s : State) (a : Nat) (x : DCh) : (s.setDch a x).now = s.now := rfl
@[simp] theorem setDch_bus (s : State) (a : Nat) (x : DCh) : (s.setDch a x).bus = s.bus := rfl
@[simp] theorem setDch_outs (s : State) (a : Nat) (x : DCh) : (s.setDch a x).outs = s.outs := rfl
@[simp] theorem setDch_free (s : State) (a : Nat) (x : DCh) : (s.setDch a x).free = s.free := rfl
@[simp] theorem setDch_dev (s : State) (a : Nat) (x : DCh) : (s.setDch a x).dev = s.dev := rfl
@[simp] theorem setDch_crs (s : State) (a : Nat) (x : DCh) : (s.setDch a x).crs = s.crs := rfl
@[simp] theorem setDch_axes (s : State) (a : Nat) (x : DCh) : (s.setDch a x).axes = s.axes := rfl
@[simp] theorem setDch_grps (s : State) (a : Nat) (x : DCh) : (s.setDch a x).grps = s.grps := rfl
@[simp] theorem setDch_pfSampled (s : State) (a : Nat) (x : DCh) : (s.setDch a x).pfSampled = s.pfSampled := rfl
@[simp] theorem setDch_pfAns (s : State) (a : Nat) (x : DCh) : (s.setDch a x).pfAns = s.pfAns := rfl
@[simp] theorem setDch_loops (s : State) (a : Nat) (x : DCh) : (s.setDch a x).loops = s.loops := rfl
@[simp] theorem setDch_upd (s : State) (a : Nat) (x : DCh) : (s.setDch a x).upd = s.upd := rfl
@[simp] theorem setDch_engs (s : State) (a : Nat) (x : DCh) : (s.setDch a x).engs = s.engs := rfl
@[simp] theorem setDch_chans (s : State) (a : Nat) (x : DCh) : (s.setDch a x).chans = s.chans := rfl
@[simp] theorem setDch_bond (s : State) (a : Nat) (x : DCh) : (s.setDch a x).bond = s.bond := rfl
@[simp] theorem setDch_rings (s : State) (a : Nat) (x : DCh) : (s.setDch a x).rings = s.rings := rfl
@[simp] theorem setDch_pim (s : State) (a : Nat) (x : DCh) : (s.setDch a x).pim = s.pim := rfl
@[simp] theorem setDch_cap (s : State) (a : Nat) (x : DCh) : (s.setDch a x).cap = s.cap := rfl
@[simp] theorem setDch_isl (s : State) (a : Nat) (x : DCh) : (s.setDch a x).isl = s.isl := rfl
@[simp] theorem setDch_mtr (s : State) (a : Nat) (x : DCh) : (s.setDch a x).mtr = s.mtr := rfl
@[simp] theorem setDch_hst (s : State) (a : Nat) (x : DCh) : (s.setDch a x).hst = s.hst := rfl
@[simp] theorem setDch_tim (s : State) (a : Nat) (x : DCh) : (s.setDch a x).tim = s.tim := rfl
@[simp] theorem setDch_cas (s : State) (a : Nat) (x : DCh) : (s.setDch a x).cas = s.cas := rfl
@[simp] theorem setDch_chain (s : State) (a : Nat) (x : DCh) : (s.setDch a x).chain = s.chain := rfl
@[simp] theorem setDch_jtag (s : State) (a : Nat) (x : DCh) : (s.setDch a x).jtag = s.jtag := rfl
@[simp] theorem setDch_rstLow (s : State) (a : Nat) (x : DCh) : (s.setDch a x).rstLow = s.rstLow := rfl
@[simp] theorem setDch_pwr (s : State) (a : Nat) (x : DCh) : (s.setDch a x).pwr = s.pwr := rfl
@[simp] theorem setDch_tst (s : State) (a : Nat) (x : DCh) : (s.setDch a x).tst = s.tst := rfl
@[simp] theorem setDch_boot (s : State) (a : Nat) (x : DCh) : (s.setDch a x).boot = s.boot := rfl
@[simp] theorem setDch_cores (s : State) (a : Nat) (x : DCh) : (s.setDch a x).cores = s.cores := rfl
@[simp] theorem setDch_sch (s : State) (a : Nat) (x : DCh) : (s.setDch a x).sch = s.sch := rfl
@[simp] theorem setDch_dmaTurn (s : State) (a : Nat) (x : DCh) : (s.setDch a x).dmaTurn = s.dmaTurn := rfl
@[simp] theorem setDch_gpio (s : State) (a : Nat) (x : DCh) : (s.setDch a x).gpio = s.gpio := rfl
@[simp] theorem setDch_holdBy (s : State) (a : Nat) (x : DCh) : (s.setDch a x).holdBy = s.holdBy := rfl
@[simp] theorem setDch_pending (s : State) (a : Nat) (x : DCh) : (s.setDch a x).pending = s.pending := rfl
@[simp] theorem setDch_get (s : State) (a : Nat) (x : DCh) (g0 : Fld) : (s.setDch a x).get g0 = s.get g0 := rfl
@[simp] theorem setDch_flag (s : State) (a : Nat) (x : DCh) (g0 : Fld) : (s.setDch a x).flag g0 = s.flag g0 := rfl
@[simp] theorem setDch_byte (s : State) (a : Nat) (x : DCh) (a0 : Nat) : (s.setDch a x).byte a0 = s.byte a0 := rfl

/-! setEng. -/

@[simp] theorem setEng_flds (s : State) (a : Nat) (x : Eng) : (s.setEng a x).flds = s.flds := rfl
@[simp] theorem setEng_mem (s : State) (a : Nat) (x : Eng) : (s.setEng a x).mem = s.mem := rfl
@[simp] theorem setEng_now (s : State) (a : Nat) (x : Eng) : (s.setEng a x).now = s.now := rfl
@[simp] theorem setEng_bus (s : State) (a : Nat) (x : Eng) : (s.setEng a x).bus = s.bus := rfl
@[simp] theorem setEng_outs (s : State) (a : Nat) (x : Eng) : (s.setEng a x).outs = s.outs := rfl
@[simp] theorem setEng_free (s : State) (a : Nat) (x : Eng) : (s.setEng a x).free = s.free := rfl
@[simp] theorem setEng_dev (s : State) (a : Nat) (x : Eng) : (s.setEng a x).dev = s.dev := rfl
@[simp] theorem setEng_crs (s : State) (a : Nat) (x : Eng) : (s.setEng a x).crs = s.crs := rfl
@[simp] theorem setEng_axes (s : State) (a : Nat) (x : Eng) : (s.setEng a x).axes = s.axes := rfl
@[simp] theorem setEng_grps (s : State) (a : Nat) (x : Eng) : (s.setEng a x).grps = s.grps := rfl
@[simp] theorem setEng_pfSampled (s : State) (a : Nat) (x : Eng) : (s.setEng a x).pfSampled = s.pfSampled := rfl
@[simp] theorem setEng_pfAns (s : State) (a : Nat) (x : Eng) : (s.setEng a x).pfAns = s.pfAns := rfl
@[simp] theorem setEng_loops (s : State) (a : Nat) (x : Eng) : (s.setEng a x).loops = s.loops := rfl
@[simp] theorem setEng_upd (s : State) (a : Nat) (x : Eng) : (s.setEng a x).upd = s.upd := rfl
@[simp] theorem setEng_chans (s : State) (a : Nat) (x : Eng) : (s.setEng a x).chans = s.chans := rfl
@[simp] theorem setEng_bond (s : State) (a : Nat) (x : Eng) : (s.setEng a x).bond = s.bond := rfl
@[simp] theorem setEng_rings (s : State) (a : Nat) (x : Eng) : (s.setEng a x).rings = s.rings := rfl
@[simp] theorem setEng_pim (s : State) (a : Nat) (x : Eng) : (s.setEng a x).pim = s.pim := rfl
@[simp] theorem setEng_cap (s : State) (a : Nat) (x : Eng) : (s.setEng a x).cap = s.cap := rfl
@[simp] theorem setEng_isl (s : State) (a : Nat) (x : Eng) : (s.setEng a x).isl = s.isl := rfl
@[simp] theorem setEng_mtr (s : State) (a : Nat) (x : Eng) : (s.setEng a x).mtr = s.mtr := rfl
@[simp] theorem setEng_hst (s : State) (a : Nat) (x : Eng) : (s.setEng a x).hst = s.hst := rfl
@[simp] theorem setEng_tim (s : State) (a : Nat) (x : Eng) : (s.setEng a x).tim = s.tim := rfl
@[simp] theorem setEng_cas (s : State) (a : Nat) (x : Eng) : (s.setEng a x).cas = s.cas := rfl
@[simp] theorem setEng_chain (s : State) (a : Nat) (x : Eng) : (s.setEng a x).chain = s.chain := rfl
@[simp] theorem setEng_jtag (s : State) (a : Nat) (x : Eng) : (s.setEng a x).jtag = s.jtag := rfl
@[simp] theorem setEng_rstLow (s : State) (a : Nat) (x : Eng) : (s.setEng a x).rstLow = s.rstLow := rfl
@[simp] theorem setEng_pwr (s : State) (a : Nat) (x : Eng) : (s.setEng a x).pwr = s.pwr := rfl
@[simp] theorem setEng_tst (s : State) (a : Nat) (x : Eng) : (s.setEng a x).tst = s.tst := rfl
@[simp] theorem setEng_boot (s : State) (a : Nat) (x : Eng) : (s.setEng a x).boot = s.boot := rfl
@[simp] theorem setEng_cores (s : State) (a : Nat) (x : Eng) : (s.setEng a x).cores = s.cores := rfl
@[simp] theorem setEng_sch (s : State) (a : Nat) (x : Eng) : (s.setEng a x).sch = s.sch := rfl
@[simp] theorem setEng_dma (s : State) (a : Nat) (x : Eng) : (s.setEng a x).dma = s.dma := rfl
@[simp] theorem setEng_dmaTurn (s : State) (a : Nat) (x : Eng) : (s.setEng a x).dmaTurn = s.dmaTurn := rfl
@[simp] theorem setEng_gpio (s : State) (a : Nat) (x : Eng) : (s.setEng a x).gpio = s.gpio := rfl
@[simp] theorem setEng_holdBy (s : State) (a : Nat) (x : Eng) : (s.setEng a x).holdBy = s.holdBy := rfl
@[simp] theorem setEng_pending (s : State) (a : Nat) (x : Eng) : (s.setEng a x).pending = s.pending := rfl
@[simp] theorem setEng_get (s : State) (a : Nat) (x : Eng) (g0 : Fld) : (s.setEng a x).get g0 = s.get g0 := rfl
@[simp] theorem setEng_flag (s : State) (a : Nat) (x : Eng) (g0 : Fld) : (s.setEng a x).flag g0 = s.flag g0 := rfl
@[simp] theorem setEng_byte (s : State) (a : Nat) (x : Eng) (a0 : Nat) : (s.setEng a x).byte a0 = s.byte a0 := rfl

/-! setLoop. -/

@[simp] theorem setLoop_flds (s : State) (a : Nat) (x : Loop) : (s.setLoop a x).flds = s.flds := rfl
@[simp] theorem setLoop_mem (s : State) (a : Nat) (x : Loop) : (s.setLoop a x).mem = s.mem := rfl
@[simp] theorem setLoop_now (s : State) (a : Nat) (x : Loop) : (s.setLoop a x).now = s.now := rfl
@[simp] theorem setLoop_bus (s : State) (a : Nat) (x : Loop) : (s.setLoop a x).bus = s.bus := rfl
@[simp] theorem setLoop_outs (s : State) (a : Nat) (x : Loop) : (s.setLoop a x).outs = s.outs := rfl
@[simp] theorem setLoop_free (s : State) (a : Nat) (x : Loop) : (s.setLoop a x).free = s.free := rfl
@[simp] theorem setLoop_dev (s : State) (a : Nat) (x : Loop) : (s.setLoop a x).dev = s.dev := rfl
@[simp] theorem setLoop_crs (s : State) (a : Nat) (x : Loop) : (s.setLoop a x).crs = s.crs := rfl
@[simp] theorem setLoop_axes (s : State) (a : Nat) (x : Loop) : (s.setLoop a x).axes = s.axes := rfl
@[simp] theorem setLoop_grps (s : State) (a : Nat) (x : Loop) : (s.setLoop a x).grps = s.grps := rfl
@[simp] theorem setLoop_pfSampled (s : State) (a : Nat) (x : Loop) : (s.setLoop a x).pfSampled = s.pfSampled := rfl
@[simp] theorem setLoop_pfAns (s : State) (a : Nat) (x : Loop) : (s.setLoop a x).pfAns = s.pfAns := rfl
@[simp] theorem setLoop_upd (s : State) (a : Nat) (x : Loop) : (s.setLoop a x).upd = s.upd := rfl
@[simp] theorem setLoop_engs (s : State) (a : Nat) (x : Loop) : (s.setLoop a x).engs = s.engs := rfl
@[simp] theorem setLoop_chans (s : State) (a : Nat) (x : Loop) : (s.setLoop a x).chans = s.chans := rfl
@[simp] theorem setLoop_bond (s : State) (a : Nat) (x : Loop) : (s.setLoop a x).bond = s.bond := rfl
@[simp] theorem setLoop_rings (s : State) (a : Nat) (x : Loop) : (s.setLoop a x).rings = s.rings := rfl
@[simp] theorem setLoop_pim (s : State) (a : Nat) (x : Loop) : (s.setLoop a x).pim = s.pim := rfl
@[simp] theorem setLoop_cap (s : State) (a : Nat) (x : Loop) : (s.setLoop a x).cap = s.cap := rfl
@[simp] theorem setLoop_isl (s : State) (a : Nat) (x : Loop) : (s.setLoop a x).isl = s.isl := rfl
@[simp] theorem setLoop_mtr (s : State) (a : Nat) (x : Loop) : (s.setLoop a x).mtr = s.mtr := rfl
@[simp] theorem setLoop_hst (s : State) (a : Nat) (x : Loop) : (s.setLoop a x).hst = s.hst := rfl
@[simp] theorem setLoop_tim (s : State) (a : Nat) (x : Loop) : (s.setLoop a x).tim = s.tim := rfl
@[simp] theorem setLoop_cas (s : State) (a : Nat) (x : Loop) : (s.setLoop a x).cas = s.cas := rfl
@[simp] theorem setLoop_chain (s : State) (a : Nat) (x : Loop) : (s.setLoop a x).chain = s.chain := rfl
@[simp] theorem setLoop_jtag (s : State) (a : Nat) (x : Loop) : (s.setLoop a x).jtag = s.jtag := rfl
@[simp] theorem setLoop_rstLow (s : State) (a : Nat) (x : Loop) : (s.setLoop a x).rstLow = s.rstLow := rfl
@[simp] theorem setLoop_pwr (s : State) (a : Nat) (x : Loop) : (s.setLoop a x).pwr = s.pwr := rfl
@[simp] theorem setLoop_tst (s : State) (a : Nat) (x : Loop) : (s.setLoop a x).tst = s.tst := rfl
@[simp] theorem setLoop_boot (s : State) (a : Nat) (x : Loop) : (s.setLoop a x).boot = s.boot := rfl
@[simp] theorem setLoop_cores (s : State) (a : Nat) (x : Loop) : (s.setLoop a x).cores = s.cores := rfl
@[simp] theorem setLoop_sch (s : State) (a : Nat) (x : Loop) : (s.setLoop a x).sch = s.sch := rfl
@[simp] theorem setLoop_dma (s : State) (a : Nat) (x : Loop) : (s.setLoop a x).dma = s.dma := rfl
@[simp] theorem setLoop_dmaTurn (s : State) (a : Nat) (x : Loop) : (s.setLoop a x).dmaTurn = s.dmaTurn := rfl
@[simp] theorem setLoop_gpio (s : State) (a : Nat) (x : Loop) : (s.setLoop a x).gpio = s.gpio := rfl
@[simp] theorem setLoop_holdBy (s : State) (a : Nat) (x : Loop) : (s.setLoop a x).holdBy = s.holdBy := rfl
@[simp] theorem setLoop_pending (s : State) (a : Nat) (x : Loop) : (s.setLoop a x).pending = s.pending := rfl
@[simp] theorem setLoop_get (s : State) (a : Nat) (x : Loop) (g0 : Fld) : (s.setLoop a x).get g0 = s.get g0 := rfl
@[simp] theorem setLoop_flag (s : State) (a : Nat) (x : Loop) (g0 : Fld) : (s.setLoop a x).flag g0 = s.flag g0 := rfl
@[simp] theorem setLoop_byte (s : State) (a : Nat) (x : Loop) (a0 : Nat) : (s.setLoop a x).byte a0 = s.byte a0 := rfl

/-! setRing. -/

@[simp] theorem setRing_flds (s : State) (a : Nat) (x : Ring) : (s.setRing a x).flds = s.flds := rfl
@[simp] theorem setRing_mem (s : State) (a : Nat) (x : Ring) : (s.setRing a x).mem = s.mem := rfl
@[simp] theorem setRing_now (s : State) (a : Nat) (x : Ring) : (s.setRing a x).now = s.now := rfl
@[simp] theorem setRing_bus (s : State) (a : Nat) (x : Ring) : (s.setRing a x).bus = s.bus := rfl
@[simp] theorem setRing_outs (s : State) (a : Nat) (x : Ring) : (s.setRing a x).outs = s.outs := rfl
@[simp] theorem setRing_free (s : State) (a : Nat) (x : Ring) : (s.setRing a x).free = s.free := rfl
@[simp] theorem setRing_dev (s : State) (a : Nat) (x : Ring) : (s.setRing a x).dev = s.dev := rfl
@[simp] theorem setRing_crs (s : State) (a : Nat) (x : Ring) : (s.setRing a x).crs = s.crs := rfl
@[simp] theorem setRing_axes (s : State) (a : Nat) (x : Ring) : (s.setRing a x).axes = s.axes := rfl
@[simp] theorem setRing_grps (s : State) (a : Nat) (x : Ring) : (s.setRing a x).grps = s.grps := rfl
@[simp] theorem setRing_pfSampled (s : State) (a : Nat) (x : Ring) : (s.setRing a x).pfSampled = s.pfSampled := rfl
@[simp] theorem setRing_pfAns (s : State) (a : Nat) (x : Ring) : (s.setRing a x).pfAns = s.pfAns := rfl
@[simp] theorem setRing_loops (s : State) (a : Nat) (x : Ring) : (s.setRing a x).loops = s.loops := rfl
@[simp] theorem setRing_upd (s : State) (a : Nat) (x : Ring) : (s.setRing a x).upd = s.upd := rfl
@[simp] theorem setRing_engs (s : State) (a : Nat) (x : Ring) : (s.setRing a x).engs = s.engs := rfl
@[simp] theorem setRing_chans (s : State) (a : Nat) (x : Ring) : (s.setRing a x).chans = s.chans := rfl
@[simp] theorem setRing_bond (s : State) (a : Nat) (x : Ring) : (s.setRing a x).bond = s.bond := rfl
@[simp] theorem setRing_pim (s : State) (a : Nat) (x : Ring) : (s.setRing a x).pim = s.pim := rfl
@[simp] theorem setRing_cap (s : State) (a : Nat) (x : Ring) : (s.setRing a x).cap = s.cap := rfl
@[simp] theorem setRing_isl (s : State) (a : Nat) (x : Ring) : (s.setRing a x).isl = s.isl := rfl
@[simp] theorem setRing_mtr (s : State) (a : Nat) (x : Ring) : (s.setRing a x).mtr = s.mtr := rfl
@[simp] theorem setRing_hst (s : State) (a : Nat) (x : Ring) : (s.setRing a x).hst = s.hst := rfl
@[simp] theorem setRing_tim (s : State) (a : Nat) (x : Ring) : (s.setRing a x).tim = s.tim := rfl
@[simp] theorem setRing_cas (s : State) (a : Nat) (x : Ring) : (s.setRing a x).cas = s.cas := rfl
@[simp] theorem setRing_chain (s : State) (a : Nat) (x : Ring) : (s.setRing a x).chain = s.chain := rfl
@[simp] theorem setRing_jtag (s : State) (a : Nat) (x : Ring) : (s.setRing a x).jtag = s.jtag := rfl
@[simp] theorem setRing_rstLow (s : State) (a : Nat) (x : Ring) : (s.setRing a x).rstLow = s.rstLow := rfl
@[simp] theorem setRing_pwr (s : State) (a : Nat) (x : Ring) : (s.setRing a x).pwr = s.pwr := rfl
@[simp] theorem setRing_tst (s : State) (a : Nat) (x : Ring) : (s.setRing a x).tst = s.tst := rfl
@[simp] theorem setRing_boot (s : State) (a : Nat) (x : Ring) : (s.setRing a x).boot = s.boot := rfl
@[simp] theorem setRing_cores (s : State) (a : Nat) (x : Ring) : (s.setRing a x).cores = s.cores := rfl
@[simp] theorem setRing_sch (s : State) (a : Nat) (x : Ring) : (s.setRing a x).sch = s.sch := rfl
@[simp] theorem setRing_dma (s : State) (a : Nat) (x : Ring) : (s.setRing a x).dma = s.dma := rfl
@[simp] theorem setRing_dmaTurn (s : State) (a : Nat) (x : Ring) : (s.setRing a x).dmaTurn = s.dmaTurn := rfl
@[simp] theorem setRing_gpio (s : State) (a : Nat) (x : Ring) : (s.setRing a x).gpio = s.gpio := rfl
@[simp] theorem setRing_holdBy (s : State) (a : Nat) (x : Ring) : (s.setRing a x).holdBy = s.holdBy := rfl
@[simp] theorem setRing_pending (s : State) (a : Nat) (x : Ring) : (s.setRing a x).pending = s.pending := rfl
@[simp] theorem setRing_get (s : State) (a : Nat) (x : Ring) (g0 : Fld) : (s.setRing a x).get g0 = s.get g0 := rfl
@[simp] theorem setRing_flag (s : State) (a : Nat) (x : Ring) (g0 : Fld) : (s.setRing a x).flag g0 = s.flag g0 := rfl
@[simp] theorem setRing_byte (s : State) (a : Nat) (x : Ring) (a0 : Nat) : (s.setRing a x).byte a0 = s.byte a0 := rfl

/-! setThr. -/

@[simp] theorem setThr_flds (s : State) (a : Nat) (x : Thr) : (s.setThr a x).flds = s.flds := rfl
@[simp] theorem setThr_mem (s : State) (a : Nat) (x : Thr) : (s.setThr a x).mem = s.mem := rfl
@[simp] theorem setThr_now (s : State) (a : Nat) (x : Thr) : (s.setThr a x).now = s.now := rfl
@[simp] theorem setThr_bus (s : State) (a : Nat) (x : Thr) : (s.setThr a x).bus = s.bus := rfl
@[simp] theorem setThr_outs (s : State) (a : Nat) (x : Thr) : (s.setThr a x).outs = s.outs := rfl
@[simp] theorem setThr_free (s : State) (a : Nat) (x : Thr) : (s.setThr a x).free = s.free := rfl
@[simp] theorem setThr_dev (s : State) (a : Nat) (x : Thr) : (s.setThr a x).dev = s.dev := rfl
@[simp] theorem setThr_crs (s : State) (a : Nat) (x : Thr) : (s.setThr a x).crs = s.crs := rfl
@[simp] theorem setThr_axes (s : State) (a : Nat) (x : Thr) : (s.setThr a x).axes = s.axes := rfl
@[simp] theorem setThr_grps (s : State) (a : Nat) (x : Thr) : (s.setThr a x).grps = s.grps := rfl
@[simp] theorem setThr_pfSampled (s : State) (a : Nat) (x : Thr) : (s.setThr a x).pfSampled = s.pfSampled := rfl
@[simp] theorem setThr_pfAns (s : State) (a : Nat) (x : Thr) : (s.setThr a x).pfAns = s.pfAns := rfl
@[simp] theorem setThr_loops (s : State) (a : Nat) (x : Thr) : (s.setThr a x).loops = s.loops := rfl
@[simp] theorem setThr_upd (s : State) (a : Nat) (x : Thr) : (s.setThr a x).upd = s.upd := rfl
@[simp] theorem setThr_engs (s : State) (a : Nat) (x : Thr) : (s.setThr a x).engs = s.engs := rfl
@[simp] theorem setThr_chans (s : State) (a : Nat) (x : Thr) : (s.setThr a x).chans = s.chans := rfl
@[simp] theorem setThr_bond (s : State) (a : Nat) (x : Thr) : (s.setThr a x).bond = s.bond := rfl
@[simp] theorem setThr_rings (s : State) (a : Nat) (x : Thr) : (s.setThr a x).rings = s.rings := rfl
@[simp] theorem setThr_pim (s : State) (a : Nat) (x : Thr) : (s.setThr a x).pim = s.pim := rfl
@[simp] theorem setThr_cap (s : State) (a : Nat) (x : Thr) : (s.setThr a x).cap = s.cap := rfl
@[simp] theorem setThr_isl (s : State) (a : Nat) (x : Thr) : (s.setThr a x).isl = s.isl := rfl
@[simp] theorem setThr_mtr (s : State) (a : Nat) (x : Thr) : (s.setThr a x).mtr = s.mtr := rfl
@[simp] theorem setThr_hst (s : State) (a : Nat) (x : Thr) : (s.setThr a x).hst = s.hst := rfl
@[simp] theorem setThr_tim (s : State) (a : Nat) (x : Thr) : (s.setThr a x).tim = s.tim := rfl
@[simp] theorem setThr_cas (s : State) (a : Nat) (x : Thr) : (s.setThr a x).cas = s.cas := rfl
@[simp] theorem setThr_chain (s : State) (a : Nat) (x : Thr) : (s.setThr a x).chain = s.chain := rfl
@[simp] theorem setThr_jtag (s : State) (a : Nat) (x : Thr) : (s.setThr a x).jtag = s.jtag := rfl
@[simp] theorem setThr_rstLow (s : State) (a : Nat) (x : Thr) : (s.setThr a x).rstLow = s.rstLow := rfl
@[simp] theorem setThr_pwr (s : State) (a : Nat) (x : Thr) : (s.setThr a x).pwr = s.pwr := rfl
@[simp] theorem setThr_tst (s : State) (a : Nat) (x : Thr) : (s.setThr a x).tst = s.tst := rfl
@[simp] theorem setThr_boot (s : State) (a : Nat) (x : Thr) : (s.setThr a x).boot = s.boot := rfl
@[simp] theorem setThr_cores (s : State) (a : Nat) (x : Thr) : (s.setThr a x).cores = s.cores := rfl
@[simp] theorem setThr_dma (s : State) (a : Nat) (x : Thr) : (s.setThr a x).dma = s.dma := rfl
@[simp] theorem setThr_dmaTurn (s : State) (a : Nat) (x : Thr) : (s.setThr a x).dmaTurn = s.dmaTurn := rfl
@[simp] theorem setThr_gpio (s : State) (a : Nat) (x : Thr) : (s.setThr a x).gpio = s.gpio := rfl
@[simp] theorem setThr_holdBy (s : State) (a : Nat) (x : Thr) : (s.setThr a x).holdBy = s.holdBy := rfl
@[simp] theorem setThr_pending (s : State) (a : Nat) (x : Thr) : (s.setThr a x).pending = s.pending := rfl
@[simp] theorem setThr_get (s : State) (a : Nat) (x : Thr) (g0 : Fld) : (s.setThr a x).get g0 = s.get g0 := rfl
@[simp] theorem setThr_flag (s : State) (a : Nat) (x : Thr) (g0 : Fld) : (s.setThr a x).flag g0 = s.flag g0 := rfl
@[simp] theorem setThr_byte (s : State) (a : Nat) (x : Thr) (a0 : Nat) : (s.setThr a x).byte a0 = s.byte a0 := rfl

/-! setChan. -/

@[simp] theorem setChan_flds (s : State) (a : Nat) (x : Chan) : (s.setChan a x).flds = s.flds := rfl
@[simp] theorem setChan_mem (s : State) (a : Nat) (x : Chan) : (s.setChan a x).mem = s.mem := rfl
@[simp] theorem setChan_now (s : State) (a : Nat) (x : Chan) : (s.setChan a x).now = s.now := rfl
@[simp] theorem setChan_bus (s : State) (a : Nat) (x : Chan) : (s.setChan a x).bus = s.bus := rfl
@[simp] theorem setChan_outs (s : State) (a : Nat) (x : Chan) : (s.setChan a x).outs = s.outs := rfl
@[simp] theorem setChan_free (s : State) (a : Nat) (x : Chan) : (s.setChan a x).free = s.free := rfl
@[simp] theorem setChan_dev (s : State) (a : Nat) (x : Chan) : (s.setChan a x).dev = s.dev := rfl
@[simp] theorem setChan_crs (s : State) (a : Nat) (x : Chan) : (s.setChan a x).crs = s.crs := rfl
@[simp] theorem setChan_axes (s : State) (a : Nat) (x : Chan) : (s.setChan a x).axes = s.axes := rfl
@[simp] theorem setChan_grps (s : State) (a : Nat) (x : Chan) : (s.setChan a x).grps = s.grps := rfl
@[simp] theorem setChan_pfSampled (s : State) (a : Nat) (x : Chan) : (s.setChan a x).pfSampled = s.pfSampled := rfl
@[simp] theorem setChan_pfAns (s : State) (a : Nat) (x : Chan) : (s.setChan a x).pfAns = s.pfAns := rfl
@[simp] theorem setChan_loops (s : State) (a : Nat) (x : Chan) : (s.setChan a x).loops = s.loops := rfl
@[simp] theorem setChan_upd (s : State) (a : Nat) (x : Chan) : (s.setChan a x).upd = s.upd := rfl
@[simp] theorem setChan_engs (s : State) (a : Nat) (x : Chan) : (s.setChan a x).engs = s.engs := rfl
@[simp] theorem setChan_bond (s : State) (a : Nat) (x : Chan) : (s.setChan a x).bond = s.bond := rfl
@[simp] theorem setChan_rings (s : State) (a : Nat) (x : Chan) : (s.setChan a x).rings = s.rings := rfl
@[simp] theorem setChan_pim (s : State) (a : Nat) (x : Chan) : (s.setChan a x).pim = s.pim := rfl
@[simp] theorem setChan_cap (s : State) (a : Nat) (x : Chan) : (s.setChan a x).cap = s.cap := rfl
@[simp] theorem setChan_isl (s : State) (a : Nat) (x : Chan) : (s.setChan a x).isl = s.isl := rfl
@[simp] theorem setChan_mtr (s : State) (a : Nat) (x : Chan) : (s.setChan a x).mtr = s.mtr := rfl
@[simp] theorem setChan_hst (s : State) (a : Nat) (x : Chan) : (s.setChan a x).hst = s.hst := rfl
@[simp] theorem setChan_tim (s : State) (a : Nat) (x : Chan) : (s.setChan a x).tim = s.tim := rfl
@[simp] theorem setChan_cas (s : State) (a : Nat) (x : Chan) : (s.setChan a x).cas = s.cas := rfl
@[simp] theorem setChan_chain (s : State) (a : Nat) (x : Chan) : (s.setChan a x).chain = s.chain := rfl
@[simp] theorem setChan_jtag (s : State) (a : Nat) (x : Chan) : (s.setChan a x).jtag = s.jtag := rfl
@[simp] theorem setChan_rstLow (s : State) (a : Nat) (x : Chan) : (s.setChan a x).rstLow = s.rstLow := rfl
@[simp] theorem setChan_pwr (s : State) (a : Nat) (x : Chan) : (s.setChan a x).pwr = s.pwr := rfl
@[simp] theorem setChan_tst (s : State) (a : Nat) (x : Chan) : (s.setChan a x).tst = s.tst := rfl
@[simp] theorem setChan_boot (s : State) (a : Nat) (x : Chan) : (s.setChan a x).boot = s.boot := rfl
@[simp] theorem setChan_cores (s : State) (a : Nat) (x : Chan) : (s.setChan a x).cores = s.cores := rfl
@[simp] theorem setChan_sch (s : State) (a : Nat) (x : Chan) : (s.setChan a x).sch = s.sch := rfl
@[simp] theorem setChan_dma (s : State) (a : Nat) (x : Chan) : (s.setChan a x).dma = s.dma := rfl
@[simp] theorem setChan_dmaTurn (s : State) (a : Nat) (x : Chan) : (s.setChan a x).dmaTurn = s.dmaTurn := rfl
@[simp] theorem setChan_gpio (s : State) (a : Nat) (x : Chan) : (s.setChan a x).gpio = s.gpio := rfl
@[simp] theorem setChan_holdBy (s : State) (a : Nat) (x : Chan) : (s.setChan a x).holdBy = s.holdBy := rfl
@[simp] theorem setChan_pending (s : State) (a : Nat) (x : Chan) : (s.setChan a x).pending = s.pending := rfl
@[simp] theorem setChan_get (s : State) (a : Nat) (x : Chan) (g0 : Fld) : (s.setChan a x).get g0 = s.get g0 := rfl
@[simp] theorem setChan_flag (s : State) (a : Nat) (x : Chan) (g0 : Fld) : (s.setChan a x).flag g0 = s.flag g0 := rfl
@[simp] theorem setChan_byte (s : State) (a : Nat) (x : Chan) (a0 : Nat) : (s.setChan a x).byte a0 = s.byte a0 := rfl

/-! setJnl. -/

@[simp] theorem setJnl_flds (s : State) (x : Jnl) : (s.setJnl x).flds = s.flds := rfl
@[simp] theorem setJnl_mem (s : State) (x : Jnl) : (s.setJnl x).mem = s.mem := rfl
@[simp] theorem setJnl_now (s : State) (x : Jnl) : (s.setJnl x).now = s.now := rfl
@[simp] theorem setJnl_bus (s : State) (x : Jnl) : (s.setJnl x).bus = s.bus := rfl
@[simp] theorem setJnl_outs (s : State) (x : Jnl) : (s.setJnl x).outs = s.outs := rfl
@[simp] theorem setJnl_free (s : State) (x : Jnl) : (s.setJnl x).free = s.free := rfl
@[simp] theorem setJnl_dev (s : State) (x : Jnl) : (s.setJnl x).dev = s.dev := rfl
@[simp] theorem setJnl_crs (s : State) (x : Jnl) : (s.setJnl x).crs = s.crs := rfl
@[simp] theorem setJnl_axes (s : State) (x : Jnl) : (s.setJnl x).axes = s.axes := rfl
@[simp] theorem setJnl_grps (s : State) (x : Jnl) : (s.setJnl x).grps = s.grps := rfl
@[simp] theorem setJnl_pfSampled (s : State) (x : Jnl) : (s.setJnl x).pfSampled = s.pfSampled := rfl
@[simp] theorem setJnl_pfAns (s : State) (x : Jnl) : (s.setJnl x).pfAns = s.pfAns := rfl
@[simp] theorem setJnl_loops (s : State) (x : Jnl) : (s.setJnl x).loops = s.loops := rfl
@[simp] theorem setJnl_upd (s : State) (x : Jnl) : (s.setJnl x).upd = s.upd := rfl
@[simp] theorem setJnl_engs (s : State) (x : Jnl) : (s.setJnl x).engs = s.engs := rfl
@[simp] theorem setJnl_chans (s : State) (x : Jnl) : (s.setJnl x).chans = s.chans := rfl
@[simp] theorem setJnl_bond (s : State) (x : Jnl) : (s.setJnl x).bond = s.bond := rfl
@[simp] theorem setJnl_rings (s : State) (x : Jnl) : (s.setJnl x).rings = s.rings := rfl
@[simp] theorem setJnl_pim (s : State) (x : Jnl) : (s.setJnl x).pim = s.pim := rfl
@[simp] theorem setJnl_cap (s : State) (x : Jnl) : (s.setJnl x).cap = s.cap := rfl
@[simp] theorem setJnl_isl (s : State) (x : Jnl) : (s.setJnl x).isl = s.isl := rfl
@[simp] theorem setJnl_hst (s : State) (x : Jnl) : (s.setJnl x).hst = s.hst := rfl
@[simp] theorem setJnl_tim (s : State) (x : Jnl) : (s.setJnl x).tim = s.tim := rfl
@[simp] theorem setJnl_cas (s : State) (x : Jnl) : (s.setJnl x).cas = s.cas := rfl
@[simp] theorem setJnl_chain (s : State) (x : Jnl) : (s.setJnl x).chain = s.chain := rfl
@[simp] theorem setJnl_jtag (s : State) (x : Jnl) : (s.setJnl x).jtag = s.jtag := rfl
@[simp] theorem setJnl_rstLow (s : State) (x : Jnl) : (s.setJnl x).rstLow = s.rstLow := rfl
@[simp] theorem setJnl_pwr (s : State) (x : Jnl) : (s.setJnl x).pwr = s.pwr := rfl
@[simp] theorem setJnl_tst (s : State) (x : Jnl) : (s.setJnl x).tst = s.tst := rfl
@[simp] theorem setJnl_boot (s : State) (x : Jnl) : (s.setJnl x).boot = s.boot := rfl
@[simp] theorem setJnl_cores (s : State) (x : Jnl) : (s.setJnl x).cores = s.cores := rfl
@[simp] theorem setJnl_sch (s : State) (x : Jnl) : (s.setJnl x).sch = s.sch := rfl
@[simp] theorem setJnl_dma (s : State) (x : Jnl) : (s.setJnl x).dma = s.dma := rfl
@[simp] theorem setJnl_dmaTurn (s : State) (x : Jnl) : (s.setJnl x).dmaTurn = s.dmaTurn := rfl
@[simp] theorem setJnl_gpio (s : State) (x : Jnl) : (s.setJnl x).gpio = s.gpio := rfl
@[simp] theorem setJnl_holdBy (s : State) (x : Jnl) : (s.setJnl x).holdBy = s.holdBy := rfl
@[simp] theorem setJnl_pending (s : State) (x : Jnl) : (s.setJnl x).pending = s.pending := rfl
@[simp] theorem setJnl_get (s : State) (x : Jnl) (g0 : Fld) : (s.setJnl x).get g0 = s.get g0 := rfl
@[simp] theorem setJnl_flag (s : State) (x : Jnl) (g0 : Fld) : (s.setJnl x).flag g0 = s.flag g0 := rfl
@[simp] theorem setJnl_byte (s : State) (x : Jnl) (a0 : Nat) : (s.setJnl x).byte a0 = s.byte a0 := rfl

/-! updMtr. -/

@[simp] theorem updMtr_flds (s : State) (g : Mtr → Mtr) : (s.updMtr g).flds = s.flds := rfl
@[simp] theorem updMtr_mem (s : State) (g : Mtr → Mtr) : (s.updMtr g).mem = s.mem := rfl
@[simp] theorem updMtr_now (s : State) (g : Mtr → Mtr) : (s.updMtr g).now = s.now := rfl
@[simp] theorem updMtr_bus (s : State) (g : Mtr → Mtr) : (s.updMtr g).bus = s.bus := rfl
@[simp] theorem updMtr_outs (s : State) (g : Mtr → Mtr) : (s.updMtr g).outs = s.outs := rfl
@[simp] theorem updMtr_free (s : State) (g : Mtr → Mtr) : (s.updMtr g).free = s.free := rfl
@[simp] theorem updMtr_dev (s : State) (g : Mtr → Mtr) : (s.updMtr g).dev = s.dev := rfl
@[simp] theorem updMtr_crs (s : State) (g : Mtr → Mtr) : (s.updMtr g).crs = s.crs := rfl
@[simp] theorem updMtr_axes (s : State) (g : Mtr → Mtr) : (s.updMtr g).axes = s.axes := rfl
@[simp] theorem updMtr_grps (s : State) (g : Mtr → Mtr) : (s.updMtr g).grps = s.grps := rfl
@[simp] theorem updMtr_pfSampled (s : State) (g : Mtr → Mtr) : (s.updMtr g).pfSampled = s.pfSampled := rfl
@[simp] theorem updMtr_pfAns (s : State) (g : Mtr → Mtr) : (s.updMtr g).pfAns = s.pfAns := rfl
@[simp] theorem updMtr_loops (s : State) (g : Mtr → Mtr) : (s.updMtr g).loops = s.loops := rfl
@[simp] theorem updMtr_upd (s : State) (g : Mtr → Mtr) : (s.updMtr g).upd = s.upd := rfl
@[simp] theorem updMtr_engs (s : State) (g : Mtr → Mtr) : (s.updMtr g).engs = s.engs := rfl
@[simp] theorem updMtr_chans (s : State) (g : Mtr → Mtr) : (s.updMtr g).chans = s.chans := rfl
@[simp] theorem updMtr_bond (s : State) (g : Mtr → Mtr) : (s.updMtr g).bond = s.bond := rfl
@[simp] theorem updMtr_rings (s : State) (g : Mtr → Mtr) : (s.updMtr g).rings = s.rings := rfl
@[simp] theorem updMtr_pim (s : State) (g : Mtr → Mtr) : (s.updMtr g).pim = s.pim := rfl
@[simp] theorem updMtr_cap (s : State) (g : Mtr → Mtr) : (s.updMtr g).cap = s.cap := rfl
@[simp] theorem updMtr_isl (s : State) (g : Mtr → Mtr) : (s.updMtr g).isl = s.isl := rfl
@[simp] theorem updMtr_hst (s : State) (g : Mtr → Mtr) : (s.updMtr g).hst = s.hst := rfl
@[simp] theorem updMtr_tim (s : State) (g : Mtr → Mtr) : (s.updMtr g).tim = s.tim := rfl
@[simp] theorem updMtr_cas (s : State) (g : Mtr → Mtr) : (s.updMtr g).cas = s.cas := rfl
@[simp] theorem updMtr_chain (s : State) (g : Mtr → Mtr) : (s.updMtr g).chain = s.chain := rfl
@[simp] theorem updMtr_jtag (s : State) (g : Mtr → Mtr) : (s.updMtr g).jtag = s.jtag := rfl
@[simp] theorem updMtr_rstLow (s : State) (g : Mtr → Mtr) : (s.updMtr g).rstLow = s.rstLow := rfl
@[simp] theorem updMtr_pwr (s : State) (g : Mtr → Mtr) : (s.updMtr g).pwr = s.pwr := rfl
@[simp] theorem updMtr_tst (s : State) (g : Mtr → Mtr) : (s.updMtr g).tst = s.tst := rfl
@[simp] theorem updMtr_boot (s : State) (g : Mtr → Mtr) : (s.updMtr g).boot = s.boot := rfl
@[simp] theorem updMtr_cores (s : State) (g : Mtr → Mtr) : (s.updMtr g).cores = s.cores := rfl
@[simp] theorem updMtr_sch (s : State) (g : Mtr → Mtr) : (s.updMtr g).sch = s.sch := rfl
@[simp] theorem updMtr_dma (s : State) (g : Mtr → Mtr) : (s.updMtr g).dma = s.dma := rfl
@[simp] theorem updMtr_dmaTurn (s : State) (g : Mtr → Mtr) : (s.updMtr g).dmaTurn = s.dmaTurn := rfl
@[simp] theorem updMtr_gpio (s : State) (g : Mtr → Mtr) : (s.updMtr g).gpio = s.gpio := rfl
@[simp] theorem updMtr_holdBy (s : State) (g : Mtr → Mtr) : (s.updMtr g).holdBy = s.holdBy := rfl
@[simp] theorem updMtr_pending (s : State) (g : Mtr → Mtr) : (s.updMtr g).pending = s.pending := rfl
@[simp] theorem updMtr_get (s : State) (g : Mtr → Mtr) (g0 : Fld) : (s.updMtr g).get g0 = s.get g0 := rfl
@[simp] theorem updMtr_flag (s : State) (g : Mtr → Mtr) (g0 : Fld) : (s.updMtr g).flag g0 = s.flag g0 := rfl
@[simp] theorem updMtr_byte (s : State) (g : Mtr → Mtr) (a0 : Nat) : (s.updMtr g).byte a0 = s.byte a0 := rfl

/-! updCas. -/

@[simp] theorem updCas_flds (s : State) (g : Cas → Cas) : (s.updCas g).flds = s.flds := rfl
@[simp] theorem updCas_mem (s : State) (g : Cas → Cas) : (s.updCas g).mem = s.mem := rfl
@[simp] theorem updCas_now (s : State) (g : Cas → Cas) : (s.updCas g).now = s.now := rfl
@[simp] theorem updCas_bus (s : State) (g : Cas → Cas) : (s.updCas g).bus = s.bus := rfl
@[simp] theorem updCas_outs (s : State) (g : Cas → Cas) : (s.updCas g).outs = s.outs := rfl
@[simp] theorem updCas_free (s : State) (g : Cas → Cas) : (s.updCas g).free = s.free := rfl
@[simp] theorem updCas_dev (s : State) (g : Cas → Cas) : (s.updCas g).dev = s.dev := rfl
@[simp] theorem updCas_crs (s : State) (g : Cas → Cas) : (s.updCas g).crs = s.crs := rfl
@[simp] theorem updCas_axes (s : State) (g : Cas → Cas) : (s.updCas g).axes = s.axes := rfl
@[simp] theorem updCas_grps (s : State) (g : Cas → Cas) : (s.updCas g).grps = s.grps := rfl
@[simp] theorem updCas_pfSampled (s : State) (g : Cas → Cas) : (s.updCas g).pfSampled = s.pfSampled := rfl
@[simp] theorem updCas_pfAns (s : State) (g : Cas → Cas) : (s.updCas g).pfAns = s.pfAns := rfl
@[simp] theorem updCas_loops (s : State) (g : Cas → Cas) : (s.updCas g).loops = s.loops := rfl
@[simp] theorem updCas_upd (s : State) (g : Cas → Cas) : (s.updCas g).upd = s.upd := rfl
@[simp] theorem updCas_engs (s : State) (g : Cas → Cas) : (s.updCas g).engs = s.engs := rfl
@[simp] theorem updCas_chans (s : State) (g : Cas → Cas) : (s.updCas g).chans = s.chans := rfl
@[simp] theorem updCas_bond (s : State) (g : Cas → Cas) : (s.updCas g).bond = s.bond := rfl
@[simp] theorem updCas_rings (s : State) (g : Cas → Cas) : (s.updCas g).rings = s.rings := rfl
@[simp] theorem updCas_pim (s : State) (g : Cas → Cas) : (s.updCas g).pim = s.pim := rfl
@[simp] theorem updCas_cap (s : State) (g : Cas → Cas) : (s.updCas g).cap = s.cap := rfl
@[simp] theorem updCas_isl (s : State) (g : Cas → Cas) : (s.updCas g).isl = s.isl := rfl
@[simp] theorem updCas_mtr (s : State) (g : Cas → Cas) : (s.updCas g).mtr = s.mtr := rfl
@[simp] theorem updCas_hst (s : State) (g : Cas → Cas) : (s.updCas g).hst = s.hst := rfl
@[simp] theorem updCas_tim (s : State) (g : Cas → Cas) : (s.updCas g).tim = s.tim := rfl
@[simp] theorem updCas_chain (s : State) (g : Cas → Cas) : (s.updCas g).chain = s.chain := rfl
@[simp] theorem updCas_jtag (s : State) (g : Cas → Cas) : (s.updCas g).jtag = s.jtag := rfl
@[simp] theorem updCas_rstLow (s : State) (g : Cas → Cas) : (s.updCas g).rstLow = s.rstLow := rfl
@[simp] theorem updCas_pwr (s : State) (g : Cas → Cas) : (s.updCas g).pwr = s.pwr := rfl
@[simp] theorem updCas_tst (s : State) (g : Cas → Cas) : (s.updCas g).tst = s.tst := rfl
@[simp] theorem updCas_boot (s : State) (g : Cas → Cas) : (s.updCas g).boot = s.boot := rfl
@[simp] theorem updCas_cores (s : State) (g : Cas → Cas) : (s.updCas g).cores = s.cores := rfl
@[simp] theorem updCas_sch (s : State) (g : Cas → Cas) : (s.updCas g).sch = s.sch := rfl
@[simp] theorem updCas_dma (s : State) (g : Cas → Cas) : (s.updCas g).dma = s.dma := rfl
@[simp] theorem updCas_dmaTurn (s : State) (g : Cas → Cas) : (s.updCas g).dmaTurn = s.dmaTurn := rfl
@[simp] theorem updCas_gpio (s : State) (g : Cas → Cas) : (s.updCas g).gpio = s.gpio := rfl
@[simp] theorem updCas_holdBy (s : State) (g : Cas → Cas) : (s.updCas g).holdBy = s.holdBy := rfl
@[simp] theorem updCas_pending (s : State) (g : Cas → Cas) : (s.updCas g).pending = s.pending := rfl
@[simp] theorem updCas_get (s : State) (g : Cas → Cas) (g0 : Fld) : (s.updCas g).get g0 = s.get g0 := rfl
@[simp] theorem updCas_flag (s : State) (g : Cas → Cas) (g0 : Fld) : (s.updCas g).flag g0 = s.flag g0 := rfl
@[simp] theorem updCas_byte (s : State) (g : Cas → Cas) (a0 : Nat) : (s.updCas g).byte a0 = s.byte a0 := rfl

/-! updTim. -/

@[simp] theorem updTim_flds (s : State) (g : Tim → Tim) : (s.updTim g).flds = s.flds := rfl
@[simp] theorem updTim_mem (s : State) (g : Tim → Tim) : (s.updTim g).mem = s.mem := rfl
@[simp] theorem updTim_now (s : State) (g : Tim → Tim) : (s.updTim g).now = s.now := rfl
@[simp] theorem updTim_bus (s : State) (g : Tim → Tim) : (s.updTim g).bus = s.bus := rfl
@[simp] theorem updTim_outs (s : State) (g : Tim → Tim) : (s.updTim g).outs = s.outs := rfl
@[simp] theorem updTim_free (s : State) (g : Tim → Tim) : (s.updTim g).free = s.free := rfl
@[simp] theorem updTim_dev (s : State) (g : Tim → Tim) : (s.updTim g).dev = s.dev := rfl
@[simp] theorem updTim_crs (s : State) (g : Tim → Tim) : (s.updTim g).crs = s.crs := rfl
@[simp] theorem updTim_axes (s : State) (g : Tim → Tim) : (s.updTim g).axes = s.axes := rfl
@[simp] theorem updTim_grps (s : State) (g : Tim → Tim) : (s.updTim g).grps = s.grps := rfl
@[simp] theorem updTim_pfSampled (s : State) (g : Tim → Tim) : (s.updTim g).pfSampled = s.pfSampled := rfl
@[simp] theorem updTim_pfAns (s : State) (g : Tim → Tim) : (s.updTim g).pfAns = s.pfAns := rfl
@[simp] theorem updTim_loops (s : State) (g : Tim → Tim) : (s.updTim g).loops = s.loops := rfl
@[simp] theorem updTim_upd (s : State) (g : Tim → Tim) : (s.updTim g).upd = s.upd := rfl
@[simp] theorem updTim_engs (s : State) (g : Tim → Tim) : (s.updTim g).engs = s.engs := rfl
@[simp] theorem updTim_chans (s : State) (g : Tim → Tim) : (s.updTim g).chans = s.chans := rfl
@[simp] theorem updTim_bond (s : State) (g : Tim → Tim) : (s.updTim g).bond = s.bond := rfl
@[simp] theorem updTim_rings (s : State) (g : Tim → Tim) : (s.updTim g).rings = s.rings := rfl
@[simp] theorem updTim_pim (s : State) (g : Tim → Tim) : (s.updTim g).pim = s.pim := rfl
@[simp] theorem updTim_cap (s : State) (g : Tim → Tim) : (s.updTim g).cap = s.cap := rfl
@[simp] theorem updTim_isl (s : State) (g : Tim → Tim) : (s.updTim g).isl = s.isl := rfl
@[simp] theorem updTim_mtr (s : State) (g : Tim → Tim) : (s.updTim g).mtr = s.mtr := rfl
@[simp] theorem updTim_hst (s : State) (g : Tim → Tim) : (s.updTim g).hst = s.hst := rfl
@[simp] theorem updTim_cas (s : State) (g : Tim → Tim) : (s.updTim g).cas = s.cas := rfl
@[simp] theorem updTim_chain (s : State) (g : Tim → Tim) : (s.updTim g).chain = s.chain := rfl
@[simp] theorem updTim_jtag (s : State) (g : Tim → Tim) : (s.updTim g).jtag = s.jtag := rfl
@[simp] theorem updTim_rstLow (s : State) (g : Tim → Tim) : (s.updTim g).rstLow = s.rstLow := rfl
@[simp] theorem updTim_pwr (s : State) (g : Tim → Tim) : (s.updTim g).pwr = s.pwr := rfl
@[simp] theorem updTim_tst (s : State) (g : Tim → Tim) : (s.updTim g).tst = s.tst := rfl
@[simp] theorem updTim_boot (s : State) (g : Tim → Tim) : (s.updTim g).boot = s.boot := rfl
@[simp] theorem updTim_cores (s : State) (g : Tim → Tim) : (s.updTim g).cores = s.cores := rfl
@[simp] theorem updTim_sch (s : State) (g : Tim → Tim) : (s.updTim g).sch = s.sch := rfl
@[simp] theorem updTim_dma (s : State) (g : Tim → Tim) : (s.updTim g).dma = s.dma := rfl
@[simp] theorem updTim_dmaTurn (s : State) (g : Tim → Tim) : (s.updTim g).dmaTurn = s.dmaTurn := rfl
@[simp] theorem updTim_gpio (s : State) (g : Tim → Tim) : (s.updTim g).gpio = s.gpio := rfl
@[simp] theorem updTim_holdBy (s : State) (g : Tim → Tim) : (s.updTim g).holdBy = s.holdBy := rfl
@[simp] theorem updTim_pending (s : State) (g : Tim → Tim) : (s.updTim g).pending = s.pending := rfl
@[simp] theorem updTim_get (s : State) (g : Tim → Tim) (g0 : Fld) : (s.updTim g).get g0 = s.get g0 := rfl
@[simp] theorem updTim_flag (s : State) (g : Tim → Tim) (g0 : Fld) : (s.updTim g).flag g0 = s.flag g0 := rfl
@[simp] theorem updTim_byte (s : State) (g : Tim → Tim) (a0 : Nat) : (s.updTim g).byte a0 = s.byte a0 := rfl

/-! What the updates themselves write. -/

@[simp] theorem poke_mem (s : State) (w : List (Nat × BitVec 8)) : (s.poke w).mem = Memory.putAll s.mem w := rfl
@[simp] theorem emit_outs (s : State) (x : Out) : (s.emit x).outs = s.outs ++ [x] := rfl
@[simp] theorem quiet_outs (s : State) : s.quiet.outs = [] := rfl
@[simp] theorem resetPin_rstLow (s : State) (b : Bool) : (s.resetPin b).rstLow = b := rfl
@[simp] theorem resetPin_jtag (s : State) (b : Bool) : (s.resetPin b).jtag = s.jtag.pin b := rfl
@[simp] theorem updMtr_mtr (s : State) (g : Mtr → Mtr) : (s.updMtr g).mtr = g s.mtr := rfl
@[simp] theorem updCas_cas (s : State) (g : Cas → Cas) : (s.updCas g).cas = g s.cas := rfl
@[simp] theorem updTim_tim (s : State) (g : Tim → Tim) : (s.updTim g).tim = g s.tim := rfl

/-- A record written is the record read, and the others stand. -/
@[simp] theorem eng_setEng (s : State) (n : Nat) (e : Eng) : (s.setEng n e).eng n = e := get_put_same _ _ _ _
theorem eng_setEng_other (s : State) {n m : Nat} (e : Eng) (h : m ≠ n) : (s.setEng n e).eng m = s.eng m := get_put_other _ _ _ _ h
@[simp] theorem core_setCore (s : State) (n : Nat) (c : Core) : (s.setCore n c).core n = c := get_put_same _ _ _ _
theorem core_setCore_other (s : State) {n m : Nat} (c : Core) (h : m ≠ n) : (s.setCore n c).core m = s.core m := get_put_other _ _ _ _ h
@[simp] theorem ax_setAx (s : State) (a : Nat) (x : Ax) : (s.setAx a x).ax a = x := get_put_same _ _ _ _
theorem ax_setAx_other (s : State) {a b : Nat} (x : Ax) (h : b ≠ a) : (s.setAx a x).ax b = s.ax b := get_put_other _ _ _ _ h
@[simp] theorem chan_setChan (s : State) (n : Nat) (c : Chan) : (s.setChan n c).chan n = c := get_put_same _ _ _ _
@[simp] theorem ring_setRing (s : State) (k : Nat) (r : Ring) : (s.setRing k r).ring k = r := get_put_same _ _ _ _
@[simp] theorem dch_setDch (s : State) (n : Nat) (c : DCh) : (s.setDch n c).dch n = c := get_put_same _ _ _ _
@[simp] theorem thr_setThr (s : State) (t : Nat) (x : Thr) : (s.setThr t x).thr t = x := get_put_same _ _ _ _
theorem thr_setThr_other (s : State) {t u : Nat} (x : Thr) (h : u ≠ t) : (s.setThr t x).thr u = s.thr u := get_put_other _ _ _ _ h

/-- A field written reads the value, cut to its width. -/
@[simp] theorem get_set_same (s : State) (f : Fld) (v : Nat) : (s.set f v).get f = v % 2 ^ f.w := get_put_same _ _ _ _

/-- A field at another place keeps its value. -/
theorem get_set_other (s : State) {f g : Fld} (v : Nat) (h : g.key ≠ f.key) : (s.set f v).get g = s.get g := get_put_other _ _ _ _ h

@[simp] theorem get_setFlag_same (s : State) (f : Fld) (b : Bool) : (s.setFlag f b).get f = b2n b % 2 ^ f.w := get_set_same _ _ _
theorem get_setFlag_other (s : State) {f g : Fld} (b : Bool) (h : g.key ≠ f.key) : (s.setFlag f b).get g = s.get g := get_set_other _ _ h
@[simp] theorem get_orFld_same (s : State) (f : Fld) (m : Nat) : (s.orFld f m).get f = (s.get f ||| m) % 2 ^ f.w := get_set_same _ _ _
theorem get_orFld_other (s : State) {f g : Fld} (m : Nat) (h : g.key ≠ f.key) : (s.orFld f m).get g = s.get g := get_set_other _ _ h

/-- A counter counts one event and saturates. -/
theorem get_count_same (s : State) (f : Fld) : (s.count f).get f = min (s.get f + 1) (2 ^ f.w - 1) := by
  unfold State.count
  split
  · rename_i h
    rw [get_set_same, Nat.mod_eq_of_lt h]
    omega
  · have : 2 ^ f.w - 1 < 2 ^ f.w := Nat.sub_lt (Nat.two_pow_pos _) (by decide)
    rw [get_set_same, Nat.mod_eq_of_lt this]
    omega

theorem get_count_other (s : State) {f g : Fld} (h : g.key ≠ f.key) : (s.count f).get g = s.get g := by
  unfold State.count
  split <;> exact get_set_other _ _ h

/-! Memory (R20, R405). -/

/-- Every write of bytes keeps memory in its canonical form. -/
theorem poke_memWf (s : State) (w : List (Nat × BitVec 8)) (h : Memory.wf s.mem = true) : Memory.wf (s.poke w).mem = true := memWf_putAll w h

theorem store_memWf (s : State) (a v n : Nat) (h : Memory.wf s.mem = true) : Memory.wf (s.store a v n).mem = true := poke_memWf _ _ h

/-- A byte that a list of writes does not name reads as before. -/
theorem poke_byte_other (s : State) (w : List (Nat × BitVec 8)) (a : Nat) (h : ∀ p ∈ w, p.1 ≠ a) : (s.poke w).byte a = s.byte a :=
  mem_get_putAll_other _ _ _ h

/-- The bytes of a value lie in its range. -/
theorem cells_range {a v n : Nat} {p : Nat × BitVec 8} (h : p ∈ cells a v n) : a ≤ p.1 ∧ p.1 < a + n := by
  induction n generalizing a v with
  | zero => simp [cells] at h
  | succ n ih =>
    simp only [cells, List.mem_cons] at h
    rcases h with rfl | h
    · exact ⟨Nat.le_refl _, by simp⟩
    · have := ih h
      omega

/-- A store leaves every byte outside its range. -/
theorem store_byte_other (s : State) (a v n b : Nat) (h : b < a ∨ a + n ≤ b) : (s.store a v n).byte b = s.byte b :=
  poke_byte_other _ _ _ (fun p hp => by have := cells_range hp; omega)

theorem reset_memWf : Memory.wf State.reset.mem = true := rfl

end Sys2Proof.Laws
end

