-- ==== Sys2Proof/Laws/Engine.lean ====
section
/-! SUPPORT. What issuing a loop-engine instruction does, once for every instruction. -/
namespace Sys2Proof.Laws
open Machine

/-- Healing nothing changes nothing. -/
@[simp] theorem heal_nil (t : Tst) : t.heal [] = t := by
  obtain ⟨a, b, c, d, e⟩ := t
  simp [Tst.heal]

@[simp] theorem poke_nil (s : State) : s.poke [] = s := by
  simp [State.poke, Memory.putAll]

/-- FLAGS, ERR and ERR_ADDR stand at places of their own. -/
theorem flags_key (n m : Fin 12) : (R.LE_ENG_FLAGS_FLAGS n).key = (R.LE_ENG_FLAGS_FLAGS m).key ↔ n = m := by
  constructor
  · intro h
    simp [Fld.key, R.LE_ENG_FLAGS_FLAGS] at h
    omega
  · rintro rfl; rfl

/-- An instruction that answers `ok`. -/
theorem leIssue_ok {s : State} {n : Fin 12} {f : Eng → LeOut} {e : Eng} {r c : Nat} {w : List (Nat × BitVec 8)} {i : Instr}
    (h : LeRuns s n) (hf : f (s.eng n) = .ok e r w c) :
    leIssue n i f s = ((s.setEng n (leNext i e r c)).poke w).orFld (R.LE_ENG_FLAGS_FLAGS n) r := by
  obtain ⟨h1, h2, h3, h4⟩ := h
  simp only [leIssue, h1, h2, h3, h4, hf, leNext]
  simp

/-- An instruction that jumps. -/
theorem leIssue_jump {s : State} {n : Fin 12} {f : Eng → LeOut} {e : Eng} {pc c : Nat} {i : Instr}
    (h : LeRuns s n) (hf : f (s.eng n) = .jump e pc c) :
    leIssue n i f s = s.setEng n { e.spend i c with pc := pc % 2 ^ 16 } := by
  obtain ⟨h1, h2, h3, h4⟩ := h
  simp only [leIssue, h1, h2, h3, h4, hf]
  simp

/-- An instruction that fails. -/
theorem leIssue_err {s : State} {n : Fin 12} {f : Eng → LeOut} {c : Nat} {a : Option Nat} {i : Instr}
    (h : LeRuns s n) (hf : f (s.eng n) = .err c a) : leIssue n i f s = s.leError n c a := by
  obtain ⟨h1, h2, h3, h4⟩ := h
  simp only [leIssue, h1, h2, h3, h4, hf]
  simp

/-- An engine that does not execute is left as it is. -/
theorem leIssue_idle {s : State} {n : Nat} {i : Instr} {f : Eng → LeOut} (h : (s.eng n).st ≠ .running ∨ (s.eng n).asleep = true) :
    leIssue n i f s = s := by
  simp only [leIssue, h, if_true]

/-- The meaning of an instruction that answers `ok`. -/
theorem leDo_ok {s : State} {n : Fin 12} {f : Eng → LeOut} {e : Eng} {r c : Nat} {w : List (Nat × BitVec 8)} {i : Instr}
    (hi : exec i s = leDo n i f s) (h : LeRuns s n) (hf : f (s.eng n) = .ok e r w c) : LeDone i s n e r c w := by
  refine ⟨_, hi, ?_⟩
  rw [leIssue_ok h hf]
  refine ⟨?_, ?_, rfl, ?_, ?_, ?_, rfl⟩
  · exact eng_setEng s n _
  · exact get_orFld_same _ _ _
  · intro a ha
    exact poke_byte_other _ _ _ ha
  · intro m hm
    exact eng_setEng_other s _ hm
  · intro g h1 _ _
    exact get_orFld_other _ _ h1

/-- The meaning of an instruction that jumps. -/
theorem leDo_jump {s : State} {n : Fin 12} {f : Eng → LeOut} {e : Eng} {pc c : Nat} {i : Instr}
    (hi : exec i s = leDo n i f s) (h : LeRuns s n) (hf : f (s.eng n) = .jump e pc c) : LeJumps i s n e pc c := by
  refine ⟨_, hi, ?_⟩
  rw [leIssue_jump h hf]
  refine ⟨?_, rfl, ?_, ?_, rfl⟩
  · exact eng_setEng s n _
  · intro m hm
    exact eng_setEng_other s _ hm
  · intro g _ _ _
    rfl

/-- A bit that is ORed in reads set. -/
theorem bit_or_pow (x n : Nat) : bit (x ||| 2 ^ n) n = true := by
  have h : (x ||| 2 ^ n).testBit n = true := by simp [Nat.testBit_or, Nat.testBit_two_pow_self]
  rw [Nat.testBit_eq_decide_div_mod_eq] at h
  simpa [bit] using h

/-- A bit below a width survives the cut to that width. -/
theorem bit_mod (x : Nat) {n w : Nat} (h : n < w) : bit (x % 2 ^ w) n = bit x n := by
  have e : ∀ y, bit y n = y.testBit n := by
    intro y
    rw [Nat.testBit_eq_decide_div_mod_eq]
    by_cases hy : y / 2 ^ n % 2 = 1 <;> simp [bit, hy]
  rw [e, e, Nat.testBit_mod_two_pow]
  simp [h]

/-- The meaning of an instruction that fails. -/
theorem leDo_err {s : State} {n : Fin 12} {f : Eng → LeOut} {c : Nat} {a : Option Nat} {i : Instr}
    (hi : exec i s = leDo n i f s) (h : LeRuns s n) (hf : f (s.eng n) = .err c a) : LeFails i s n c := by
  refine ⟨_, hi, ?_⟩
  rw [leIssue_err h hf]
  have hk : R.LE_ENG_ERR_ERR.key ≠ (R.LE_ENG_ERR_ADDR_ADDR n).key := by
    simp [Fld.key, R.LE_ENG_ERR_ERR, R.LE_ENG_ERR_ADDR_ADDR]
    omega
  have hb : ∀ x, bit ((x ||| 2 ^ n.val) % 2 ^ R.LE_ENG_ERR_ERR.w) n = true := by
    intro x
    rw [bit_mod _ (by simp [R.LE_ENG_ERR_ERR]), bit_or_pow]
  cases a with
  | none =>
    refine ⟨eng_setEng s n { s.eng n with st := .error, errCode := c, queue := [], asleep := false }, ?_, rfl,
      fun m hm => eng_setEng_other s { s.eng n with st := .error, errCode := c, queue := [], asleep := false } hm, fun g _ h2 _ => get_orFld_other _ _ h2, rfl⟩
    exact (congrArg (bit · n) (get_orFld_same _ _ _)).trans (hb _)
  | some a =>
    refine ⟨eng_setEng s n { s.eng n with st := .error, errCode := c, queue := [], asleep := false }, ?_, rfl,
      fun m hm => eng_setEng_other s { s.eng n with st := .error, errCode := c, queue := [], asleep := false } hm, fun g _ h2 h3 => ?_, rfl⟩
    · exact (congrArg (bit · n) ((get_set_other _ _ hk).trans (get_orFld_same _ _ _))).trans (hb _)
    · exact (get_set_other _ _ h3).trans (get_orFld_other _ _ h2)

end Sys2Proof.Laws
end

