-- ==== Sys2Proof/Laws/Ops.lean ====
section
/-! SUPPORT. What the shared operations can do: gated and reached registers, the bus, writes to memory, domains that are cleared; each keeps memory's canonical form. -/
namespace Sys2Proof.Laws
open Machine

/-! Registers behind a gate (R19, R393). -/

/-- A register that answers has its effect. -/
theorem atReg_reached {s : State} {a : Nat} (o : Host.Outcome State Fault Refusal) (h : s.reach a = true) : s.atReg a o = o := by
  simp [State.atReg, h]

/-- One behind a closed gate or in an unpowered domain only counts the access. -/
theorem atReg_gated {s : State} {a : Nat} (o : Host.Outcome State Fault Refusal) (h : s.reach a = false) :
    s.atReg a o = .next { s with flds := (s.gatedAcc a).flds, bus := .done, outs := [] } := by
  simp [State.atReg, h]

/-- A gated access counts one event. -/
theorem gatedAcc_count (s : State) (a : Nat) : (s.gatedAcc a).get R.GATED_ACC_CNT_COUNT = min (s.get R.GATED_ACC_CNT_COUNT + 1) (2 ^ R.GATED_ACC_CNT_COUNT.w - 1) := by
  rw [State.gatedAcc, get_set_other _ _ (by decide), get_count_same]

/-- It leaves the address. -/
theorem gatedAcc_addr (s : State) (a : Nat) : (s.gatedAcc a).get R.CLK_GATED_ADDR_ADDR = a % 2 ^ R.CLK_GATED_ADDR_ADDR.w := get_set_same _ _ _

/-- Every other field keeps its value. -/
theorem gatedAcc_other (s : State) (a : Nat) {g : Fld} (h : g.key ≠ R.GATED_ACC_CNT_COUNT.key) (h' : g.key ≠ R.CLK_GATED_ADDR_ADDR.key) :
    (s.gatedAcc a).get g = s.get g := by
  rw [State.gatedAcc, get_set_other _ _ h', get_count_other _ h]

/-- Nothing but register fields changes. -/
theorem gatedAcc_eq (s : State) (a : Nat) : s.gatedAcc a = { s with flds := (s.gatedAcc a).flds } := by
  unfold State.gatedAcc State.count
  split <;> rfl

/-! The bus (R12, R19, R22). -/

/-- An address outside the map is refused. -/
theorem busRead_unmapped {s : State} {q : Req} {a n : Nat} (h : region a = none) : s.busRead q a n = (s, .error) := by
  simp [State.busRead, h]

theorem busWrite_unmapped {s : State} {q : Req} {a n v : Nat} (h : region a = none) : s.busWrite q a n v = (s, .error) := by
  simp [State.busWrite, h]

/-- A register block behind a gate answers zero, and takes a write without effect. -/
theorem busRead_gated {s : State} {q : Req} {a n : Nat} (h : region a = some .regs) (hr : s.reach a = false) : s.busRead q a n = (s.gatedAcc a, .data 0) := by
  simp [State.busRead, h, hr]

theorem busWrite_gated {s : State} {q : Req} {a n v : Nat} (h : region a = some .regs) (hr : s.reach a = false) : s.busWrite q a n v = (s.gatedAcc a, .done) := by
  simp [State.busWrite, h, hr]

/-- A word access to a register. -/
theorem busRead_reg {s : State} {q : Req} {a : Nat} {fs : List Fld} (h : region a = some .regs) (hr : s.reach a = true) (ha : a % 4 = 0) (hf : fieldsAt a = some fs) :
    s.busRead q a 4 = ((s.regRead a fs).2, .data (s.regRead a fs).1) := by
  simp [State.busRead, h, hr, ha, hf]

theorem busWrite_reg {s : State} {q : Req} {a v : Nat} {fs : List Fld} (h : region a = some .regs) (hr : s.reach a = true) (ha : a % 4 = 0) (hf : fieldsAt a = some fs) :
    s.busWrite q a 4 v = (s.regWrite a fs (v % 2 ^ 32), .done) := by
  simp [State.busWrite, h, hr, ha, hf]

/-- A hole of a register block, or a narrower or unaligned access to it, is refused. -/
theorem busRead_hole {s : State} {q : Req} {a n : Nat} (h : region a = some .regs) (hr : s.reach a = true) (hh : n ≠ 4 ∨ a % 4 ≠ 0 ∨ fieldsAt a = none) :
    s.busRead q a n = (s, .error) := by
  rcases hh with hh | hh | hh <;> simp [State.busRead, h, hr, hh]

theorem busWrite_hole {s : State} {q : Req} {a n v : Nat} (h : region a = some .regs) (hr : s.reach a = true) (hh : n ≠ 4 ∨ a % 4 ≠ 0 ∨ fieldsAt a = none) :
    s.busWrite q a n v = (s, .error) := by
  rcases hh with hh | hh | hh <;> simp [State.busWrite, h, hr, hh]

/-- A naturally aligned access to powered application SRAM. -/
theorem busRead_sram {s : State} {q : Req} {a n : Nat} (h : region a = some .sram) (hd : s.domUp (memDom a) = true) (hn : sizeOk q a n = true) (hp : s.poisoned a n = false) :
    s.busRead q a n = (s, .data (s.load a n)) := by
  simp [State.busRead, State.rowRead, h, hd, hn, hp]

theorem busWrite_sram {s : State} {q : Req} {a n v : Nat} (h : region a = some .sram) (hd : s.domUp (memDom a) = true) (hn : sizeOk q a n = true) :
    s.busWrite q a n v = (s.memWrite q a n v, .done) := by
  simp [State.busWrite, State.rowWrite, h, hd, hn]

/-! Writes to memory (R20, R367). -/

/-- A fold whose steps change the cores alone changes the cores alone. -/
theorem foldl_cores {α : Type} (f : State → α → State) (h : ∀ u i, f u i = { u with cores := (f u i).cores }) (l : List α) (s : State) :
    l.foldl f s = { s with cores := (l.foldl f s).cores } := by
  induction l generalizing s with
  | nil => rfl
  | cons i r ih => rw [List.foldl_cons, ih, h s i]

/-- Ending reservations changes nothing but the cores. -/
theorem unreserve_eq (s : State) (w : List (Nat × BitVec 8)) (own : Option Nat) : s.unreserve w own = { s with cores := (s.unreserve w own).cores } := by
  refine foldl_cores _ (fun u i => ?_) _ _
  split
  · split <;> rfl
  · rfl

@[simp] theorem unreserve_mem (s : State) (w : List (Nat × BitVec 8)) (own : Option Nat) : (s.unreserve w own).mem = s.mem := by rw [unreserve_eq]
@[simp] theorem unreserve_byte (s : State) (w : List (Nat × BitVec 8)) (own : Option Nat) (a : Nat) : (s.unreserve w own).byte a = s.byte a := by simp [State.byte]

/-- The bytes that a write reaches lie in its range. -/
theorem writeCells_range {s : State} {a v n : Nat} {p : Nat × BitVec 8} (h : p ∈ s.writeCells a v n) : a ≤ p.1 ∧ p.1 < a + n := by
  induction n generalizing a v with
  | zero => simp [State.writeCells] at h
  | succ n ih =>
    simp only [State.writeCells] at h
    split at h
    · have := ih h
      omega
    · rw [List.mem_cons] at h
      rcases h with rfl | h
      · exact ⟨Nat.le_refl _, by simp⟩
      · have := ih h
        omega

/-- A write to memory leaves every byte outside its range, and memory's canonical form. -/
theorem memWrite_byte_other (s : State) (q : Req) (a n v b : Nat) (h : b < a ∨ a + n ≤ b) : (s.memWrite q a n v).byte b = s.byte b := by
  rw [State.memWrite, unreserve_byte]
  exact poke_byte_other _ _ _ (fun p hp => by have := writeCells_range hp; omega)

theorem memWrite_memWf (s : State) (q : Req) (a n v : Nat) (h : Memory.wf s.mem = true) : Memory.wf (s.memWrite q a n v).mem = true := by
  rw [State.memWrite, unreserve_mem]
  exact poke_memWf _ _ h

/-- A unit's write reaches application SRAM alone. -/
theorem sramWrite_byte_other (s : State) (w : List (Nat × BitVec 8)) (b : Nat) (h : (∀ p ∈ w, p.1 ≠ b) ∨ inSram b = false) : (s.sramWrite w).byte b = s.byte b := by
  rw [State.sramWrite, unreserve_byte]
  refine poke_byte_other _ _ _ (fun p hp e => ?_)
  rw [List.mem_filter] at hp
  rcases h with h | h
  · exact h p hp.1 e
  · rw [e, h] at hp
    exact absurd hp.2 (by decide)

theorem sramWrite_memWf (s : State) (w : List (Nat × BitVec 8)) (h : Memory.wf s.mem = true) : Memory.wf (s.sramWrite w).mem = true := by
  rw [State.sramWrite, unreserve_mem]
  exact poke_memWf _ _ h

/-- A domain's reset leaves memory as it stands (R114). -/
theorem domReset_mem (s : State) (d : Nat) : (s.domReset d).mem = s.mem := by
  unfold State.domReset
  split <;> rfl

/-- A domain without power loses its memories, and memory keeps its canonical form (R18, R396). -/
theorem domDown_memWf (s : State) (d : Nat) (h : Memory.wf s.mem = true) : Memory.wf (s.domDown d).mem = true := by
  show Memory.wf ((s.memGone d).domReset d).mem = true
  rw [domReset_mem]
  exact wf_filter memRst _ h

theorem foldl_domDown_memWf (l : List Nat) (s : State) (h : Memory.wf s.mem = true) : Memory.wf (l.foldl State.domDown s).mem = true := by
  induction l generalizing s with
  | nil => exact h
  | cons d r ih => exact ih _ (domDown_memWf s d h)

theorem nextSlot_mem (s : State) : s.nextSlot.mem = s.mem := by
  unfold State.nextSlot
  split <;> rfl

/-- The failure of a slot zeroes application SRAM, and keeps memory's canonical form (R422). -/
theorem slotFail_memWf (s : State) (b : Bool) (code sec : Nat) (h : Memory.wf s.mem = true) : Memory.wf (s.slotFail b code sec).mem = true := by
  unfold State.slotFail
  rw [nextSlot_mem]
  refine wf_filter memRst _ (foldl_domDown_memWf _ _ ?_)
  split <;> exact h

end Sys2Proof.Laws
end

