-- ==== Sys2Proof/Machine/Balls.lean ====
section
/-! DEFINITION. The ball array and what each ball carries (R432, R433). -/
namespace Sys2Proof.Machine

/-- The letters of the rows, row A first (R432). -/
def rowNames : List String :=
  ["A", "B", "C", "D", "E", "F", "G", "H", "J", "K", "L", "M", "N", "P", "T", "U", "V", "W", "Y"] ++
  ["AA", "AB", "AC", "AD", "AE", "AF", "AG", "AH", "AJ", "AK", "AL", "AM", "AN", "AP", "AT", "AU", "AV", "AW"]

/-- The ring of the ball at row index `r` and column index `c`, both 1 to 37. -/
def ballRing (r c : Nat) : Nat := min (min r c) (min (38 - r) (38 - c))

/-- The number of balls on a ring. -/
def ringSize (k : Nat) : Nat := if k = 19 then 1 else 4 * (38 - 2 * k)

/-- The place of a ball in its ring's sequence: along row k, down column 38 − k, back along row 38 − k, up column k. -/
def ballPlace (r c : Nat) : Nat :=
  let k := ballRing r c
  let n := 38 - 2 * k
  if r = k then c - k
  else if c = 38 - k then n + (r - k)
  else if r = 38 - k then 2 * n + (38 - k - c)
  else 3 * n + (38 - k - r)

/-- The balls of the rings from `a` up to, not including, `k`. -/
def ringsBefore (a k : Nat) : Nat := ((List.range k).filter (fun i => decide (a ≤ i))).foldl (fun n i => n + ringSize i) 0

/-- A wire of a SerDes lane. -/
inductive Wire where
  | txp | txn | rxp | rxn
  deriving DecidableEq, Repr

/-- What a ball carries. A stepper pin is 0 to 10 in the order A1, A2, B1, B2, SA, SB, LP, LN, HM, EA, EB; a lane 0 to 14 in the order of the rings east and west, mortar lanes, CAS_A, CAS_B, host; another signal its place in R433's list. -/
inductive Ball where
  | stp (n k : Nat)
  | si (i : Nat) | tp (i : Nat) | so (i : Nat) | sofb (i : Nat) | ko (i : Nat) | kf (i : Nat)
  | vso
  | lane (i : Nat) (w : Wire)
  | ringByp (k : Nat) | casByp | mdc | mdio | nvmClk | nvmCs | nvmIo (i : Nat) | bootCk | bootSi | bootSo | cascRoot | pairId
  | lsxIn | lsxOut | hsxIn | hsxOut | resetN | pairAct | peerAct | health | trigIn (i : Nat) | trigOut (i : Nat) | gpio (i : Nat) | tck | tms | tdi | tdo | trstN
  | swCore (i : Nat) | pgnd | vcoreFb | vcore | vsup | vss
  deriving DecidableEq, Repr

/-- The signals of positions 182 to 252 of rings 5 to 7. -/
def otherSignals : List Ball :=
  (List.range 4).map .ringByp ++ [.casByp, .mdc, .mdio, .nvmClk, .nvmCs] ++ (List.range 4).map .nvmIo ++
  [.bootCk, .bootSi, .bootSo, .cascRoot, .pairId, .lsxIn, .lsxOut, .hsxIn, .hsxOut, .resetN, .pairAct, .peerAct, .health] ++
  (List.range 4).map .trigIn ++ (List.range 4).map .trigOut ++ (List.range 32).map .gpio ++ [.tck, .tms, .tdi, .tdo, .trstN]

/-- Rings 5 to 7 by position. -/
def innerBall (p : Nat) : Ball :=
  if p < 32 then .si p
  else if p < 40 then .tp (p - 32)
  else if p < 56 then .so (p - 40)
  else if p < 72 then .sofb (p - 56)
  else if p < 76 then .ko (p - 72)
  else if p < 80 then .kf (p - 76)
  else if p < 92 then .vso
  else if p < 182 then
    match (p - 92) % 6 with
    | 0 => .lane ((p - 92) / 6) .txp
    | 1 => .lane ((p - 92) / 6) .txn
    | 3 => .lane ((p - 92) / 6) .rxp
    | 4 => .lane ((p - 92) / 6) .rxn
    | _ => .vss
  else otherSignals.getD (p - 182) .vss

/-- Ring 8 by position. -/
def powerBall (p : Nat) : Ball :=
  if p < 8 then .swCore 0 else if p < 16 then .pgnd else if p < 24 then .swCore 1 else if p < 32 then .pgnd else .vss

/-- The ball at row index `r` and column index `c` (R433). -/
def ball (r c : Nat) : Ball :=
  let k := ballRing r c
  if k ≤ 4 then (let p := ringsBefore 1 k + ballPlace r c; .stp (p / 11) (p % 11))
  else if k ≤ 7 then innerBall (ringsBefore 5 k + ballPlace r c)
  else if k = 8 then powerBall (ballPlace r c)
  else if r = 19 ∧ c = 19 then .vcoreFb
  else if (r + c) % 2 = 1 then .vss
  else if 15 ≤ r ∧ r ≤ 23 ∧ 15 ≤ c ∧ c ≤ 23 then .vcore else .vsup

end Sys2Proof.Machine
end

