-- ==== Sys2Proof/Machine/Pins.lean ====
section
/-! DEFINITION. The states of the pins (R430, R434). -/
namespace Sys2Proof.Machine

/-- The pins by the rows of R434's table, with the channel, output, ring or pin number where the device decides each one's level by itself. -/
inductive PinRow where
  | stepOut (n : Nat) | stepIn | safetyIn | tp (j : Nat) | so (j : Nat) | ko (j : Nat)
  | ringByp (k : Nat) | casByp | pairAct | sideIn | health | resetN | nvmSelect | nvmClock | nvmIo
  | bootCk | bootSo | mdioBus | trigOut | gpio (n : Nat) | tapIn | trstN | tdo | serdesTx (lane : Lnk) | mortarTx | hostTx | lsx | hsx
  deriving DecidableEq, Repr

/-- What a pin does: high impedance; an input, without a pull or with one; a level; a signal in its own time (a pattern, a bus, a running lane or crystal); electrical idle; powered down or stopped. -/
inductive PinSt where
  | hiZ | input | inputUp | inputDown | level (b : Bool) | active | idle | down
  deriving DecidableEq, Repr

/-- A control pin's level. -/
def Pin.st : Pin → PinSt
  | .z => .hiZ
  | .low => .level false
  | .high => .level true

/-- The NVM port runs: as master in BOOT, and later while an operation of NVM_CMD runs (R422, R434). -/
def State.nvmDrives (s : State) : Bool :=
  if s.dev == .boot then s.get R.CAS_BOOT_ROLE != 2 && !s.flag R.PWR_STAT_BOOT_ERR else (s.dev == .standby || s.inCourses) && s.flag R.NVM_STAT_BUSY

/-- The NVM port idles between operations (R434); STANDBY, for which the table's row gives none, takes RUN's (DEDUCED, log entry 60). -/
def State.nvmIdle (s : State) : Bool := (s.dev == .standby || s.inCourses) && !s.flag R.NVM_STAT_BUSY

/-- The state of a pin (R434) apart from what the TAP forces on it. -/
def State.pinSt (s : State) (r : PinRow) : PinSt :=
  let asleep := s.dev == .off || s.dev == .watch
  let input (x : PinSt) : PinSt := if asleep then .hiZ else x
  match r with
  | .stepOut n =>
    let ((a1, a2), (b1, b2)) := s.stpPins (n / 4)
    ([a1, a2, b1, b2].getD (n % 4) .z).st
  | .stepIn | .sideIn => input .input
  | .safetyIn | .trstN => input .inputDown
  | .tapIn => input .inputUp
  | .tp j => if s.tpDriven then .level (match s.isl.win with | some w => w.tp != j || w.ended.isSome | none => true) else .hiZ
  | .so j => if s.dev == .reset then .level false else if s.outsDriven then .level (bit s.soOn j) else .hiZ
  | .ko j => if s.dev == .reset then .level false else if s.outsDriven then .level (bit s.koOn j) else .hiZ
  | .ringByp k => .level (s.flag (R.RING_STAT_BYP k))
  | .casByp => .level (s.flag R.CAS_STAT_BYP)
  | .pairAct => .level s.mtr.pairAct
  | .health => match s.health with | .low => .level false | .high => .level true | .blink _ _ => .active
  | .resetN => if s.dev == .off then .hiZ else .inputUp
  | .nvmSelect => if s.nvmDrives then .active else if s.nvmIdle then .level true else .hiZ
  | .nvmClock => if s.nvmDrives then .active else if s.nvmIdle then .level false else .hiZ
  | .nvmIo => if s.nvmDrives then .active else .hiZ
  | .bootCk => if (s.dev == .boot || s.dev == .standby) && s.get R.CAS_BOOT_ROLE == 1 then .active else .hiZ
  | .bootSo => if s.dev == .boot || s.dev == .standby then .active else if s.inCourses then .level false else .hiZ
  | .mdioBus => if s.flag R.HST_STAT_ACTIVE && !asleep && s.dev != .reset then .active else .hiZ
  | .trigOut => if asleep then .hiZ else if s.inCourses then .active else .level false
  | .gpio n =>
    match s.gpioPin n with
    | some b => .level b
    | none =>
      if s.dev == .off then .hiZ
      else match s.get (R.SYS_PINFUNC_PULL n) with | 1 => .inputDown | 2 => .inputUp | _ => .input
  | .tdo => .hiZ
  | .serdesTx l =>
    if s.dev == .off then .hiZ
    else if s.dev == .watch then .down
    else if s.dev == .reset then .idle
    else
      let on := match l with | .ring k _ => s.ringEn k | .cas _ => s.casEn
      if !on then .down else if s.inCourses then .active else .idle
  -- the mortar link of a device with a peer, and the host port of a root, run in courses; no row of the table powers them down before WATCH
  | .mortarTx | .hostTx =>
    if s.dev == .off then .hiZ else if s.dev == .watch then .down else if s.inCourses then .active else .idle
  | .lsx => if s.dev == .off then .down else .active
  | .hsx => if asleep then .down else .active

end Sys2Proof.Machine
end

