-- ==== Sys2Proof/Tests/Slice0.lean ====
section
/-! SUPPORT. Tests on small states: what WellFormed refuses, words written out from the encoding tables, single steps, and for each statement states and operands that meet its hypotheses. -/
namespace Sys2Proof.Tests
open Machine

set_option Elab.async false

/-! States to test on. -/

/-- A state with some register fields set. -/
def put (s : State) (l : List (Fld × Nat)) : State := l.foldl (fun u p => u.set p.1 p.2) s

/-- Everything powered and clocked, in RUN, unpaired. -/
def live : State :=
  put { State.reset with dev := .run, pwr := { State.reset.pwr with rising := [], imgDoms := 0xFFE } } [(R.PWR_DOM_ON, 0xFFF), (R.CLK_GATE_EN, 0x3FFFF), (R.CLK_STAT_HSX_OK, 1), (R.BOND_CRS_PERIOD_PERIOD_NS, 1000000)]

/-- Engine 0 RUNNING at PC 0x100. -/
def leLive : State := live.setEng 0 { live.eng 0 with st := .running, pc := 0x100 }

/-! Well-formedness: an ill-formed term for each check. -/

/-- A copy without a header. -/
def shortCopy : Copy := ⟨0, [], .t, 0, false, 0⟩
/-- A good envelope, and one whose sequence number is out of range. -/
def env : MtrFrm := ⟨true, 0⟩
def badEnv : MtrFrm := ⟨true, 2 ^ 16⟩
/-- A journal entry, a weather report, a HELLO, a MARK, a cascade header. -/
def jent : JEnt := ⟨5, 3, 7, 0, 0, [1, 2], [], 0x100, 0, 0, false, none, none⟩
def wx : Weather := ⟨true, true, true, true, false, 0, 1, 50, 50, 60, 0, 0, 0, 0, 0, 0⟩
def helloB : Hello := ⟨0, 0, true, .holder, 3, 1, 1, 1⟩
def mrk : Mark := ⟨1000, 5, 0, 0, false, 0, 0, 0⟩
def cfrm : CFrm := ⟨true, 1, false, 0, 0xFF, false, false, 100⟩

theorem test_wf_refuses_copies : ([Instr.feedback, .reference, .ioIn, .safety, .join, .fill, .mgmtStatus, .tableAck, .mgmtNone, .mgmtServiceData, .mgmtRefusedOpcode, .brickForward, .headBrick, .ownBrickReturn].all
    (fun k => !(k shortCopy).wf)) = true := by decide
theorem test_wf_refuses_times : ([Instr.adcConversion 0 false 0 (2 ^ 64), .ltRequestSend (.cas false) (2 ^ 64), .ltRequest (.cas false) 0 (2 ^ 64), .ltResponse (.cas false) 0 0 (2 ^ 64), .trigInEdge 0 true (2 ^ 64),
    .trigOutPulseEnd 0 (2 ^ 64), .trig cfrm (2 ^ 64) 0 0].all (fun k => !k.wf)) = true := by decide
theorem test_wf_refuses_mortar_frames : ([Instr.renew badEnv 0 0 0, .renew env (2 ^ 16) 0 0, .journal badEnv 0 jent, .journal env 0 { jent with st := 5 }, .jack badEnv 0, .safetyFrame env 0 [2 ^ 32], .digest env 0 [], .copy badEnv ⟨0, 0, none, 0, 0, 0, 0, [], [], [], [], [], [], [], [], false⟩,
    .weather env { wx with testRes := 4 }, .bulk env ⟨[(256, jent)], [], [], true⟩, .hello env { helloB with epoch := 2 ^ 16 }, .handoverFrame env (2 ^ 64)].all (fun k => !k.wf)) = true := by decide
theorem test_wf_refuses_lengths : ([Instr.outputResyncPass [⟨262144, 0, none⟩] true, .command ⟨true, List.replicate 1473 0, 0, 0, 0, false⟩, .service ⟨true, List.replicate 1473 0, 0, 0, 0, false⟩, .icmpEchoRequest 0 (List.replicate 1473 0), .mark cfrm { mrk with sched := 4 },
    .setp cfrm (List.replicate 537 0), .msg cfrm (List.replicate 537 0), .plan cfrm [], .image 0 0 (List.replicate 4097 0) false true, .dmaBusError 0 .read 0 false (2 ^ 40) false, .dmaAbort 0 (2 ^ 40) false,
    .sectionLoad ⟨0, false, false, false⟩ ⟨[], [], []⟩ ⟨[], [], []⟩ ⟨false, 1, [], [], [.plan []], true⟩, .bootComplete [] true true true true [], .nvmOpComplete (List.replicate 257 0) true true].all (fun k => !k.wf)) = true := by decide +kernel
theorem test_wf_refuses_load_records : ([LoadItem.mem 0 [], .sched 0 0 ⟨0, 0, 0, 0, 0, 0, 0, List.replicate 1025 ⟨0, 0, 0, 0⟩⟩, .map 0 [2 ^ 32], .node 0 1 0 0, .ranges (List.replicate 4097 ⟨0, 0, 0, 0, 0, 0⟩), .seg 0 0 ⟨0, 513, 0⟩,
    .island ⟨List.replicate 33 ⟨none, 0⟩, [], 0, 0, 0, 0, 0, [], [], [], 0, true, true⟩, .island ⟨[], [], 0, 0, 0, 0, 0, [], [[0]], [], 0, true, true⟩, .system false false (2 ^ 32) 0, .plan []].all (fun x => !x.wf)) = true := by decide +kernel
theorem test_wf_accepts : ([Instr.goRun, .leNop 0, .renew env 1 2 3, .journal env 0 jent, .weather env wx, .hello env helloB, .mark cfrm mrk, .feedback ⟨0, List.replicate 16 0, .t, 0, false, 0⟩, .dmaStart 0].all (fun k => k.wf)) = true := by decide

/-! The loop engines. -/

theorem test_le_add_word (n : Fin 12) : leDecode n 0x04221800#32 = .leAdd n 1 2 3 := by revert n; decide
theorem test_le_lmac2_word (n : Fin 12) : leDecode n 0x8CC3B2A0#32 = .leLmac2 n 0 24 14 25 10 := by revert n; decide
theorem test_le_illegal_word (n : Fin 12) : leDecode n 0x78000000#32 = .illegalInstruction n 0x78000000#32 := by revert n; decide

/-- A state after a command. -/
def after (c : Instr) (s : State) : State := match exec c s with | .next t => t | _ => s

theorem test_le_add_wraps : ((after (.leAdd 0 1 2 3) (leLive.setEng 0 { leLive.eng 0 with v := (leLive.eng 0).v.set 2 0xFFFFFFFF |>.set 3 2 })).eng 0).vr 1 = 1 := by decide +kernel
theorem test_le_sub_same_register : ((after (.leSub 0 2 2 2) (leLive.setEng 0 { leLive.eng 0 with v := (leLive.eng 0).v.set 2 7 })).eng 0).vr 2 = 0 := by decide +kernel
theorem test_le_sra_keeps_sign : ((after (.leSra 0 1 2 3) (leLive.setEng 0 { leLive.eng 0 with v := (leLive.eng 0).v.set 2 0x80000000 |>.set 3 31 })).eng 0).vr 1 = 0xFFFFFFFF := by decide +kernel
theorem test_le_odd_pair_is_error : ((after (.leAdd64 0 1 2 4) leLive).eng 0).st = .error := by decide +kernel

/-- Meets hypotheses of LoopEngineIntegerInstructions, LoopEngineFloatInstructions, LoopEngineAccumulatorInstructions, LoopEngineMemoryInstructions, LoopEngineBranches and every other statement of a running engine. -/
theorem wit_le_runs : (leLive.eng 0).st = .running ∧ (leLive.eng 0).asleep = false ∧ leFetchOk (leLive.eng 0).pc = true ∧ (leLive.poisoned (leProg 0 + (leLive.eng 0).pc) 4 && decide ((leLive.eng 0).pc < 0x8000)) = false := by decide +kernel
/-- Meets hypotheses of LoopEngineIntegerInstructions, LoopEngineFloatInstructions, LoopEngineAccumulatorInstructions, LoopEngineMemoryInstructions, LoopEngineBranches and every other statement of a running engine. -/
theorem wit_le_runs_is_LeRuns : LeRuns leLive 0 := by unfold LeRuns; decide +kernel
/-- Meets hypotheses of LoopEngineIntegerInstructions. -/
theorem wit_integer_and_pair_registers : odd 4 = false ∧ odd 31 = true ∧ odd 30 = false := by decide
/-- Meets hypotheses of LoopEngineFloatRules. -/
theorem wit_float_rules : f32NaN 0x7FC00000 = true ∧ f32NaN 0x3F800000 = false ∧ f32Exp 1 = 0 ∧ f32Exp 0x3F800000 ≠ 0 ∧ f32Fin 0x3F800000 = true ∧ f32Exp 0 = 0 ∧ (leDiv 0x3F800000 0).2 = fDivz := by decide +kernel
/-- Engine 0 with every An pointing into its data memory. -/
def leMem : State := leLive.setEng 0 { leLive.eng 0 with a := List.replicate 8 0x2000 }
/-- Meets hypotheses of LoopEngineAccumulatorInstructions. -/
theorem wit_ldot : (leVec leMem 0 1 2 (leMem.eng 0) 0).isOk = true ∧ (match leVec leMem 0 1 2 (leMem.eng 0) 0 with | .ok (_, e1, f1) => (leVec leMem 0 2 2 e1 f1).isOk | .error _ => false) = true := by decide +kernel
/-- Meets hypotheses of LongAccumulatorReadout and LongAccumulatorImage. -/
theorem wit_accumulators : (Lacc.mk (2 ^ 175 - 1) .normal).n < 2 ^ 175 ∧ -(2 ^ 175 : Int) ≤ (Lacc.mk (-(2 ^ 175)) .satNeg).n ∧ 2 ^ 63 - 1 < rne (((2 : Int) ^ 175 - 1 : Int) / 2 ^ 96 : Rat) ∧ rne ((-(2 : Int) ^ 175 : Int) / 2 ^ 96 : Rat) < -(2 ^ 63) ∧ 3 < (4 * 2 ^ 176) / 2 ^ 176 % 2 ^ 8 := by decide +kernel

/-- Meets hypotheses of LoopEngineMemoryInstructions. -/
theorem wit_memory_use : (leMem.eng 0).use 3 0 0 = some (0x2000, 0x2000, 0) ∧ (leMem.eng 0).check false 4 4 0x2000 = none ∧ (leMem.eng 0).check true 4 4 0x2000 = none ∧ (leMem.eng 0).check false 8 8 0x2000 = none ∧
    (leMem.eng 0).check true 8 8 0x2000 = none ∧ leMem.poisoned (leData 0 + 0x2000) 8 = false ∧ (leMem.eng 0).use 3 1 0 = some (0x2001, 0x2000, 0) := by decide +kernel
/-- Meets hypotheses of LoopEngineMemoryInstructions. -/
theorem wit_memory_image : ((leMem.eng 0).image true 3 false 0).isOk = true ∧ (match (leMem.eng 0).image false 3 false 0 with | .ok (as, _, _) => as.all (fun a => !leMem.poisoned (leData 0 + a) 8) | .error _ => false) = true := by decide +kernel

/-- An engine with A0 unbound, A1 bound to a buffer of length 0, A2 bound and inside, A3 bound and outside its buffer. -/
def leBound : Eng := { leLive.eng 0 with a := [5, 0, 0x2008, 0x1000, 0, 0, 0, 0], b := [0, 0, 0x2000, 0, 0, 0, 0, 0], l := [0, 0, 0x20, 0, 0, 0, 0, 0], bind := [none, some 1, some 2, some 2, none, none, none, none] }
/-- Meets hypotheses of AddressRegisterUse. -/
theorem wit_address_register_use : at_ leBound.a 0 < 2 ^ 32 ∧ leBound.bind.getD 0 none = none ∧ leBound.bind.getD 1 none = some 1 ∧ at_ leBound.l 1 = 0 ∧ leBound.bind.getD 2 none = some 2 ∧ 0 < at_ leBound.l 2 ∧
    at_ leBound.b 2 + at_ leBound.l 2 ≤ 2 ^ 31 ∧ at_ leBound.b 2 ≤ at_ leBound.a 2 ∧ at_ leBound.a 2 < at_ leBound.b 2 + at_ leBound.l 2 ∧ at_ leBound.a 3 < at_ leBound.b 2 := by decide +kernel
/-- Meets hypotheses of LoopEngineAddressRegisters. -/
theorem wit_adda : ((leLive.setEng 0 { leBound with st := .running }).eng 0).use 2 0 8 = some (0x2008, 0x2010, 0) ∧ ((leLive.setEng 0 { leBound with st := .running }).eng 0).use 1 0 8 = none := by decide +kernel
/-- Meets hypotheses of LoopEngineVectorSearch. -/
theorem wit_vector_search : (leVec leMem 0 1 0 (leMem.eng 0) 0).isOk = true ∧ (leVec leMem 0 1 2 (leMem.eng 0) 0).isOk = true ∧ (match leVec leMem 0 1 2 (leMem.eng 0) 0 with | .ok (xs, _, _) => (vecBest f32Lt xs 0 none 0).1.isSome | .error _ => false) = true := by decide +kernel
/-- Engine 0 with one axis, A0 at its last words of data memory, A1 behind its mirror window, A2 at a buffer that a descriptor describes, V31 holding 2. -/
def leUse : State := leLive.setEng 0 { leLive.eng 0 with axes := [3], v := (leLive.eng 0).v.set 31 2, a := [0x1FFE0, 0x20080, 0x2008, 0, 0, 0, 0, 0], m := [4, 0, 4, 0, 0, 0, 0, 0], b := [0, 0, 0x2000, 0, 0, 0, 0, 0], l := [0, 0, 0x20, 0, 0, 0, 0, 0], bind := [none, none, some 2, none, none, none, none, none] }
/-- Meets hypotheses of LoopEngineMemoryInstructions. -/
theorem wit_memory_completes : (leUse.eng 0).usable 0 ∧ (leUse.eng 0).usable 1 ∧ (leUse.eng 0).usable 2 ∧ LeRuns leUse 0 := by
  have h0 : (leUse.eng 0).bind.getD 0 none = none := by decide +kernel
  have h1 : (leUse.eng 0).bind.getD 1 none = none := by decide +kernel
  have h2 : (leUse.eng 0).bind.getD 2 none = some 2 := by decide +kernel
  refine ⟨?_, ?_, ?_, by unfold LeRuns; decide +kernel⟩
  · intro k h; rw [h0] at h; cases h
  · intro k h; rw [h1] at h; cases h
  · intro k h; rw [h2] at h; cases h; decide +kernel
/-- Meets hypotheses of LoopEngineMemoryInstructions. -/
theorem wit_memory_may_read : (∀ o ∈ [(0 : Int), 8, 16], (leUse.eng 0).mayRead 8 ((leUse.eng 0).ea 0 o)) ∧ (leUse.eng 0).mayRead 4 ((leUse.eng 0).ea 0 28) ∧ (leUse.eng 0).mayRead 8 ((leUse.eng 0).ea 2 32) ∧
    leUse.poisoned (leData 0 + 0x1FFE0) 32 = false ∧ leUse.poisoned (leData 0 + 0x2000) 32 = false := by
  unfold Eng.mayRead; decide +kernel
/-- Meets hypotheses of LoopEngineMemoryInstructions. -/
theorem wit_memory_may_write : (∀ o ∈ [(0 : Int), 8, 16], (leUse.eng 0).mayWrite 8 ((leUse.eng 0).ea 1 o)) ∧ (leUse.eng 0).mayWrite 4 ((leUse.eng 0).ea 1 4) := by
  unfold Eng.mayWrite Eng.mayRead; decide +kernel
/-- Meets hypotheses of LoopEngineVectorSearch. -/
theorem wit_vector_search_completes : odd 30 = false ∧ (leUse.eng 0).vr 31 % 2 ^ 16 = 2 ∧ ∀ i < 2, (leUse.eng 0).mayRead 4 (((leUse.eng 0).walk 0 i).ea 0 0) ∧ leUse.poisoned (leData 0 + ((leUse.eng 0).walk 0 i).ea 0 0) 4 = false := by
  unfold Eng.mayRead; decide +kernel
/-- Meets hypotheses of LoopEngineBranches. -/
theorem wit_branches : (leLive.eng 0).vr 4 = 0 ∧ sx 32 0x80000000 < 0 ∧ 0 ≤ sx 32 0x7FFFFFFF ∧ (4 : Nat) < (leLive.eng 0).v.length ∧ (leLive.setEng 0 ((leLive.eng 0).setV 4 1) |>.eng 0).vr 4 = 1 := by decide +kernel

/-- Engine 0 with an event queued, and with one under way. -/
def leEvent : State := leLive.setEng 0 { leLive.eng 0 with queue := [⟨0, false, 3, 9, 0, 0⟩], cur := some ⟨0, false, 3, 8, 0, 0⟩ }
/-- Meets hypotheses of LoopEngineEventsAndSystemFunctions. -/
theorem wit_events : (leEvent.eng 0).haltReq = false ∧ (leEvent.eng 0).queue = [⟨0, false, 3, 9, 0, 0⟩] ∧ (leLive.eng 0).queue = [] ∧ (leLive.eng 0).haltReq = false ∧ (leEvent.eng 0).cur = some ⟨0, false, 3, 8, 0, 0⟩ ∧ (leLive.eng 0).cur = none ∧
    leLegal 0x78000000 = false ∧ ((leLive.setEng 0 { leLive.eng 0 with haltReq := true }).eng 0).haltReq = true := by decide +kernel
/-- Meets hypotheses of LoopEngineStartAndHalt. -/
theorem wit_start_and_halt : live.reach 0x80090000 = true ∧ (live.eng 0).st = .halted ∧ (leLive.eng 0).st = .running ∧ (leLive.eng 0).asleep = false ∧ ((live.setEng 0 { live.eng 0 with st := .error }).eng 0).st = .error := by decide +kernel
/-- Meets hypotheses of LoopEngineDecodeOfEncode and LoopEngineEncodeOfDecode. -/
theorem wit_encode_of_decode : leLegal 0x78000000 = false ∧ leLegal 0x04221800 = true ∧ leOk (leDecode 0 0x04221800#32) = true ∧ leEncode (leDecode 0 0x04221800#32) = some 0x04221800#32 ∧ (bits 0x64000000 26 6 : Nat) = 0x19 ∧ bits 0x68000000 26 6 = 0x1A ∧
    bits 0x98000000 26 6 = 0x26 ∧ bits 0xFC000000 26 6 = 0x3F := by decide +kernel

/-! The whole machine. -/

/-- Meets hypotheses of FrontCommandRuns. -/
theorem wit_front_command : ({ live with pending := [.goRun] } : State).pending = .goRun :: [] := rfl
/-- Meets hypotheses of IdleStepIsOneTimerCycle. -/
theorem wit_idle_step : live.pending = [] ∧ live.domUp 2 = true ∧ 0 ≤ (live.now : Int) * 2 ^ 32 + live.tim.frac + 4 * 2 ^ 32 + sx 32 (live.get R.TIM_ADJ_ADJ) ∧ (live.now : Int) * 2 ^ 32 + live.tim.frac + 4 * 2 ^ 32 + sx 32 (live.get R.TIM_ADJ_ADJ) < 2 ^ 96 := by decide +kernel
theorem test_idle_step_adds_four_ns : (match step live with | .next t => t.now | _ => 0) = 4 := by decide +kernel
/-- Meets hypotheses of BoundaryScanOnlyWhileResetIsLow. -/
theorem wit_boundary_scan : State.reset.tapOk := by unfold State.tapOk; decide
theorem test_reset_holds_no_command : State.reset.pending = [] := rfl

/-! Registers, memory and the bus. -/

/-- Meets hypotheses of RegisterWriteFollowsTheAccessCodes. -/
theorem wit_register_write : (fieldsAt 0x80110008).isSome = true ∧ live.reach 0x80110008 = true ∧ region 0x80110008 = some .regs ∧ (0x80110008 - 0x80000000) / 0x10000 = 17 := by decide +kernel
theorem test_register_write_w1c : ((after (.registerWrite (.core 0) 0x8011000C 2 0x10) (put live [(R.TIM_STAT_TIME_JUMP, 1), (R.TIM_STAT_MASTER_CHG, 1)])).get R.TIM_STAT_TIME_JUMP,
    (after (.registerWrite (.core 0) 0x8011000C 2 0x10) (put live [(R.TIM_STAT_TIME_JUMP, 1), (R.TIM_STAT_MASTER_CHG, 1)])).get R.TIM_STAT_MASTER_CHG) = (0, 1) := by decide +kernel
/-- Meets hypotheses of AccessesThatReachNothing. -/
theorem wit_refused_accesses : region 0x08000000 = none ∧ region 0x80170000 = none ∧ region 0x80110009 = some .regs ∧ live.reach 0x80110009 = true ∧ 0x80110009 % 4 ≠ 0 ∧ fieldsAt 0x8011FFFC = none ∧ live.reach 0x8011FFFC = true ∧
    region 0 = some .rom ∧ live.domUp (memDom 0) = true ∧ region 0x10000001 = some .sram ∧ live.domUp (memDom 0x10000001) = true ∧ 0x10000001 % 2 ^ 1 ≠ 0 := by decide +kernel
/-- Meets hypotheses of AccessesThatReachNothing. -/
theorem wit_gated_accesses : (live.set R.CLK_GATE_EN 0).reach 0x80030000 = false ∧ region 0x80030000 = some .regs ∧ (live.set R.PWR_DOM_ON 0).domUp (memDom 0x30000000) = false ∧ region 0x30000000 = some .axis := by decide +kernel
/-- Meets hypotheses of RegisterReadsClearAndLatch. -/
theorem wit_register_reads : live.reach 0x80030008 = true ∧ live.reach (0x80090014 + 0x40 * 11) = true ∧ live.reach 0x80110000 = true ∧ live.reach 0x80110020 = true ∧ live.reach 0x800C000C = true ∧
    live.reach (0x800C014C + 0x80 * 7) = true ∧ live.reach (0x800C0148 + 0x80 * 0) = true ∧ (fieldsAt 0x80110000).isSome = true := by decide +kernel
theorem test_now_read_latches : ((after (.timNowLoRead (.core 0)) { live with now := 0x300000005 }).bus, (after (.timNowLoRead (.core 0)) { live with now := 0x300000005 }).get R.TIM_NOW_HI_NOW_HI) = (.data 5, 3) := by decide +kernel
/-- Meets hypotheses of SramWritesReachExactlyTheirBytes. -/
theorem wit_sram_writes : region 0x10000000 = some .sram ∧ region 0x101FFFFF = some .sram ∧ live.domUp 2 = true ∧ 0x101FFFF8 % 2 ^ 3 = 0 := by decide +kernel
theorem test_sram_write_is_little_endian : ((after (.registerWrite .dma 0x101FFFF8 3 0x1122334455667788) live).byte 0x101FFFF8, (after (.registerWrite .dma 0x101FFFF8 3 0x1122334455667788) live).byte 0x101FFFFF) = (0x88, 0x11) := by decide +kernel

/-! Axes: network axis 0 runs a custom program and has parameters that pass every check. -/

/-- The bytes of a list of words from an address. -/
def words (a : Nat) : List Nat → List (Nat × BitVec 8)
  | [] => []
  | w :: r => cells a w 4 ++ words (a + 4) r

/-- Parameters of the axis, with every limit 1.0 and a soft range of one revolution. -/
def axMem : State :=
  let one := 0x3F800000
  live.poke (words 0x30000000 [0, 0, 0, 0, 0x10000, 0, one, one, one, one, one, one, 0x00010003, one, one, one, 0, 0, 0, 0, one, 0x02400000, 0, 0] ++ cells 0x30000400 0x400000 4 ++
    words 0x30000180 [3, 7, 0, 0, one, one, one, one] ++ words 0x300F0000 [0xFFFFFF00, 0xFFFFFFFF, one])

/-- Axis 0 assigned, in a state. -/
def axIn (st : AxSt) : State := axMem.setAx 0 { Ax.init with assigned := true, st := st, par := axMem.axPar 0 }
/-- Axis 0 in MOVING with a VEL entry active. -/
def axMoving : State := axMem.setAx 0 { Ax.init with assigned := true, st := .moving, par := axMem.axPar 0, vel := 1, count := 1, slots := (⟨axMem.stage false 0, 2, 0, 0, none⟩ : Entry) :: List.replicate 7 (Entry.empty 16) }

/-- Meets hypotheses of ProfileCommandsAnswerTheirPort. -/
theorem wit_profile_port : live.reach 0x80080010 = true ∧ live.reach (0x80080010 + 0x10 * 3) = true ∧ live.axisExists 0 = false ∧ live.axisExists 239 = true ∧ live.axisExists 240 = false := by decide +kernel
/-- Meets hypotheses of AxisStateCommands. -/
theorem wit_enable : (axIn .disabled).axisExists 0 = true ∧ ((axIn .disabled).ax 0).st = .disabled ∧ ((axIn .disabled).ax 0).fault = 0 ∧ ((axIn .disabled).ax 0).count = 0 ∧ (axIn .disabled).paramsOk 0 = true := by decide +kernel
theorem test_enable_takes_actual_position : (let t := after (.enable 0 0 false) ((axIn .disabled).setAx 0 { (axIn .disabled).ax 0 with actPos := 5 }); ((t.ax 0).cmdPos, (t.ax 0).st)) = (5, .standstill) := by decide +kernel
/-- Meets hypotheses of AxisStateCommands. -/
theorem wit_clear_fault : ((axIn .fault).ax 0).st = .fault ∧ ((axIn .fault).ax 0).fault &&& (axIn .fault).condMask ((axIn .fault).ax 0) = 0 := by decide +kernel
/-- Meets hypotheses of AxisStateCommands. -/
theorem wit_home : ((axIn .standstill).ax 0).homeOk 0 0 = true ∧ ((axIn .standstill).ax 0).par.homeMethod ≠ 4 ∧ ((axIn .standstill).ax 0).lnAct = false ∧ (axIn .standstill).paramsOk 0 = true := by decide +kernel
/-- Meets hypotheses of AxisStateCommands. -/
theorem wit_set_group : ((axIn .standstill).pfSetGroup 0).1 = 0 ∧ ((axIn .standstill).pfSetGroup 0).2.grp 0 ≠ Grp.init := by decide +kernel
/-- Meets hypotheses of AxisMotionCommands. -/
theorem wit_queue : let x := axMoving.ax 0
    x.slots.length = 8 ∧ x.count ≤ 8 ∧ x.ended = false ∧ x.takesEntries = true ∧ x.active = true ∧ axMoving.entryCheck 0 x ⟨axMoving.stage false 0, 0, 0, 0, none⟩ false = 0 ∧ axMoving.entryCheck 0 x ⟨axMoving.stage false 0, 0, 0, 0, none⟩ true = 0 ∧
    x.st = .moving ∧ x.pulse = false ∧ x.sto = false ∧ x.vel ≠ 0 := by decide +kernel
/-- Meets hypotheses of AxisMotionCommands. -/
theorem wit_estop_pulse : let x := { axMoving.ax 0 with par := { (axMoving.ax 0).par with cfg := 4 } }
    x.st = .moving ∧ x.pulse = true ∧ x.vel ≠ 0 := by decide +kernel
theorem test_estop_latches_pf_fault : ((after (.estop 0 0 false) axMoving).get (R.PF_FAULT_FAULT 0), ((after (.estop 0 0 false) axMoving).ax 0).st) = (1, .faultStop) := by decide +kernel
/-- Meets hypotheses of AxisTimers. -/
theorem wit_dwell : let x := { axMoving.ax 0 with st := AxSt.standstill, dwell := some 0 }
    x.st = .standstill ∧ x.dwell = some 0 ∧ x.active = true ∧ x.count = 1 := by decide +kernel
/-- Meets hypotheses of AxisTimers. -/
theorem wit_debounce : debN Ax.init 0 1000000 ≤ ({ val := false, run := 1, pos := 0 } : Deb).run ∧ debN { Ax.init with par := { AxPar.init with limCfg := 100 } } 0 1000000 = 10 := by decide +kernel
/-- Meets hypotheses of AxisTimers. -/
theorem wit_hard_stop : let x := { axMoving.ax 0 with homing := some ⟨.search, 0, some 9, none, 0, false, false⟩ }
    x.homing = some ⟨.search, 0, some 9, none, 0, false, false⟩ ∧ x.par.homeMethod = 3 ∧ x.par.homeDwell * 1000000 ≤ 0 + axMoving.get R.BOND_CRS_PERIOD_PERIOD_NS := by decide +kernel

/-! The loop program and live updates. -/

/-- Engine 0 with axis 0 in slot 0, running the standard program, feedback sampled at 1 µs, and an event for it. -/
def lpLive : State := (leLive.poke (cells (fbArea 0 0 0 + 24) 1000 8)).setEng 0 { leLive.eng 0 with axes := [0], queue := [⟨0, false, 0, 0, 0, 0⟩] }
/-- Meets hypotheses of StandardLoopCourse. -/
theorem wit_axis_loop : (lpLive.eng 0).st = .running ∧ (lpLive.eng 0).queue = [⟨0, false, 0, 0, 0, 0⟩] ∧ lpLive.custom 0 = false ∧ lpLive.axSlot 0 = some (0, 0) ∧ (lpLive.eng 0).haltReq = false ∧ (lpLive.eng 0).axes.any lpLive.custom = false ∧ (lpLive.eng 0).swap = none ∧
    (lpLive.loopReads 0 ⟨0, false, 0, 0, 0, 0⟩).all (fun p => !lpLive.poisoned p.1 p.2) = true := by decide +kernel
theorem test_axis_loop_publishes : (Store.get (⟨9, []⟩ : Pub) ((after (.axisLoop 0) lpLive).eng 0).pub 0).crs = 0 := by decide +kernel
/-- Inputs of the loop law: enabled, feedback present, a drive fault reported. -/
def lpIn : LoopIn := lpLive.loopIn 0 ⟨0, false, 0, 0, 0, 0⟩
/-- Meets hypotheses of LoopLawGuards. -/
theorem wit_loop_law : bit lpIn.ctrl 0 = false ∧ bit ({ lpIn with ctrl := 1 } : LoopIn).ctrl 0 = true ∧ bit ({ lpIn with ctrl := 1 } : LoopIn).ctrl 1 = false ∧ bit ({ lpIn with ctrl := 10 } : LoopIn).ctrl 3 = true ∧ bit ({ lpIn with ctrl := 10 } : LoopIn).ctrl 1 = true ∧
    bit ({ lpIn with status := 6 } : LoopIn).status 1 = true ∧ bit ({ lpIn with status := 6 } : LoopIn).status 2 = true ∧ 2 ≤ ({ Loop.init with enabled := true, heldRun := 2 } : Loop).heldRun := by decide +kernel
/-- The monitors of slot 0 at 3 courses, and the axis at its limits. -/
def monLive : State := (lpLive.poke (cells (lpCopy 0 0 + 56) 0x0303 2)).setLoop 0 { Loop.init with enabled := true, feRun := 3, veRun := 3, heldRun := 3 }
/-- Meets hypotheses of LoopMonitorsAndLiveUpdate. -/
theorem wit_monitors : monLive.axSlot 0 = some (0, 0) ∧ (monLive.loop 0).enabled = true ∧ monLive.load (lpCopy 0 0 + 56) 1 = 3 ∧ monLive.load (lpCopy 0 0 + 57) 1 ≤ (monLive.loop 0).veRun ∧ 3 ≤ (monLive.loop 0).heldRun := by decide +kernel
/-- Meets hypotheses of LoopMonitorsAndLiveUpdate. -/
theorem wit_live_update : live.reach 0x800910C0 = true ∧ live.flag R.LE_UPD_CTRL_GO = false ∧ (live.setFlag R.LE_UPD_CTRL_GO true).flag R.LE_UPD_CTRL_GO = true ∧ (live.setFlag R.LE_UPD_CTRL_GO true).reach 0x800910C0 = true ∧
    ({ lpLive with upd := some ⟨0, 0, true⟩ } : State).upd = some ⟨0, 0, true⟩ ∧ lpLive.crs.cnt = 0 ∧ lpLive.axSlot 0 = some (0, 0) ∧ (lpLive.ax 0).crsLo = 0 ∧
    ((lpLive.setAx 0 { lpLive.ax 0 with crsLo := 5 }).ax 0).crsLo ≠ 0 ∧ ({ lpLive with upd := some ⟨0, 0, false⟩ } : State).upd = some ⟨0, 0, false⟩ := by decide +kernel
theorem test_live_update_fails_check : ((after .liveUpdateApply { lpLive with upd := some ⟨0, 0, false⟩ }).get R.LE_UPD_STAT_RESULT) = 4 := by decide +kernel

/-! Stepper channels. -/

/-- Channel 0's axis assigned and enabled, with no power stage event yet. -/
def stpLive : State := live.setAx 192 { Ax.init with assigned := true, st := .standstill }
/-- Channel 0 with a phase A in a state. -/
def phIn (st : PhSt) (fault : Option Nat) : State := stpLive.setChan 0 { Chan.init with phA := { Phase.init with st := st, fault := fault }, cfg := { (Chan.init).cfg with chop2 := 0 } }
/-- Channel 0 in STEP/DIR mode with a pulse queued. -/
def stepDir : State := stpLive.setChan 0 { Chan.init with cfg := { (Chan.init).cfg with cfg := 1 }, pulses := [(true, 1)] }

/-- Meets hypotheses of ChopperPeriod. -/
theorem wit_chopper : stpLive.chanState 0 = 1 ∧ ((phIn .drive none).chanState 0 = 1 ∧ ((phIn .drive none).chan 0).ph false = { Phase.init with st := .drive }) ∧ ((phIn .fast none).chan 0).phA.st = .fast ∧
    ((phIn .slow (some 1)).chan 0).phA.fault ≠ none ∧ ((phIn .slow none).chan 0).phA.fault = none ∧ ((phIn .slow none).chan 0).phA.wait = false ∧ ({ Phase.init with st := .slow, wait := true } : Phase).wait = true ∧ ({ (Chan.init).cfg with cfg := 0x100 } : ChanCfg).decay = 2 := by decide +kernel
/-- Meets hypotheses of ChopperPeriod. -/
theorem wit_open_min : (Phase.init.t : Rat) < (({ (Chan.init).cfg with chop2 := 0xFFFFFFFF } : ChanCfg).openMin : Rat) ∧ ((Chan.init).cfg.openMin : Rat) ≤ Phase.init.t := by decide +kernel
/-- Meets hypotheses of BridgeFaults. -/
theorem wit_bridge_faults : ((phIn .drive (some 1)).chan 0).phA.fault = some 1 ∧ ((phIn .drive none).chan 0).phA.fault ≠ some 1 ∧ ((phIn .retry (some 1)).chan 0).phA.st = .retry ∧ (phIn .retry (some 1)).chanState 0 = 1 := by decide +kernel
theorem test_second_overcurrent_is_step_fault : (let t := after (.blankingEnd 0 false true) (phIn .drive (some 1)); (t.get (R.STP_STAT_FLT_CODE 0), t.stpFlt 0, (t.chan 0).phB.st)) = (1, true, .off) := by decide +kernel
/-- Meets hypotheses of StepGeneratorEvents. -/
theorem wit_step_generator : stepDir.chanState 0 = 2 ∧ (stepDir.chan 0).pulses = [(true, 1)] ∧ (stpLive.chan 0).pulses = [] ∧ stepNo 8 65536 = stepNo 8 (stepDir.chan 0).gen ∧ stepNo 8 (-1) ≠ stepNo 8 (stepDir.chan 0).gen ∧ ({ stepDir.chan 0 with slopeN := 1 } : Chan).slopeN ≠ 0 ∧ ({ stepDir.chan 0 with dst := 65536 } : Chan).nextStep = some 65536 ∧ ({ stepDir.chan 0 with dst := -1 } : Chan).nextStep = some (-1) ∧
    ({ (Chan.init).cfg with cfg := 2 ^ 9 } : ChanCfg).encEn = true ∧ (stepDir.ax 192).vel = 0 ∧ (stepDir.chan 0).search = false ∧ stepDir.holdCourses 0 ≤ (stepDir.chan 0).still ∧
    (stepDir.chan 0).still < (stepDir.setChan 0 { stepDir.chan 0 with cfg := { (stepDir.chan 0).cfg with chop2 := 0xFFFFFFFF } }).holdCourses 0 ∧ (stepDir.chan 0).encA = false ∧ (stepDir.chan 0).encB = false := by decide +kernel
theorem test_step_pulse_leaves : (after (.stepPulse 0) stepDir).outs = [.step 0 true] := by decide +kernel
/-- Meets hypotheses of StallAndExternalFault. -/
theorem wit_external_fault : (stepDir.ax 192).enabled = true ∧ stepDir.chanState 0 = 2 ∧ bit (stepDir.chan 0).cfg.cfg 14 = false ∧ (live.ax 192).enabled = false := by decide +kernel
/-- An encoder channel whose position is far from the generator's. -/
def stalled : State := stpLive.setChan 0 { Chan.init with cfg := { (Chan.init).cfg with cfg := 2 ^ 9, stallErr := 1, encNum := 1, encDen := 1 }, gen := 10000000 }
/-- Meets hypotheses of StallAndExternalFault. -/
theorem wit_stall : (stalled.ax 192).enabled = true ∧ stalled.stallCond 0 = true ∧ (stalled.ax 192).homing = none ∧ stpLive.stallCond 0 = false := by decide +kernel
/-- Meets hypotheses of StallAndExternalFault. -/
theorem wit_stall_in_hard_stop_search : let x := { stalled.ax 192 with homing := some ⟨.search, 0, none, none, 0, false, false⟩, par := { AxPar.init with homeMethod := 3 } }
    x.enabled = true ∧ x.homing ≠ none ∧ x.par.homeMethod = 3 := by decide +kernel
/-- Meets hypotheses of CalibrationRuns. -/
theorem wit_calibration : live.reach 0x800A0000 = true ∧ live.reach (0x800A0000 + 0x40 * 47) = true ∧ (live.ax 192).enabled = false ∧ (live.chan 0).cal = none ∧ (stpLive.ax 192).enabled = true ∧ ((live.setChan 0 { Chan.init with cal := some 2 }).chan 0).cal = some 2 := by decide +kernel
theorem test_calibration_bound : ((after (.calibrationEnd 0 31 (-31) 127 (-127)) (live.setChan 0 { Chan.init with cal := some 1 })).get (R.STP_CAL_CAL_RES 0),
    ((after (.calibrationEnd 0 32 0 0 0) (live.setChan 0 { Chan.init with cal := some 1 })).chan 0).cal, (after (.calibrationEnd 0 32 0 0 0) (live.setChan 0 { Chan.init with cal := some 2 })).get (R.STP_CAL_CAL_RES 0)) = (1, some 2, 3) := by decide +kernel

/-! The course and the rings. Node 2 of ring 0 is claimed; the bond table has one entry of each TYPE. -/

/-- A bond table entry that is used. -/
def bent (type owner len mapFirst mapCount : Nat) : BEnt := ⟨2 ^ 31 + owner * 2 ^ 24 + type * 2 ^ 20 + 100, len, mapFirst + mapCount * 65536, 0⟩
/-- The bond table. -/
def btab : BSched := ⟨1000000, 0, 0, 0, 0, 0, 0, [bent 1 0 32 0 0, bent 2 2 20 0 1, bent 4 2 4 1 1, bent 6 2 12 2 1, bent 7 0 20 0 0, bent 15 2 4 0 0, bent 8 2 64 0 0, bent 5 0 4 0 0, bent 15 0 4 0 0, bent 8 0 64 0 0, bent 9 0 8 0 0]⟩
/-- Ring 0 enabled and inserted, in a state of START. -/
def onRing (start : Nat) : State :=
  (put { live with crs := { live.crs with scheds := [some ⟨1000000, 0, 0, 0, 0⟩, some ⟨1000000, 0, 0, 0, 0⟩, none, none], start := 1000000, cnt := 7 }, pim := { live.pim with ranges := [⟨0, 1, 0, 0, 0, 0⟩], segs := [(0, some ⟨0, 1, 0⟩)] } }
    [(R.BOND_START_STATE, start), (R.RING_CFG_EN 0, 1), (R.RING_STAT_BYP 0, 1), (R.RING_STAT_JOIN_OPEN 0, 1), (R.RING_HEAD_DLY_E_D 0, 1600), (R.RING_LOOP_E_LOOP 0, 16000)]).setRing 0
    { Ring.init with loopE := 16000, scheds := [some btab], map := [0, 3 * 2 ^ 20, 2 * 2 ^ 20], nodes := [{ (Node.init 2 5 1) with claimed := true, dlyE := 1600 }, Node.init 3 9 1], east := { Port.init with sync := true, fwd := true, fresh := true }, west := { Port.init with sync := true, fwd := true } } |>.setEng 0 { live.eng 0 with axes := [0], st := .running } |>.setAx 0 { Ax.init with assigned := true }
/-- A sound copy of a brick, east-going. -/
def brick (type src idx tm : Nat) (payload : List Nat) : Copy :=
  ⟨0, (brickBytes ⟨type, 0, false, false, src, 0, 7, 0, payload.length, idx⟩ payload).map (BitVec.ofNat 8), .t, 1000000 + tm, false, 0⟩
/-- A REFERENCE of the head at rank 0. -/
def refBrick : Copy := brick 1 0 0 900 (leBytes 0 8 ++ leBytes 7 8 ++ List.replicate 16 0)
/-- Whether a copy passes every check. -/
def taken (s : State) (c : Copy) (t : Nat) : Bool := s.ringEn 0 && decide ((s.quiet.receive c (fun x => x == t)).2 = .accept)

/-- Meets hypotheses of RingBricksAccepted. -/
theorem wit_bricks_accepted : taken (onRing 3) (brick 2 2 1 1700 (List.replicate 20 0)) 2 = true ∧ taken (onRing 3) (brick 4 2 2 1700 [1, 0, 0, 0]) 4 = true ∧ taken (onRing 3) (brick 6 2 3 1700 (List.replicate 12 0)) 6 = true ∧
    taken (onRing 3) (brick 15 2 5 1700 [0, 0, 0, 0]) 15 = true ∧ taken (onRing 3) (brick 8 2 6 1700 (4 :: List.replicate 63 0)) 8 = true ∧ taken (onRing 4) refBrick 1 = true ∧ taken (onRing 1) refBrick 1 = true ∧
    taken (onRing 4) (brick 5 0 7 900 [1, 0, 0, 0]) 5 = true ∧ taken (onRing 4) (brick 8 0 9 900 (1 :: 2 :: List.replicate 62 0)) 8 = true ∧ taken (onRing 4) (brick 8 0 9 900 (0x80 :: 2 :: List.replicate 62 0)) 8 = true ∧ taken (onRing 4) (brick 9 0 10 900 (leBytes 9 6 ++ [3, 0])) 9 = true ∧
    ((((onRing 4).quiet.receive (brick 9 0 10 900 (leBytes 9 6 ++ [3, 0])) (fun x => x == 9)).1.ring 0).node 3).isSome = true ∧ epHigher 0 ((onRing 3).get R.MTR_EPOCH_EPOCH) = false ∧ (onRing 4).ownCopy refBrick = false := by decide +kernel
/-- Meets hypotheses of RingBricksAccepted. -/
theorem wit_join_accepted : taken (onRing 3) (brick 7 0x3F 4 1700 (leBytes 9 6 ++ [1, 0] ++ leBytes 1600 4 ++ List.replicate 8 0)) 7 = true ∧ ((onRing 3).ring 0).acc.contains 4 = false ∧ (onRing 3).heads = true ∧
    (((onRing 3).quiet.receive (brick 7 0x3F 4 1700 (leBytes 9 6 ++ [1, 0] ++ leBytes 1600 4 ++ List.replicate 8 0)) (fun x => x == 7)).1.ring 0).matchJoin 9 1 = some 3 := by decide +kernel
/-- Meets hypotheses of RingBricksAccepted. -/
theorem wit_service_bricks : otherMg (brick 8 2 6 1700 (4 :: List.replicate 63 0)) (fun o => o == 4) = false ∧ otherMg (brick 8 2 6 1700 (6 :: List.replicate 63 0)) (fun o => o == 6) = false ∧
    otherMg (brick 8 2 6 1700 (0x10 :: List.replicate 63 0)) (fun o => decide (0x10 ≤ o ∧ o ≤ 0x7F)) = false ∧ otherMg (brick 8 2 6 1700 (0x80 :: List.replicate 63 0)) (fun o => decide (0x80 ≤ o)) = false ∧
    otherMg (brick 8 2 6 1700 (0 :: List.replicate 63 0)) (fun o => o == 0) = false := by decide +kernel
theorem test_feedback_reaches_its_slot : ((after (.feedback (brick 2 2 1 1700 (5 :: List.replicate 19 0))) (onRing 3)).load (fbArea 0 0 7) 24) = 5 + 7 * 2 ^ 160 := by decide +kernel
/-- Meets hypotheses of RingCopiesRefusedAndForwarded. -/
theorem wit_copies_refused : (brick 15 2 5 1700 [0, 0, 0, 0]).hcrcOk = true ∧ ({ brick 15 2 5 1700 [0, 0, 0, 0] with bytes := [0] } : Copy).hcrcOk = false ∧ (brick 10 2 5 1700 []).hcrcOk = true ∧ typeOk 10 = false ∧
    ({ brick 15 2 5 1700 [0, 0, 0, 0] with term := .none } : Copy).endOk = false := by decide +kernel
/-- A FILL brick whose payload has changed on its way. -/
def spoilt : Copy := { brick 15 2 5 1700 [0, 0, 0, 0] with bytes := (brick 15 2 5 1700 [0, 0, 0, 0]).bytes.set 12 1 }
/-- Meets hypotheses of RingCopiesRefusedAndForwarded. -/
theorem wit_through : (onRing 4).inserted 0 = true ∧ (((onRing 4).ring 0).port true).sync = true ∧ (((onRing 4).ring 0).port true).fwd = true ∧ (((onRing 4).ring 0).port false).fwd = true ∧ (onRing 4).ownCopy (brick 15 2 5 1700 [0, 0, 0, 0]) = false ∧
    (brick 15 2 5 1700 [0, 0, 0, 0]).endOk = true ∧ (brick 15 2 5 1700 [0, 0, 0, 0]).crcOk = true ∧ refBrick.crcOk = true ∧ (onRing 3).ownCopy refBrick = true ∧ ((onRing 3).quiet.rxFrame refBrick).2 = true ∧ ((onRing 4).ring 0).crcSeen = [] ∧
    ({ spoilt with term := .v } : Copy).crcOk = false ∧ spoilt.crcOk = false ∧ spoilt.hcrcOk = true ∧ spoilt.term ≠ .v ∧ (onRing 4).ownCopy spoilt = false ∧ ({ brick 15 2 5 1700 [0, 0, 0, 0] with term := .none } : Copy).crcOk = true := by decide +kernel
/-- Meets hypotheses of RingSendingAndLinks. -/
theorem wit_sending : (onRing 3).bent 0 8 = some (bent 15 0 4 0 0) ∧ (onRing 3).sentNow 0 (bent 15 0 4 0 0) = true ∧ ((onRing 3).ring 0).quiet = false ∧ (onRing 3).bent 0 7 = some (bent 5 0 4 0 0) ∧ (bent 5 0 4 0 0).type = 5 ∧ (bent 5 0 4 0 0).owner = 0 ∧
    (onRing 3).reach 0x80040090 = true ∧ (onRing 3).flag (R.RING_MG_TX_GO 0) = false ∧ (((onRing 3).ring 0).node 2).isSome = true ∧ (onRing 3).reach (0x80040094 + 0x10000 * 3) = true := by decide +kernel
/-- Meets hypotheses of RingSendingAndLinks. -/
theorem wit_losses_and_claims : (onRing 4).sentNow 0 (bent 1 0 32 0 0) = true ∧ (onRing 4).heads = false ∧ 3 ≤ (onRing 4).get R.BOND_START_STATE ∧ (((onRing 4).ring 0).acc.contains 0) = false ∧
    (({ onRing 3 with crs := { (onRing 3).crs with cnt := 256 } } : State).ring 0).node 2 = some { (Node.init 2 5 1) with claimed := true, dlyE := 1600 } ∧ 0 + 256 ≤ (256 : Nat) ∧ ((onRing 3).ring 0).claims = [] ∧ (bent 1 0 32 0 0).type ≠ 7 := by decide +kernel
/-- Meets hypotheses of RingSendingAndLinks. -/
theorem wit_links : (onRing 3).ltDue (((onRing 3).ring 0).port true) = true ∧ ({ ((onRing 3).ring 0).port true with req := some (4, 100) } : Port).req = some (4, 100) ∧ (((onRing 3).ring 0).port true).meas = false ∧ (((onRing 3).ring 0).port false).fresh = true ∧ ((onRing 3).ring 0).quiet = false ∧ (onRing 3).losOn (.ring 0 true) = false ∧
    ((put { onRing 3 with gpio := 1, boot := { (onRing 3).boot with done := 9 } } [(R.SYS_PINFUNC_MODE 0, 3), (R.SYS_PINFUNC_FUNC 0, 1), (R.SYS_PINFUNC_PORT 0, 1), (R.GPIO_OUT_OUT, 0)]).losOn (.ring 0 true)) = true := by decide +kernel
/-- Meets hypotheses of RingStartUp. -/
theorem wit_start_up : (onRing 1).dev = .run ∧ (onRing 1).get R.BOND_START_STATE = 1 ∧ ({ onRing 1 with bond := { (onRing 1).bond with heardRef := true } } : State).schedIn ((onRing 1).get R.BOND_CRS_STAT_SCHED_CUR) = true ∧
    ((onRing 4).set (R.RING_STAT_BYP 0) 0).inserted 0 = false ∧ (onRing 4).follows = true ∧ 16 ≤ ({ (onRing 4).ring 0 with refRun := 16 } : Ring).refRun ∧ (onRing 4).bond.startDue = false ∧ (onRing 4).get R.BOND_ENROL_LEFT ≤ 1 := by decide +kernel
/-- Meets hypotheses of CourseInstants. -/
theorem wit_course : (onRing 3).dev = .run ∧ (onRing 3).leads = true ∧ (onRing 3).cas.due = false ∧ (onRing 3).axSlot 0 = some (0, 0) ∧ (onRing 3).crs.fbSeen = [] ∧ (onRing 3).shadows = false ∧ ((onRing 3).eng 0).st = .running ∧ ((onRing 3).eng 0).queue = [] ∧ (onRing 3).substAll ≠ [] ∧ live.substAll = [] := by decide +kernel
/-- Meets hypotheses of CourseInstants. -/
theorem wit_tick : (onRing 3).crs.tick = none ∧ (onRing 3).quiet.tickDue.get R.BOND_START_STATE = 3 ∧ (onRing 3).quiet.tickDue.leads = true ∧ (onRing 3).quiet.tickDue.cas.due = false ∧ (onRing 3).quiet.tickDue.substAll ≠ [] ∧ live.quiet.tickDue.substAll = [] ∧ live.quiet.tickDue.crs.late = false ∧ (onRing 3).quiet.tickDue.shadows = false ∧ (onRing 3).quiet.tickDue.flag R.PWR_CTRL_GO_STANDBY = false := by decide +kernel
/-- The profile tick of a course runs once: at the actuation instant (R23). -/
theorem test_tick_runs_once : (after (.courseStart false) (onRing 3)).crs.tick = some false ∧ (after .actuationInstant (after (.courseStart false) (onRing 3))).crs.tick = none := by decide +kernel
theorem test_course_counts : (after (.courseStart false) (onRing 3)).crs.cnt = 8 := by decide +kernel
/-- Meets hypotheses of CourseInstants. -/
theorem wit_switch : (onRing 3).reach 0x80030000 = true ∧ (onRing 3).crs.swTo = none ∧ (onRing 3).heads = true ∧ (onRing 3).leads = true ∧ (onRing 3).subPosition = false ∧ ((onRing 3).set R.BOND_CRS_CTRL_SCHED_NEXT 1).schedIn 1 = true ∧ (onRing 3).get R.BOND_CRS_STAT_SCHED_CUR = 0 ∧ (onRing 3).schedIn 2 = false := by decide +kernel

/-! The process image and capture. -/

/-- Point 0 an input, point 1 an output, point 2 an internal FP32 point. -/
def pimLive : State := { live with pim := { live.pim with ranges := [⟨0, 1, 0, 0, 0, 0⟩, ⟨1, 1, 1, 1, 0, 0⟩, ⟨2, 1, 5, 2, 0, 0⟩] } }
/-- Meets hypotheses of PointAccesses. -/
theorem wit_points : pimLive.domUp 9 = true ∧ pimLive.rng 0 = some ⟨0, 1, 0, 0, 0, 0⟩ ∧ pimLive.rng 1 = some ⟨1, 1, 1, 1, 0, 0⟩ ∧ pimLive.rng 2 = some ⟨2, 1, 5, 2, 0, 0⟩ ∧ pimLive.rng 262143 = none ∧ pimLive.leads = true ∧
    ({ pimLive with mtr := { pimLive.mtr with paired := true } } : State).leads = false ∧ pimLive.poisoned 0x20000000 4 = false ∧ Store.get none pimLive.pim.latch 0 = none := by decide +kernel
/-- Meets hypotheses of PointAccesses. -/
theorem wit_point_latch : Store.get none (after (.pointValueRead (.core 0) 1) pimLive).pim.latch 0 = some (1, pimLive.ptSecond 1) := by decide +kernel
/-- Meets hypotheses of PointAccesses. -/
theorem wit_point_poisoned : ({ pimLive with tst := { pimLive.tst with poison := [(4, 0x20000004)] } } : State).poisoned 0x20000004 4 = true := by decide +kernel
/-- Meets hypotheses of PointAccesses. -/
theorem wit_output_pass : (put { pimLive with mtr := { pimLive.mtr with paired := true, role := .ready } } [(R.PIM_STAT_RESYNC, 1)]).flag R.PIM_STAT_RESYNC = true ∧ qualOf 5 (normPt 5 0x7F800000) = 14 := by decide +kernel
theorem test_point_write_truncates : Store.get none (after (.pointWrite (.core 0) 1 0x12345678) pimLive).pim.recs 1 = some ⟨0x5678, qualOf 1 0x5678, 0⟩ := by decide +kernel

/-- Set 0 in ARMED without channels or conditions, with the trigger pin 0 as condition A where asked. -/
def capLive (st kind : Nat) (force : Bool) : State := live.setCset 0 { CapSet.init with st := st, post := 2, segLen := 4, rowb := 0, ta := { CTrig.none_ with kind := kind }, force := force }
/-- Meets hypotheses of CaptureCommands. -/
theorem wit_capture_row : (((capLive 2 0 false).quiet.capPush 0 false).cset 0).st = 2 ∧ (((capLive 2 0 false).quiet.capPush 0 false).cset 0).hasTrig = false ∧ (((capLive 2 0 true).quiet.capPush 0 false).cset 0).force = true ∧ (((capLive 2 0 true).quiet.capPush 0 false).cset 0).trigAt = none ∧ (((capLive 2 0 true).quiet.capPush 0 false).cset 0).mode ≠ 2 ∧ (((capLive 2 0 true).quiet.capPush 0 false).cset 0).chans = [] ∧
    1 < (((capLive 2 0 true).quiet.capPush 0 false).cset 0).post ∧ live.reach (0x800C0100 + 0x80 * 7) = true := by decide +kernel
theorem test_forced_row_triggers : ((after (.captureRow 0) (capLive 2 0 true)).cset 0).st = 3 := by decide +kernel
/-- A channel on an axis signal whose samples have not come. -/
def slowCh : CCh := { c := 0, kind := 1, item := 0, sig := 0, trim := 0, auto := 0, q := -1024, addr := 0, len := 0, cyc := false, fmt := 0, xs := [], y := none, now := none }
/-- Meets hypotheses of CaptureCommands. -/
theorem wit_capture_row_waits : let u := (live.setCset 0 { CapSet.init with st := 2, chans := [slowCh] }).quiet.capPush 0 false
    (u.cset 0).open_ = true ∧ ((u.cset 0).chans.filterMap (fun x => (u.rowVal (u.cset 0) x).map (fun v => (x, v)))).length ≠ (u.cset 0).chans.length := by decide +kernel
/-- Meets hypotheses of CaptureCommands. -/
theorem wit_trigger_pins : (∀ k : Fin 8, (live.cset k).open_ = false) ∧ ((capLive 4 10 false).cset 0).open_ = true ∧ ((capLive 4 10 false).cset 0).ta.kind = 10 ∧ ((capLive 2 10 false).cset 0).st = 2 ∧ ((capLive 2 10 false).cset 0).ta.fall = !true ∧ ((capLive 4 10 false).cset 0).rearm = 0 ∧ ((capLive 4 10 false).cset 0).comb ≤ 1 ∧ ((capLive 4 10 false).cset 0).st = 4 ∧
    (((capLive 4 10 false).setCset 0 { (capLive 4 10 false).cset 0 with rearm := 5000 }).cset 0).rearm = 5000 ∧
    Store.get 0 ({ live.cap with pulses := [(0, 500)] } : Cap).pulses 0 = 500 := by decide +kernel

/-! The safety island. -/

/-- A section that passes every check, with one axis connection. -/
def icfg : IslCfg :=
  { inps := List.replicate 32 ⟨some 0, 30⟩, outs := List.replicate 20 ⟨true, 1, 20⟩, tpEn := 1, tpPer := 100, tpW := 50, opW := 50, opInt := 10,
    conns := [(0, some ⟨1, 2, 100, 1000000, some ⟨0, 100, 1, 4, 100, 1, [1, 1, 1, 1], 0, 1, 1, 0⟩⟩)], blocks := [], recs := [0x31, 0x32, 0x33, 0x34, 0x35, 0x36, 0x37, 0x38, 0x39], crc2 := 0xE3069283, sigOk := true, keyOk := false }
/-- The island in a state of SAF_STAT, with that section and axis 0 assigned. -/
def islLive (st : Nat) : State := put ({ live with isl := { Isl.init (some icfg) with vec := some ⟨0, 0, 0, (Isl.init (some icfg)).ev⟩ } }.setAx 0 { Ax.init with assigned := true }) [(R.SAF_STAT_STATE, st)]
/-- Meets hypotheses of IslandCycleAndTests. -/
theorem wit_island : (islLive 2).islSt = 2 ∧ (islLive 2).flag R.SAF_CMD_GO = false ∧ (islLive 2).isl.vec.isSome = true ∧ (islLive 2).isl.compared = false ∧ (islLive 3).islSt = 3 ∧ (islLive 4).islSt = 4 := by decide +kernel
/-- Meets hypotheses of IslandDecisionsAndMailbox. -/
theorem wit_section_passes : icfg.ok (fun a => ((islLive 1).ax a).assigned) ((islLive 1).flag R.NVM_FUSE_LOCK) = true ∧ (islLive 1).islSt = 1 ∧ (islLive 1).dev ≠ .boot ∧ (islLive 1).domUp 1 = true ∧ (islLive 1).isl.cfg = some icfg ∧ icfg.ok (fun a => ((islLive 1).ax a).assigned) true = false ∧
    ({ icfg with crc2 := 1 } : IslCfg).ok (fun a => ((islLive 1).ax a).assigned) false = false := by decide +kernel
theorem test_island_starts : ((after (.islandStart .pass) (islLive 1)).islSt, (after (.islandStart .fail) (islLive 1)).islSt, (after (.islandStart .pass) (islLive 1)).get R.SAF_CFG_CRC_CRC) = (2, 4, 0xE3069283) := by decide +kernel
/-- Meets hypotheses of IslandCycleAndTests. -/
theorem wit_test_pulses : bit icfg.tpEn 0 = true ∧ (islLive 2).tpDriven = true ∧ (islLive 2).outsDriven = true ∧ ((islLive 2).isl.outCfg 0).test = true ∧ ((islLive 2).isl.inCfg 31).tp = some 0 := by decide +kernel
/-- Meets hypotheses of IslandCycleAndTests. -/
theorem wit_pulse_window : let w : TpWin := ⟨0, 5, none, 1, 1, 0, false⟩
    w.tp = 0 ∧ w.ended = none ∧ bit w.before 0 = true ∧ bit w.hiHalf 0 = true ∧ bit ((islLive 2).get R.SAF_INFLT_FLT) 0 = false ∧ ((islLive 2).isl.inps.getD 0 SInp.init).bad = 0 ∧ 0 < (islLive 2).isl.inps.length ∧
    ({ w with tpHigh := true } : TpWin).tpHigh = true ∧ bit ((islLive 2).get R.SAF_OUTFLT_TP) 0 = false ∧ ({ (islLive 2).isl with tpBad := [1] } : Isl).tpBad.getD 0 0 ≠ 0 := by decide +kernel
/-- Meets hypotheses of IslandCycleAndTests. -/
theorem wit_stages : ({ Stg.init with cmd := true } : Stg).on = true ∧ ({ Stg.init with pulse := true } : Stg).pulse = true ∧ ({ Stg.init with retest := true } : Stg).retest = true ∧
    (let y : Stg := { Stg.init with cmd := true, chk := true, chkT := 81 }; y.chk = true ∧ y.cmd = bit 1 0 ∧ cyc ((islLive 2).isl.outCfg 16).tchk < y.chkT ∧ y.flt = 0) := by decide +kernel
/-- Meets hypotheses of IslandDecisionsAndMailbox. -/
theorem wit_island_watchdog : Store.get none ({ (islLive 2).isl with rx := [(63, some { CRx.init 0 with wd := 0 })] } : Isl).rx 63 = some { CRx.init 0 with wd := 0 } ∧ (CRx.init 0).lat = false := by decide +kernel
/-- Meets hypotheses of IslandDecisionsAndMailbox. -/
theorem wit_island_timers : icfg.axisOf 0 ≠ none ∧ (({ blks := [], cs := [(0, some { CSt.init with ss1 := some 0, sbcT := some 0, brk := false })] } : EvSt).conn 0).ss1 = some 0 ∧
    (({ blks := [], cs := [(0, some { CSt.init with ss1 := some 0, sbcT := some 0, brk := false })] } : EvSt).conn 0).sbcT = some 0 ∧ icfg.axisOf 0 = some ⟨0, 100, 1, 4, 100, 1, [1, 1, 1, 1], 0, 1, 1, 0⟩ ∧ Store.get none (islLive 2).isl.rx 0 = some (CRx.init 100) ∧ bit (CRx.init 100).data 35 = false := by decide +kernel
/-- Meets hypotheses of IslandDecisionsAndMailbox. -/
theorem wit_island_mailbox : (islLive 4).reach 0x800D0004 = true ∧ (20000 : Int).natAbs ≤ 20000 ∧ 20000 < (-20001 : Int).natAbs := by decide +kernel
theorem test_clock_deviation : (after (.islandClockCheck (-20001)) (islLive 2)).get R.SAF_STAT_ISL_CODE = 3 := by decide +kernel

/-! Paired operation and the journal. -/

/-- A paired member in a role, with the mortar link up. -/
def pairLive (r : Role) : State := put { live with mtr := { live.mtr with paired := true, role := r, jnlOk := true } } [(R.MTR_STAT_LINK_UP, 1), (R.JNL_STAT_SYNCED, 1), (R.WX_STAT_VALID, 1), (R.WX_STAT_READY, 1), (R.WX_STAT_OUT_SYNC, 1), (R.WX_STAT_JNL_SYNC, 1)]
/-- Meets hypotheses of MortarFrames. -/
theorem wit_frames : (pairLive .ready).frameOk ⟨true, 0⟩ = true ∧ (pairLive .ready).frameOk ⟨false, 0⟩ = false ∧ (pairLive .ready).frameOk ⟨true, 1⟩ = false ∧ (pairLive .ready).mtr.holder = false ∧ (pairLive .holder).mtr.holder = true ∧
    epHigher (1 % 65536) ((pairLive .holder).get R.MTR_EPOCH_EPOCH) = true := by decide +kernel
/-- Meets hypotheses of MortarFrames. -/
theorem wit_copy_of_the_course_before : (({ pairLive .ready with mtr := { (pairLive .ready).mtr with half := true }, crs := { (pairLive .ready).crs with cnt := 9 } } : State).frameOk ⟨true, 0⟩) = true ∧ (9 : Nat) = 8 + 1 ∧ (pairLive .ready).mtr.half = false := by decide +kernel
theorem test_renew_grants : (after (.renew ⟨true, 0⟩ 1 2 5) (pairLive .ready)).mtr.granted = some 5 := by decide +kernel
/-- The HOLDER with journal entry 3 released and awaiting a JACK. -/
def jLive : State := { pairLive .holder with mtr := { (pairLive .holder).mtr with jnl := { Jnl.init with ents := [(3, some { jent with st := 3, ack := some 1 })] } } }
/-- Meets hypotheses of MortarFrames. -/
theorem wit_jack : jLive.jnl.ent 3 = some { jent with st := 3, ack := some 1 } ∧ jLive.mtr.holder = true ∧ jLive.frameOk ⟨true, 0⟩ = true := by decide +kernel
/-- A standby with a vector under way and a peer of the same SAFETY section. -/
def shadow : State := put { pairLive .ready with isl := { live.isl with vec := some ⟨1, 0, 0, ⟨[], []⟩⟩ }, mtr := { (pairLive .ready).mtr with peer := some { helloB with safCrc := 0 } } } [(R.SAF_STAT_STATE, 2)]
/-- Meets hypotheses of MortarFrames. -/
theorem wit_shadow_compare : shadow.isl.vec = some ⟨1, 0, 0, ⟨[], []⟩⟩ ∧ (Vec.words ⟨1, 0, 0, ⟨[], []⟩⟩) = [1, 0, 0] ∧ shadow.mtr.peer = some { helloB with safCrc := 0 } ∧ shadow.islSt = 2 ∧ shadow.get R.SAF_CFG_CRC_CRC = 0 ∧ shadow.get R.SAF_CYCLE_COUNT = 0 ∧ shadow.isl.shadowMis = 0 := by decide +kernel
theorem test_second_mismatch_is_safe_div : (after (.safetyFrame ⟨true, 0⟩ 0 [9]) { shadow with isl := { shadow.isl with shadowMis := 1 } }).flag R.SAF_STAT_SAFE_DIV = true := by decide +kernel
/-- Meets hypotheses of MortarFrames. -/
theorem wit_digests : shadow.mtr.digs = [] ∧ shadow.ownDigs 0 = some (List.replicate 12 (0, true)) ∧ ({ shadow with engs := [(0, { shadow.eng 0 with axes := [0], digCrs := 5 })] } : State).ownDigs 0 = none ∧
    shadow.mtr.excl.contains 0 = false ∧ shadow.flag R.MTR_STAT_IMG_DIFF = false := by decide +kernel
/-- Meets hypotheses of MortarFrames. -/
theorem wit_hello : (pairLive .detached).mtr.paired = true ∧ helloB.sysRev = 0 ∧ ({ helloB with sysRev := (pairLive .detached).sysRev, sysId := (pairLive .detached).get R.SYS_ID_DEVICE } : Hello).memberB ≠ (pairLive .detached).flag R.MTR_STAT_MEMBER ∧
    ((pairLive .detached).setFlag R.MTR_STAT_LINK_UP false).linkUp = false ∧ helloB.role = .holder ∧ (pairLive .detached).mtr.copyMiss = 0 := by decide +kernel
/-- Meets hypotheses of MortarFrames. -/
theorem wit_hello_of_another_revision : ({ helloB with sysRev := 9 } : Hello).sysRev ≠ (pairLive .detached).sysRev := by decide +kernel

/-- Meets hypotheses of KeystoneAndDeviceCommands. -/
theorem wit_keystone : (pairLive .ready).mtr.role = .ready ∧ (pairLive .ready).dev = .run ∧ (pairLive .ready).mtr.granted = none ∧ ({ (pairLive .ready).mtr with margin := some 0 } : Mtr).margin = some (pairLive .ready).crs.cnt ∧ (pairLive .ready).mtr.retry ≤ (pairLive .ready).crs.cnt ∧
    (pairLive .ready).mtr.peerAct = false ∧ ({ (pairLive .ready).mtr with granted := some 4 } : Mtr).granted = some 4 ∧ (pairLive .ready).crs.cnt ≤ 4 ∧ (pairLive .ready).mtr.renewed ≠ some (pairLive .ready).crs.cnt ∧ (pairLive .ready).mtr.copySch = none := by decide +kernel
theorem test_claim_is_confirmed : (after .claimConfirm { pairLive .ready with mtr := { (pairLive .ready).mtr with probing := true } }).mtr.role = .holder := by decide +kernel
/-- Meets hypotheses of KeystoneAndDeviceCommands. -/
theorem wit_weather : 0 + 3000000 ≤ ({ pairLive .holder with now := 3000000 } : State).now ∧ (pairLive .holder).flag R.WX_STAT_VALID = true ∧ (pairLive .holder).now < (pairLive .holder).mtr.wxAt + 3000000 ∧ ({ live with tst := { live.tst with run := .quick } } : State).tst.run = .quick := by decide +kernel
/-- Meets hypotheses of KeystoneAndDeviceCommands. -/
theorem wit_handover : (pairLive .holder).reach 0x800E0000 = true ∧ (pairLive .holder).mtr.holder = true ∧ (pairLive .holder).peerReady = true ∧ (pairLive .holder).flag R.WX_STAT_OUT_SYNC = true ∧ (pairLive .holder).flag R.WX_STAT_JNL_SYNC = true ∧
    ({ helloB with sfc := (pairLive .holder).mtr.sfc } : Hello).sfc = (pairLive .holder).mtr.sfc := by decide +kernel
/-- A released device command of an opcode, first in line. -/
def devCmd (s : State) (op : Nat) (body : List Nat) : State := { s with mtr := { s.mtr with jnl := { Jnl.init with ents := [(0, some { jent with st := 3, opcode := op, body := body })] } } }
/-- Meets hypotheses of KeystoneAndDeviceCommands. -/
theorem wit_device_commands : ((devCmd live 0x8004 []).jnl.next (fun o => o == 0x8004)).isSome = true ∧ (devCmd live 0x8004 []).leads = true ∧ (devCmd live 0x8004 []).dev = .run ∧ live.root = false ∧
    (let u := put { live with tim := { live.tim with last := some (50, 0) } } [(R.CAS_CFG_ROOT, 1)]; u.root = true ∧ u.tim.last = some (50, 0) ∧ u.now ≤ 0 + 1000000000 ∧ u.lineStill = true) ∧
    (let u : State := { live with dev := .safeHold, holdBy := [.host] }; u.allStill = true ∧ u.holdBy.all u.holdGone = true) ∧ (axMoving.allStill = false) := by decide +kernel
/-- Meets hypotheses of KeystoneAndDeviceCommands. -/
theorem wit_schedule_command : (onRing 3).crs.swTo = none ∧ (onRing 3).heads = true ∧ (onRing 3).subPosition = false ∧ (onRing 3).schedIn 1 = true ∧ (devCmd (onRing 3) 0x8003 [1]).leads = true ∧ ((devCmd (onRing 3) 0x8003 [1]).jnl.next (fun o => o == 0x8003)).isSome = true := by decide +kernel
theorem test_safe_hold_enters : (after .safeHoldEnter (devCmd live 0x8004 [])).dev = .safeHold := by decide +kernel

/-- Meets hypotheses of JournalAndHostMessages. -/
theorem wit_journal : live.reach 0x800E0208 = true ∧ live.jnl.fwNext = none ∧ (devCmd live 5 []).jnl.fwNext.isSome = true ∧ live.reach 0x800E020C = true ∧ ((devCmd live 5 []).jnl.ent 0).isSome = true ∧ (devCmd live 5 []).leads = true ∧ (pairLive .ready).leads = false ∧ live.jnl.ent 255 = none ∧ ({ jent with st := 1 } : JEnt).st ≠ 3 := by decide +kernel
/-- A client's slot, last used at time 0. -/
def slotted : State := { live with now := 60000000000, mtr := { live.mtr with jnl := { Jnl.init with cls := [(2, some ⟨9, 1, 0⟩)] } } }
/-- Meets hypotheses of JournalAndHostMessages. -/
theorem wit_client_slot : Store.get none slotted.jnl.cls 2 = some ⟨9, 1, 0⟩ ∧ 0 + 60000000000 ≤ slotted.now ∧ slotted.jnl.all.all (fun x => x.2.client != 9 || x.2.st == 4) = true := by decide +kernel

/-! The host port, device time. -/

/-- A message of the Dripota protocol. -/
def drip (kind dev opcode : Nat) (body : List Nat) : List Nat :=
  let b := leBytes 0x4450 2 ++ [1, kind] ++ leBytes 9 2 ++ [dev, 0] ++ leBytes 1 4 ++ leBytes opcode 2 ++ [0, 0] ++ leBytes body.length 2 ++ [0, 0] ++ body
  b ++ leBytes (crc32c b) 4
/-- It as a UDP payload. -/
def udpOf (b : List Nat) : Udp := ⟨true, b.map (BitVec.ofNat 8), 0x0A000002, 5000, 40961, false⟩
/-- The host port active with its link up. -/
def hostLive : State := put live [(R.HST_STAT_ACTIVE, 1), (R.HST_STAT_LINK, 1), (R.CAS_CFG_ROOT, 1)]
/-- Meets hypotheses of JournalAndHostMessages. -/
theorem wit_host_messages : hostLive.hostOn = true ∧ (dparse (drip 1 0 5 [1, 2])).isSome = true ∧ (dparse (drip 0x10 0 5 [])).isSome = true ∧ dparse [1, 2, 3] = none ∧ (udpOf []).taken = true ∧ kindOk 1 40962 = false ∧ bits 0 0 6 = hostLive.get R.CAS_CFG_POS ∧ hostLive.leads = true ∧
    (match (hostLive.jJudge 9 1 5 [1, 2]).1 with | .written _ _ => true | _ => false) = true ∧ (hostLive.get R.HST_FWQ_RXPTR_HEAD + 1) % 16 ≠ hostLive.get R.HST_FWQ_RXPTR_TAIL ∧ ((put hostLive [(R.HST_FWQ_RXPTR_HEAD, 15)]).get R.HST_FWQ_RXPTR_HEAD + 1) % 16 = 0 := by decide +kernel
theorem test_command_enters_journal : (after (.command (udpOf (drip 1 0 5 [1, 2]))) hostLive).get R.HST_RX_CNT_GOOD = 1 := by decide +kernel
/-- Meets hypotheses of JournalAndHostMessages. -/
theorem wit_transmit : live.reach 0x800F003C = true ∧ (let u := (hostLive.poke (cells (fwSlot (hostLive.get R.HST_FWQ_TXBASE_BASE) 0) (24 + 5000 * 65536) 4)); 24 ≤ u.load (fwSlot (u.get R.HST_FWQ_TXBASE_BASE) (u.get R.HST_FWQ_TXPTR_TAIL)) 2 ∧ u.root = true ∧
    (({ u with hst := { u.hst with arp := [(0, 7, 0)] } } : State).macOf (u.hop 0)).isSome = true) := by decide +kernel
/-- Meets hypotheses of HostPort. -/
theorem wit_host_port : hostLive.hst.busy = false ∧ ({ hostLive.hst with busy := true } : Hst).busy = true ∧ hostLive.reach 0x800F0020 = true ∧ hostLive.get R.HST_IP_IP = 0 ∧ hostLive.now < hostLive.hst.echoAt + 1000000000 ∧ hostLive.hst.echoes < 100 ∧
    0 + 1000000000 ≤ ({ hostLive with now := 1000000000 } : State).now ∧ (put hostLive [(R.HST_MDIO_OP, 2)]).get R.HST_MDIO_OP = 2 := by decide +kernel
/-- A message of the master, sequence number 4. -/
def ptpMsg : Ptp := ⟨0, 77, 1, 4, false, 0, 1000⟩
/-- A data set. -/
def ann : Ann := ⟨77, 1, 128, 6, 0x21, 0, 128, 77, 0⟩
/-- The PTP client LOCKED to that master. -/
def ptpLive : State := put { hostLive with now := 2000000000, tim := { hostLive.tim with master := some ann, delays := [200], syncAt := 1000000000, sync := some (4, 900, 0), dreq := some (4, 500), pair := some (10, 200) } } [(R.TIM_CFG_PTP_EN, 1), (R.TIM_STAT_STATE, 2), (R.TIM_CFG_JUMP_TH, 10)]
/-- Meets hypotheses of DeviceTimeMessages. -/
theorem wit_ptp : ptpLive.ofMaster ptpMsg = true ∧ ptpLive.ptpOn = true ∧ ptpLive.tim.master ≠ none ∧ ptpLive.ptpOk ptpMsg = true ∧ ptpLive.timSt = 2 ∧ ptpLive.tim.sync = some (4, 900, 0) ∧ ptpLive.now - ptpLive.tim.syncAt ≠ 0 ∧ ptpLive.tim.cands = [] ∧ ptpLive.tim.mpd = some 100 ∧
    ({ ptpMsg with domain := 1 } : Ptp).domain ≠ ptpLive.get R.TIM_CFG_DOMAIN ∧ ((900 - 800 - 100 - 0 : Int).natAbs : Int) ≤ ptpLive.jumpTh ∧ (ptpLive.jumpTh : Int) < (900 - 100000 - 100 - 0 : Int).natAbs := by decide +kernel
theorem test_offset_of_a_sync : (after (.followUp ptpMsg 790) ptpLive).get R.TIM_OFS_OFS = 10 := by decide +kernel

/-! The cascade, pins and boundary scan. -/

/-- A stop of the cascade below the root, inserted and synchronised. -/
def casLive : State := put { (onRing 3) with cas := { live.cas with a := { Port.init with sync := true }, run := 16 } } [(R.CAS_CFG_EN, 1), (R.CAS_CFG_POS, 5), (R.CAS_STAT_STATE, 3), (R.CAS_STAT_BYP, 1), (R.CAS_STAT_PLANNED, 1)]
/-- Whether a frame is the first copy of one for this stop. -/
def casTakes (s : State) (f : CFrm) (type : Nat) (key : List Nat) : Bool :=
  s.casEn && decide (2 ≤ s.get R.CAS_STAT_STATE) && f.crcOk && (f.src.val != s.get R.CAS_CFG_POS || f.memberB != s.flag R.MTR_STAT_MEMBER) && (f.dest == 0xFF || f.dest == s.get R.CAS_CFG_POS) && !s.cas.acted.contains (type, f.src.val * 2 + b2n f.memberB, key)
/-- Meets hypotheses of CascadeFramesAndBootChain. -/
theorem wit_cascade_frames : casTakes casLive cfrm 1 [] = true ∧ casTakes casLive cfrm 2 [] = true ∧ casTakes casLive { cfrm with dest := 5 } 6 [1] = true ∧ casLive.root = false ∧ (casLive.cas.port false).meas = false ∧ casLive.markBad mrk = false ∧ casLive.markBad { mrk with sched := 3 } = true ∧
    casTakes casLive cfrm 5 [0] = true ∧ live.get R.CAS_STAT_STATE < 2 ∧ ({ casLive with cas := { casLive.cas with a := { casLive.cas.a with meas := true } } } : State).cas.a.meas = true ∧ casLive.crs.tick = none ∧
    casLive.get R.CAS_STAT_STATE = 3 ∧ mrk.stepSeq = casLive.cas.stepSeq ∧ casLive.schedIn mrk.next = true ∧ ({ cfrm with crcOk := false } : CFrm).crcOk = false ∧ (after (.setp cfrm []) casLive).cas.acted.contains (2, 2, []) = true := by decide +kernel
/-- Meets hypotheses of CascadeFramesAndBootChain. -/
theorem wit_mark_missing : casLive.cas.seen = none ∧ casLive.cas.miss = 0 ∧ 1 ≤ ({ casLive.cas with miss := 1 } : Cas).miss ∧ 16 ≤ casLive.cas.run ∧ (put casLive [(R.CAS_STAT_STATE, 2)]).get R.CAS_STAT_STATE = 2 ∧ casLive.dev = .run ∧ live.cas.run < 16 := by decide +kernel
theorem test_setp_writes_the_shared_record : (after (.setp cfrm ((leBytes 2 4 ++ List.replicate 16 9).map (BitVec.ofNat 8))) casLive).byte (sharedRec 1 1 + 15) = 9 := by decide +kernel
/-- Meets hypotheses of CascadeFramesAndBootChain. -/
theorem wit_cascade_messages : (dparse (drip 1 5 5 [])).isSome = true ∧ (match (casLive.jJudge 9 1 5 []).1 with | .written _ _ => true | _ => false) = true ∧ casLive.leads = true ∧
    (let u := put { casLive with hst := { casLive.hst with clients := [(9, 1, 2)], arp := [(1, 7, 0)] } } [(R.CAS_CFG_ROOT, 1), (R.HST_STAT_LINK, 1)]; u.root = true ∧ (u.hst.clients.find? (fun y => y.1 == 9)).isSome = true ∧ (u.macOf (u.hop 1)).isSome = true) := by decide +kernel
/-- Meets hypotheses of CascadeFramesAndBootChain. -/
theorem wit_presence : Store.get none ({ casLive.cas with last := [(9, some 4)] } : Cas).last 9 = some 4 ∧ 4 + 32 ≤ ({ casLive with crs := { casLive.crs with cnt := 36 } } : State).crs.cnt := by decide +kernel
/-- Meets hypotheses of CascadeFramesAndBootChain. -/
theorem wit_planned_frames : casLive.casIn = true ∧ casLive.leads = true ∧ casLive.flag R.CAS_STAT_PLANNED = true ∧ ({ casLive with crs := { casLive.crs with cnt := 16 } } : State).crs.cnt % 16 = bits (casLive.planOf 5) 20 4 := by decide +kernel
/-- Meets hypotheses of CascadeFramesAndBootChain. -/
theorem wit_boot_chain : (put live [(R.CAS_BOOT_ROLE, 2)]).chainRole = 2 ∧ (put live [(R.CAS_BOOT_ROLE, 1)]).chainRole = 1 ∧ bit (live.get R.CAS_BOOT_FAIL) 15 = false := by decide +kernel
/-- Meets hypotheses of BoundaryScanAndPins. -/
theorem wit_pins : live.reach 0x80160008 = true ∧ live.reach 0x8016000C = true ∧ (true) ≠ live.gpioIn 0 ∧ (false) = live.gpioIn 31 ∧ live.get (R.SYS_PINFUNC_MODE 0) ≠ 3 ∧
    (onRing 3).ringEn 0 = true ∧ casLive.casEn = true ∧ (live.resetPin true).rstLow = true ∧ live.rstLow = false := by decide +kernel
theorem test_gpio_set : (after (.gpioSet 0x80000001) live).get R.GPIO_OUT_OUT = 0x80000001 := by decide +kernel

/-! The application cores. Core 0 runs at the start of application SRAM. -/

/-- Core 0 at a word, with X1 pointing to SRAM and X2 = 7. -/
def coreAt (w : Nat) : State :=
  (live.poke (cells 0x10000000 w 4)).setCore 0 { Core.init with pc := 0x10000000, x := [0, 0x10000100, 7] ++ List.replicate 29 0, csr := [(csrMstatus, 0x2000)] }
/-- Core 0 comes to an instruction, with nothing at the boundary in its place. -/
def comesTo (w : Nat) (i : Rv) : Bool := ((coreAt w).quiet.boundary 0).isNone && (match ((coreAt w).quiet.comes 0).2 with | .ok (some j, _, _) => decide (i = j) | _ => false)
/-- Meets hypotheses of CoreInstructions. -/
theorem wit_core_words : comesTo 0x123452B7 (.lui 5 0x12345000) = true ∧ comesTo 0x002081B3 (.alu .add 3 1 2) = true ∧ comesTo 0xFFF08193 (.alui .add 3 1 0xFFFFFFFF) = true ∧ comesTo 0x00208463 (.branch .eq 1 2 8) = true ∧ comesTo 0x000280E7 (.jalr 1 5 0) = true ∧
    comesTo 0x003100D3 (.farith .add 1 2 3 0) = true ∧ comesTo 0x340091F3 (.csr .rw false 3 1 0x340) = true ∧ comesTo 0x30200073 .mret = true ∧ comesTo 0x00000073 .ecall = true := by decide +kernel
/-- Meets hypotheses of CoreInstructions. -/
theorem wit_core_memory_words : comesTo 0x0000A183 (.load 4 true 3 1 0) = true ∧ comesTo 0x0020A023 (.store 4 1 2 0) = true ∧ comesTo 0x0000100F .fenceI = true ∧ comesTo 0x1000A1AF (.lr 3 1) = true ∧ comesTo 0x1820A1AF (.sc 3 1 2) = true ∧
    comesTo 0x0020A1AF (.amo .add 3 1 2) = true ∧ comesTo 0x10500073 .wfi = true := by decide +kernel
/-- Meets hypotheses of CoreInstructions. -/
theorem wit_core_conditions : let u := (coreAt 0).quiet
    (u.core 0).fpOn = true ∧ (u.core 0).rm 0 = some 0 ∧ u.csrRead 0 0x340 = some 0 ∧ (u.core 0).csrMay 0x340 = true ∧ bits 0x340 10 2 ≠ 3 ∧ (u.core 0).machine = true ∧ 0x10000100 % 4 = 0 ∧ inSram 0x10000100 = true ∧ (u.core 0).dataOk 0x10000100 4 0 = true ∧
    (u.core 0).dataOk 0x10000100 4 1 = true ∧ u.poisoned 0x10000100 4 = false ∧ u.domUp 2 = true ∧ (u.core 0).res ≠ some 0x10000100 := by decide +kernel
/-- Meets hypotheses of CoreInstructions. -/
theorem wit_illegal_word : (match ((coreAt 0).quiet.comes 0).2 with | .ok (none, _, _) => true | _ => false) = true := by decide +kernel
theorem test_amo_adds : (after (.amo 0) (coreAt 0x0020A1AF)).load 0x10000100 4 = 7 := by decide +kernel
theorem test_sc_without_reservation : (((after (.scW 0) (coreAt 0x1820A1AF)).core 0).getX 3, (after (.scW 0) (coreAt 0x1820A1AF)).load 0x10000100 4) = (1, 0) := by decide +kernel

/-! The scheduler: records at 0x10000000, all with PRIO 4 and AFFIN 15 in thread 1. -/

/-- Thread 1 in a state, with its record. -/
def schLive (st : ThrSt) : State := { (live.poke (cells (0x10000000 + 512 + 264) 0x0F04 2)) with sch := { live.sch with thr := [(1, ⟨st, 4, 15, 0⟩)], cur := [252, 1, 254, 255] } }
/-- Meets hypotheses of SchedulerCommands. -/
theorem wit_scheduler : (schLive .dormant).reach 0x80120010 = true ∧ (schLive .dormant).reach (0x80120010 + 8 * 3) = true ∧ (schLive .blocked).load ((schLive .blocked).tcb 1 + 264) 1 = 4 ∧ (schLive .blocked).load ((schLive .blocked).tcb 1 + 265) 1 % 16 ≠ 0 ∧
    (schLive .dormant).load ((schLive .dormant).tcb 2 + 265) 1 % 16 = 0 ∧ ((schLive .running).thr 1).st = .running ∧ (schLive .running).sch.cur.findIdx? (fun y => y == 1) = some 1 ∧ (schLive .running).running 1 < 252 ∧ 252 ≤ (schLive .running).running 0 := by decide +kernel
theorem test_make_ready_takes_its_record : ((after (.makeReady 0 1 false) (schLive .dormant)).thr 1) = ⟨.ready, 4, 15, 0⟩ := by decide +kernel
/-- Meets hypotheses of SchedulerCommands. -/
theorem wit_switch_of_context : let u : State := { schLive .ready with sch := { (schLive .ready).sch with slot := [(0, some (1, List.replicate 77 0))], atOnce := [0] } }
    Store.get none u.sch.slot 0 = some (1, List.replicate 77 0) ∧ u.coreRuns 0 = true ∧ u.switchPoint 0 = true ∧ u.sch.cur.length = 4 ∧ 1 ≠ u.running 0 := by decide +kernel
/-- Meets hypotheses of SchedulerCommands. -/
theorem wit_release_and_timers : live.reach 0x80120004 = true ∧ bit (live.get R.SCH_CORE_RUN_RUN) 2 = false ∧ live.reach (0x80120084 + 8 * 3) = true ∧ live.sch.tcmp.length = 4 ∧ Store.get none live.sch.slot 0 = none ∧ (put live [(R.SCH_EVT_COURSE, 1)]).irqLevel 0 = true ∧ bit ((put live [(R.SCH_IRQ_EN_EN 0, 1)]).get (R.SCH_IRQ_EN_EN 0)) 0 = true := by decide +kernel

/-! DMA: channel 0 copies 8 bytes with a descriptor at 0x10000040. -/

/-- The descriptor. -/
def dmaD : DDesc := ⟨0x10000000, 0x10000100, 8, 1, 0, 0, 0, 0x30⟩
/-- Channel 0 with the descriptor in memory and REQ. -/
def dmaIn (req : Nat) : State := put (live.poke (words 0x10000000 [1, 2] ++ words 0x10000040 [0x10000000, 0x10000100, 8, 1, 0, 0, 0, 0x30])) [(R.DMA_CH_DESC_DESC 0, 0x10000040), (R.DMA_CH_CFG_REQ 0, req)]
/-- Channel 0 ACTIVE on it. -/
def dmaRun : State := (put (dmaIn 0) [(R.DMA_CH_STAT_STATE 0, 2), (R.DMA_CH_COUNT_COUNT 0, 8)]).setDch 0 ⟨some dmaD, [], 0, 0, 0⟩
/-- Meets hypotheses of DmaChannelsAndTransfers. -/
theorem wit_dma_start : (dmaIn 0).reach 0x80130100 = true ∧ (dmaIn 0).dmaBusy 0 = false ∧ dmaRun.dmaBusy 0 = true ∧ (dmaIn 0).flag R.DMA_STAT_HALTED = false ∧ region 0x10000040 = some .sram ∧ 0x10000040 % 32 = 0 ∧ (dmaIn 0).poisoned 0x10000040 32 = false ∧
    dmaD = descOf ((List.range 8).map (fun i => (dmaIn 0).load (0x10000040 + 4 * i) 4)) ∧ dmaD.kind = 0 ∧ dmaD.ok [] = true ∧ (dmaIn 9).get (R.DMA_CH_CFG_REQ 0) = 9 ∧ 10 ≤ (dmaIn 10).get (R.DMA_CH_CFG_REQ 0) ∧ ({ dmaD with rows := 2 } : DDesc).ok [] = false := by decide +kernel
/-- Meets hypotheses of DmaChannelsAndTransfers. -/
theorem wit_dma_running : dmaRun.get (R.DMA_CH_STAT_STATE 0) = 2 ∧ (dmaRun.dch 0).desc = some dmaD ∧ region dmaD.dst = some .sram ∧ dmaRun.domUp 2 = true ∧ dmaRun.poisoned dmaD.src dmaD.count = false ∧ (dmaRun.dch 0).moved = 0 ∧ (dmaRun.dch 0).next = 0 ∧
    dmaD.halfEv = true ∧ 2 ≤ dmaD.count ∧ dmaD.src + dmaD.count ≤ dmaD.dst ∧ (live.dch 0).desc = none ∧ ({ dmaRun.dch 0 with moved := 7 } : DCh).moved = dmaD.total [] - dmaD.beat := by decide +kernel
theorem test_dma_copies : (let t := after (.descriptorComplete 0) dmaRun; (t.load 0x10000100 8, t.get (R.DMA_CH_STAT_STATE 0), t.get R.DMA_FULL_FULL)) = (1 + 2 * 2 ^ 32, 3, 1) := by decide +kernel
/-- Meets hypotheses of DmaChannelsAndTransfers. -/
theorem wit_dma_requests : (dmaIn 9).dmaReqDue 9 = true ∧ (dmaIn 9).dmaReqDue 1 = false ∧ (∀ m, m < 32 → m ≠ 0 → (dmaIn 9).get (R.DMA_CH_CFG_REQ m) ≠ 9) ∧ ({ (dmaIn 1) with cap := { (dmaIn 1).cap with reqs := [0] } } : State).dmaReqDue 1 = true ∧
    15 ≤ (put (dmaIn 9) [(R.DMA_CH_STAT_PEND 0, 15)]).get (R.DMA_CH_STAT_PEND 0) := by decide +kernel
/-- Meets hypotheses of DmaChannelsAndTransfers. -/
theorem wit_dma_recover : live.reach 0x80130000 = true ∧ live.flag R.DMA_STAT_HALTED = false ∧ (put dmaRun [(R.DMA_STAT_HALTED, 1)]).flag R.DMA_STAT_HALTED = true ∧
    (∀ m, m < 32 → (dmaRun.get (R.DMA_CH_STAT_STATE m) = 2 → (dmaRun.dch m).desc.isSome = true) ∧ (dmaRun.get (R.DMA_CH_STAT_STATE m) = 1 → dmaRun.get (R.DMA_CH_STAT_PEND m) = 0)) := by decide +kernel

/-! Clocks, power, resets, self-test, start-up and the NVM port. -/

/-- The device in a state of R6. -/
def devIn (d : Dev) : State := { live with dev := d }
/-- IRC runs, LSX and LRC run. -/
def clkLive : State := put live [(R.CLK_STAT_IRC_OK, 1), (R.CLK_STAT_LSX_OK, 1), (R.CLK_STAT_LRC_OK, 1)]
/-- Meets hypotheses of ClocksGatesAndSupply. -/
theorem wit_clocks : clkLive.dev ≠ .off ∧ bit (clkLive.get R.CLK_FAIL_SRC_FAILED) 0 = false ∧ bit (clkLive.get R.CLK_FAIL_SRC_FAILED) 1 = false ∧ bit (clkLive.get R.CLK_FAIL_SRC_FAILED) 2 = false ∧ live.flag R.CLK_STAT_LSX_OK = false ∧ clkLive.flag R.CLK_STAT_HSX_OK = true ∧
    (put live [(R.CLK_STAT_HSX_OK, 0)]).flag R.CLK_STAT_HSX_OK = false ∧ clkLive.flag R.CLK_STAT_IRC_OK = true ∧ (20000 : Int).natAbs ≤ 20000 ∧ ¬ (20001 : Int).natAbs ≤ 20000 ∧ 10000 < (-10001 : Int).natAbs ∧ clkLive.flag R.CLK_STAT_LRC_OK = true := by decide +kernel
theorem test_slow_source_fails : (let t := after (.clockMonitorWindow 20000 none (-20001) 0 0) clkLive; (t.get R.CLK_FAIL_SRC_FAILED, t.flag R.CLK_STAT_AO_SRC, t.dev)) = (2, true, .run) := by decide +kernel
/-- In RUN with PD8 down, which the image leaves unpowered, and no block's clock on. -/
def leftOut : State := put { live with pwr := { live.pwr with imgDoms := 0xEFE } } [(R.PWR_DOM_ON, 0xEFF), (R.CLK_GATE_EN, 0)]
/-- Meets hypotheses of ClocksGatesAndSupply. -/
theorem wit_gates : bit (live.get R.CLK_GATE_EN) 0 = true ∧ live.gateRefused 0 = true ∧ live.gateRefused 17 = false ∧ bit ((put live [(R.CLK_GATE_PEND_PEND, 1)]).get R.CLK_GATE_PEND_PEND) 0 = true ∧ bit (live.get R.CLK_GATE_PEND_PEND) 17 = false ∧ ({ live.pwr with muxAo := true } : Pwr).muxAo = true ∧
    live.pwr.muxFast = false ∧ ({ live.pwr with fed := true } : Pwr).fed = true ∧ live.pwr.fed = false ∧ ((devIn .reset).resetPin true).dev = .reset ∧ ((devIn .reset).resetPin true).rstLow = true ∧ live.rstLow = false ∧ (∀ j, j < 18 → live.leftOff (gateDom j) = false) ∧ leftOut.leftOff (gateDom 3) = true ∧ bit (leftOut.get R.CLK_GATE_EN) 3 = false := by decide +kernel
theorem test_gate_close_refused_in_run : (let t := after (.clockGateWrite 0x3FFFE 0) live; (t.get R.CLK_GATE_EN, t.flag R.CLK_STAT_GATE_ERR)) = (0x3FFFF, true) := by decide +kernel
/-- Meets hypotheses of PowerStatesAndResets. -/
theorem wit_resets : live.dev ≠ .off ∧ live.rstLow = false ∧ ({ live.pwr with wdtOn := true } : Pwr).wdtOn = true ∧ live.dev ≠ .reset ∧ live.pwr.wdtOn = false ∧ ({ (devIn .reset).pwr with cause := some .clock } : Pwr).cause = some .clock ∧ (devIn .reset).flag R.CLK_STAT_HSX_OK = true ∧ (devIn .off).dev = .off := by decide +kernel
theorem test_software_reset_counts : (let t := after .softwareReset live; (t.get R.PWR_RST_CNT_WARM, t.dev)) = (1, .reset) := by decide +kernel
/-- Meets hypotheses of PowerStatesAndResets. -/
theorem wit_wake : (devIn .watch).dev = .watch ∧ (put (devIn .watch) [(R.PWR_WAKE_GPIO0_EN, 1)]).flag R.PWR_WAKE_GPIO0_EN = true ∧ (put (devIn .watch) [(R.PWR_WAKE_GPIO0_FALL, 1)]).flag R.PWR_WAKE_GPIO0_FALL = true ∧ (devIn .watch).flag R.PWR_WAKE_ALARM_EN = false ∧ live.dev ≠ .watch := by decide +kernel
/-- Meets hypotheses of PowerStatesAndResets. -/
theorem wit_power_states : (devIn .standby).faultFree = true ∧ (put (devIn .standby) [(R.SAF_STAT_STATE, 4)]).faultFree = false ∧ live.dev = .run ∧ (∀ x ∈ live.axes, x.2.enabled = false) ∧ (∃ x ∈ axMoving.axes, x.2.enabled = true) ∧ (∀ x ∈ (devIn .standby).jnl.all, x.2.st = 4) ∧
    (∃ x ∈ (devCmd (devIn .standby) 5 []).jnl.all, x.2.st ≠ 4) ∧
    (decide (2 ≤ (onRing 3).get R.BOND_START_STATE) && (onRing 3).ringsEn.any (onRing 3).inserted) = true ∧ (decide (2 ≤ live.get R.BOND_START_STATE) || live.bond.coast) = false ∧ (∀ x ∈ live.axes, x.2.enabled = false) := by decide +kernel
/-- Meets hypotheses of PowerStatesAndResets. -/
theorem wit_domain_requests : (∀ j ∈ allDoms, bit 0x800 j ≠ ((devIn .standby).domUp j || (devIn .standby).pwr.rising.contains j) → bit (devIn .standby).pwr.imgDoms j = true) ∧ 5 ∈ allDoms ∧ bit 0 5 ≠ ((devIn .standby).domUp 5 || (devIn .standby).pwr.rising.contains 5) ∧
    bit ({ (devIn .standby).pwr with imgDoms := 0 } : Pwr).imgDoms 5 = false ∧ live.inCourses = true ∧ State.reset.pwr.rising = [2] ∧ State.reset.dev = .boot ∧ live.pwr.rising = [] ∧ (2 : Nat) ≠ 11 := by decide +kernel
theorem test_go_run_enters_run : (after .goRun (devIn .standby)).dev = .run := by decide +kernel

/-- Meets hypotheses of SelfTestBootAndNvm. -/
theorem wit_self_test : live.reach 0x80150000 = true ∧ live.tst.run = .idle ∧ live.tstOn = true ∧ State.reset.tstOn = false ∧ ({ live.tst with run := .round, waits := [.quick] } : Tst).run = .round ∧ TstRun.round ∉ ({ live.tst with run := .quick } : Tst).waits ∧ (99#8).toNat < 100 ∧ ¬ (100#8).toNat < 100 ∧
    unitOk 0 = false ∧ unitOk 1 = true ∧ unitOk 40 = true ∧ live.clocked 0x80150000 = true ∧ memAt 0 0x10000000 = true ∧ live.domUp (poisonDom (0, 0x10000000)) = true ∧ live.domUp (poisonDom (8, 0)) = true ∧ 32 ≤ (40#8).toNat ∧ (31#8).toNat < 32 ∧ live.domUp 2 = true ∧ bit (live.get R.CLK_GATE_EN) 16 = true ∧ (live.mtr.paired = false) ∧ live.sliceWaits 1 0 = false ∧ leEvent.sliceWaits 1 0 = true := by decide +kernel
theorem test_full_coverage_ends_the_round : (after (.selfTestSlice 1 0 false true true 100 100) { live with tst := { live.tst with run := .round } }).tst.run = .idle := by decide +kernel
/-- The boot ROM with PD2 up. -/
def booting : State := put (devIn .boot) []
/-- The CLOCKS section with one register record, TARGET 0 at 0x80010010, and the APP_FIRMWARE section with its entry address and one byte at 0x10000000 (R415, R416). -/
def clkBytes : List (BitVec 8) := [0, 0, 0, 0, 0x10, 0, 1, 0x80, 4, 0, 0, 0, 0xFF, 0xFF, 3, 0]
def appBytes : List (BitVec 8) := [0, 0, 0, 0x10, 0, 0, 0, 0, 0, 0, 0, 0x10, 1, 0, 0, 0, 0x13, 0, 0, 0]
/-- It with slot A tried next to load section TYPE `n`. -/
def bootAt (n : Nat) : State := { booting with boot := { Boot.init with hdrs := some (⟨0, false, 1, 4096, false, [(0, 0, 0), (0, 16, crc32 (clkBytes.map BitVec.toNat)), (0, 0, 0), (0, 0, 0), (0, 0, 0), (0, 0, 0), (0, 0, 0), (0, 20, crc32 (appBytes.map BitVec.toNat)), (0, 0, 0)], []⟩, ⟨3, false, 0, 0, false, [], []⟩), slot := some false, first := some false, done := n - 1 } }
/-- Meets hypotheses of SelfTestBootAndNvm. -/
theorem wit_boot : booting.dev = .boot ∧ booting.flag R.PWR_STAT_BOOT_ERR = false ∧ booting.domUp 2 = true ∧ booting.boot.hdrs = none ∧ booting.get R.CAS_BOOT_ROLE = 0 ∧ booting.chainRole ≠ 2 ∧ (bootAt 2).boot.hdrs.isSome = true ∧ (bootAt 2).boot.slot = some false ∧
    (2 : Nat) = (bootAt 2).boot.done + 1 ∧ (bootAt 2).pwr.rising = [] ∧ (bootAt 10).boot.done = 9 ∧ (bootAt 2).boot.spans.any (spansMeet (0, 0x80010010, 4)) = false ∧ (bootAt 8).boot.spans.any (spansMeet (9, 0, 1)) = false ∧ (bootAt 3).boot.done + 1 = 3 := by decide +kernel
/-- The two sections as read, the second with a first read that failed. -/
def clkRead : SecRead := ⟨false, 2, clkBytes, clkBytes, [], true⟩
def appRead : SecRead := ⟨false, 8, appBytes.set 0 1, appBytes, [], true⟩
/-- Meets hypotheses of SelfTestBootAndNvm. -/
theorem wit_sections : ((bootAt 2).slotHdr.bind (fun h => clkRead.judge (h.dir.getD 1 (0, 0, 0)))) = some ⟨false, 2, true, true, [.reg 0x80010010 0x3FFFF], true⟩ ∧
    ((bootAt 8).slotHdr.bind (fun h => appRead.judge (h.dir.getD 7 (0, 0, 0)))) = some ⟨false, 8, false, true, [.entry 0x10000000, .mem 0x10000000 [0x13]], true⟩ ∧
    ((bootAt 8).slotHdr.bind (fun h => clkRead.judge (h.dir.getD 7 (0, 0, 0)))) = none := by decide +kernel
theorem test_sections_load : ((after (.sectionLoad ⟨0, false, false, false⟩ ⟨[], [], []⟩ ⟨[], [], []⟩ clkRead) (bootAt 2)).boot.done,
    (after (.sectionLoad ⟨0, false, false, false⟩ ⟨[], [], []⟩ ⟨[], [], []⟩ appRead) (bootAt 8)).byte 0x10000000) = (2, 0x13) := by decide +kernel
/-- A header of format 1 with a GEN, nine sections of 16 bytes each 256 bytes apart, and its CRC (R413, R414). -/
def hdrBytes (gen : Nat) : List (BitVec 8) :=
  let h := leBytes 0x4F58494D 4 ++ leBytes 1 2 ++ leBytes 256 2 ++ leBytes 0x4F580192 4 ++ leBytes (live.get R.SYS_REV_MAJOR) 2 ++ leBytes (live.get R.SYS_REV_MINOR) 2 ++ leBytes gen 4 ++ leBytes 2592 4 ++ leBytes 2560 4 ++ leBytes 0 68 ++
    (List.range 9).flatMap (fun i => leBytes (i + 1) 4 ++ leBytes (256 * (i + 1)) 4 ++ leBytes 16 4 ++ leBytes 0 4) ++ leBytes 0 12
  (h ++ leBytes (crc32 h) 4).map (BitVec.ofNat 8)
/-- Meets hypotheses of SelfTestBootAndNvm. -/
theorem wit_headers : (let a := booting.hdrOf 65536 ⟨hdrBytes 5, [], []⟩; let b := booting.hdrOf 65536 ⟨(hdrBytes 6).set 252 0, hdrBytes 6, []⟩; (a.code, a.again, a.gen, b.code, b.again, b.gen)) = (0, false, 5, 0, true, 6) ∧
    (booting.hdrOf 65536 ⟨[], [], []⟩).code = 1 ∧ (booting.hdrOf 2048 ⟨hdrBytes 5, hdrBytes 5, []⟩).code = 3 ∧
    (let u : State := put { booting with chain := { booting.chain with image := [(0, (hdrBytes 5).map BitVec.toNat ++ List.replicate 2336 0)] } } [(R.CAS_BOOT_ROLE, 2)]; u.chainRole = 2 ∧ u.chain.has 256 = true ∧ u.chainHdr.code = 0 ∧ u.chain.has u.chainHdr.len = true ∧ booting.chain.has 256 = false) := by decide +kernel
theorem test_boot_completes : (after (.bootComplete [] true true true true []) (bootAt 10)).dev = .standby := by decide +kernel
/-- STANDBY with a 128 KiB NVM and the loaded image in its first bytes. -/
def nvmLive : State := { devIn .standby with boot := { live.boot with nvm := ⟨128, false, true, true⟩, protect := some (4096, 8192) } }
/-- Meets hypotheses of SelfTestBootAndNvm. -/
theorem wit_nvm : live.reach 0x80140040 = true ∧ nvmLive.flag R.NVM_CMD_GO = false ∧ nvmLive.dev = .standby ∧ 0x1F000 + 0x1000 ≤ nvmLive.boot.nvm.kib * 1024 ∧ nvmLive.boot.nvm.e4 = true ∧ nvmLive.boot.protect = some (4096, 8192) ∧ 0x2000 < 4096 + 8192 ∧ 4096 < 0x2000 + 0x1000 ∧
    (put nvmLive [(R.NVM_CMD_GO, 1)]).flag R.NVM_CMD_GO = true ∧ nvmLive.boot.nvm.kib * 1024 < 0x20000 + 1 ∧ 255 % 256 + 1 ≤ 256 ∧ live.reach 0x80140224 = true ∧ nvmLive.flag R.NVM_FUSE_LOCK = false := by decide +kernel
theorem test_program_over_the_image : (after (.erase4k 0x2000) nvmLive).flag R.NVM_STAT_WP_ERR = true := by decide +kernel
theorem test_fuse_bits_are_ored : (after (.fuseProgram 7) (put nvmLive [(R.NVM_FUSE_HASH_HASH 7, 5), (R.NVM_BUF_DATA 0, 3)])).get (R.NVM_FUSE_HASH_HASH 7) = 7 := by decide +kernel

/-! Witnesses for the clauses that the states above do not reach. -/

/-- Axis 0 in FAULT with an input that chatters. -/
def chattering : State := (axIn .fault).setAx 0 { (axIn .fault).ax 0 with chatLp := ⟨none, [], 5, true⟩ }
/-- Meets hypotheses of AxisStateCommands. -/
theorem wit_chatter : (chattering.ax 0).st = .fault ∧ bit (chattering.condMask (chattering.ax 0)) 3 = true ∧ bit ((axIn .fault).condMask ((axIn .fault).ax 0)) 3 = false := by decide +kernel
/-- Meets hypotheses of LoopLawGuards. -/
theorem wit_loop_since : let l : Loop := { Loop.init with enabled := true, since := lpIn.crs }
    l.enabled = true ∧ lpIn.crs = l.since ∧ l.enabledAt lpIn.crs = true ∧ ({ l with since := lpIn.crs + 1 } : Loop).enabledAt lpIn.crs = false ∧ lpIn.crs ≠ ({ l with since := lpIn.crs + 1 } : Loop).since ∧ lpIn.missing = false ∧ ({ lpIn with missing := true } : LoopIn).missing = true := by decide +kernel
/-- Set 0 in ARMED, waiting for pin 0, whose last edge may still be a short pulse. -/
def capPend : State := { capLive 2 10 false with cap := { (capLive 2 10 false).cap with pend := [(0, 0, true)] } }
/-- Meets hypotheses of CaptureCommands. -/
theorem wit_capture_pins : let u := (capPend.quiet.settlePins capPend.now).capPush 0 false
    (u.cset 0).open_ = true ∧ (u.cset 0).st ≠ 4 ∧ u.pinsWait (u.cset 0) ((u.cset 0).t0 + (u.cset 0).n * (u.cset 0).tick) = true ∧
    (let v := ((capLive 2 0 false).quiet.settlePins 0).capPush 0 false; v.pinsWait (v.cset 0) ((v.cset 0).t0 + (v.cset 0).n * (v.cset 0).tick) = false ∧ (v.cset 0).rearm ≤ (v.cset 0).t0 + (v.cset 0).n * (v.cset 0).tick) ∧
    capPend.cap.pend = [(0, 0, true)] ∧ (∀ e ∈ capPend.cap.pend, 19 < e.2.1 + 20) ∧ 0 + 20 ≤ 20 ∧ (capPend.cset 0).open_ = true ∧ (capPend.cset 0).ta.fall = !true ∧ 5000 ≤ 4000 + 1000 ∧ 4000 < 5000 ∧ 3999 + 1000 < 5000 := by decide +kernel
/-- The mailbox with a command of OP pending, in a state of SAF_STAT. -/
def mailed (st op : Nat) : State := put (islLive st) [(R.SAF_CMD_GO, 1), (R.SAF_CMD_OP, op)]
/-- Meets hypotheses of IslandDecisionsAndMailbox. -/
theorem wit_island_commands : (mailed 2 1).flag R.SAF_CMD_GO = true ∧ (mailed 2 1).get R.SAF_CMD_OP = 1 ∧ (mailed 2 3).get R.SAF_CMD_OP = 3 ∧ (mailed 3 2).get R.SAF_CMD_OP = 2 ∧ (mailed 3 2).islSt = 3 ∧ (mailed 4 2).islSt = 4 ∧ (mailed 1 2).islSt = 1 ∧ (mailed 2 2).islSt = 2 ∧
    (mailed 2 1).isl.cfg.isSome = true ∧ (mailed 2 1).reach 0x800D0004 = true ∧ (islLive 2).domUp 1 = true ∧ 16 + 3 < (islLive 2).isl.stg.length ∧ bit 8 3 ≠ bit (islLive 2).isl.kf 3 := by decide +kernel

/-- A standby whose engine 0 runs axis 0 and has closed its digest of course 0. -/
def digested : State := { shadow with engs := [(0, { shadow.eng 0 with axes := [0], digCrs := 0 })] }
/-- Meets hypotheses of MortarFrames. -/
theorem wit_digests_compared : digested.ownDigs 0 = some ((0, false) :: List.replicate 11 (0, true)) ∧ (((0, false) :: List.replicate 11 (0, true)).zip [((1 : Nat), false)]).any (fun (x, y) => !x.2 && !y.2) = true ∧ digested.mtr.digs = [] ∧ digested.mtr.holder = false ∧ digested.frameOk ⟨true, 0⟩ = true := by decide +kernel
/-- A member without its link. -/
def unlinked (r : Role) : State := (pairLive r).setFlag R.MTR_STAT_LINK_UP false
/-- Meets hypotheses of MortarFrames. -/
theorem wit_hello_roles : (unlinked .detached).linkUp = false ∧ (unlinked .detached).mtr.role = .detached ∧ (unlinked .detached).mtr.unfit = false ∧ (unlinked .unhealthy).mtr.role = .unhealthy ∧ (unlinked .holder).mtr.holder = true ∧ (unlinked .holder).linkUp = false ∧ (pairLive .ready).linkUp = true := by decide +kernel
/-- A READY standby with the island of a section and its inputs as they stood at the last renewal. -/
def blanking : State := { pairLive .ready with isl := { (islLive 2).isl with renewInps := (islLive 2).isl.inps } }
/-- Meets hypotheses of KeystoneAndDeviceCommands. -/
theorem wit_blanking : blanking.isl.holdBlank = false ∧ blanking.isl.inps[31]?.isSome = true ∧ (blanking.isl.inCfg 31).tp ≠ none ∧ blanking.isl.renewInps[31]?.isSome = true ∧ (live.isl.inCfg 0).tp = none ∧ ({ blanking.mtr with renewed := some 0 } : Mtr).renewed = some blanking.crs.cnt ∧
    ({ blanking.mtr with copySch := some ⟨1, 0, 0, none, 0⟩ } : Mtr).copySch = some ⟨1, 0, 0, none, 0⟩ ∧ ({ blanking.mtr with probing := true, peerAct := true } : Mtr).peerAct = true := by decide +kernel
/-- Meets hypotheses of KeystoneAndDeviceCommands. -/
theorem wit_handover_command : ((devCmd (pairLive .holder) 0x8002 []).jnl.next (fun o => o == 0x8002)).isSome = true ∧ (devCmd (pairLive .holder) 0x8002 []).leads = true ∧ ((devCmd { live with dev := .safeHold, holdBy := [.host] } 0x8005 []).jnl.next (fun o => o == 0x8005)).isSome = true ∧
    ((devCmd live 0x8001 []).jnl.next (fun o => o == 0x8001)).isSome = true := by decide +kernel
/-- An entry of the journal whose check fails. -/
def badEntry : State := { devCmd live 5 [] with tst := { live.tst with poison := [(7, 1020)] } }
/-- Meets hypotheses of JournalAndHostMessages. -/
theorem wit_bad_entry : badEntry.jBad 0 = true ∧ (badEntry.jnl.ent 0).isSome = true ∧ (devCmd live 5 []).jBad 0 = false ∧ (devCmd live 5 []).leads = true ∧ ((devCmd live 5 []).jnl.ent 0).map (fun e => (e.st, e.res)) = some (3, none) ∧ 448 ≤ 448 := by decide +kernel
/-- Meets hypotheses of JournalAndHostMessages. -/
theorem wit_client_slot_kept : Store.get none slotted.jnl.cls 2 = some ⟨9, 1, 0⟩ ∧ ({ slotted with now := 59999999999 } : State).now < 0 + 60000000000 := by decide +kernel
/-- Meets hypotheses of JournalAndHostMessages. -/
theorem wit_judged_command : hostLive.clocked 0x800F0000 = true ∧ (match (hostLive.jScan.jJudge 9 1 0x8001 []).1 with | .written _ _ => true | _ => false) = true ∧ (put hostLive [(R.HST_STAT_LINK, 0)]).flag R.HST_STAT_LINK = false ∧ kindOk 0x10 40961 = true ∧ (udpOf []).full = false ∧ (dparse (drip 0x10 0 5 [])).isSome = true := by decide +kernel
/-- A slot of 24 bytes to send, with the next hop known. -/
def toSend : State := let u := hostLive.poke (cells (fwSlot (hostLive.get R.HST_FWQ_TXBASE_BASE) 0) (24 + 5000 * 65536) 4); { u with hst := { u.hst with arp := [(0, 7, 0)] } }
/-- Meets hypotheses of JournalAndHostMessages. -/
theorem wit_fwq_slot : toSend.get R.HST_FWQ_TXPTR_TAIL < 16 ∧ (1#4).toNat = (toSend.get R.HST_FWQ_TXPTR_TAIL + 1) % 16 ∧ 24 ≤ toSend.load (fwSlot (toSend.get R.HST_FWQ_TXBASE_BASE) 0) 2 ∧ toSend.load (fwSlot (toSend.get R.HST_FWQ_TXBASE_BASE) 0) 2 ≤ 536 ∧ toSend.root = true ∧
    toSend.flag R.HST_STAT_LINK = true ∧ (toSend.macOf (toSend.hop (toSend.load (fwSlot (toSend.get R.HST_FWQ_TXBASE_BASE) 0 + 4) 4))).isSome = true ∧ toSend.reach 0x800F003C = true := by decide +kernel
/-- Meets hypotheses of HostPort. -/
theorem wit_host_clock : (put hostLive [(R.CLK_GATE_EN, 0)]).clocked 0x800F0000 = false ∧ hostLive.hostOn = true ∧ ({ hostLive.hst with busy := true, pollDue := some (4, true) } : Hst).pollDue = some (4, true) ∧ hostLive.hst.pollDue = none ∧ (toSend.macOf (toSend.hop 0)).isSome = true ∧ hostLive.macOf (hostLive.hop 0) = none ∧
    (({ toSend with now := 1000000000 } : State).macOf (toSend.hop 0)).isSome = true ∧ toSend.hst.echoAt + 1000000000 ≤ 1000000000 ∧ 100 ≤ ({ hostLive.hst with echoes := 100 } : Hst).echoes := by decide +kernel
/-- A candidate that has been heard once. -/
def heardOnce : State := { ptpLive with tim := { ptpLive.tim with master := none, cands := [(ann, 1)] } }
/-- Meets hypotheses of DeviceTimeMessages. -/
theorem wit_candidate : heardOnce.tim.cands = [(ann, 1)] ∧ ann.src = ptpMsg.src ∧ ann.port = ptpMsg.port ∧ heardOnce.tim.master = none ∧ heardOnce.ptpOk ptpMsg = true ∧ ptpLive.tim.dreq = some (4, 500) ∧ ptpLive.tim.pair = some (10, 200) ∧ ptpMsg.seq = 4 ∧
    (put heardOnce [(R.TIM_STAT_STATE, 0)]).timSt = 0 ∧ (put heardOnce [(R.TIM_STAT_STATE, 1)]).timSt = 1 ∧ ({ ptpLive.tim with delays := [] } : Tim).mpd = none := by decide +kernel

/-- The stop of the cascade with both its ports forwarding, and a measured one in the MARK's way. -/
def passing : State := { casLive with cas := { casLive.cas with a := { Port.init with sync := true, fwd := true, meas := true }, b := { Port.init with sync := true, fwd := true } } }
/-- Meets hypotheses of CascadeFramesAndBootChain. -/
theorem wit_cascade_through : passing.casIn = true ∧ (passing.cas.port false).sync = true ∧ (passing.cas.port false).fwd = true ∧ (passing.cas.port true).sync = true ∧ (passing.cas.port true).fwd = true ∧ cfrm.src.val ≠ passing.get R.CAS_CFG_POS ∧ (passing.cas.port false).meas = true ∧
    casLive.casIn = true ∧ (casLive.cas.port true).sync = false ∧ ({ cfrm with src := 5 } : CFrm).src.val = passing.get R.CAS_CFG_POS ∧ cfrm.memberB = passing.flag R.MTR_STAT_MEMBER ∧ ({ cfrm with dest := 4 } : CFrm).dest ≠ 0xFF ∧ passing.get R.CAS_CFG_POS ≠ 4 ∧
    (put passing [(R.CAS_STAT_STATE, 4)]).get R.CAS_STAT_STATE = 4 ∧ ({ passing.cas with acted := [(1, 2, [])] } : Cas).acted.contains (1, cfrm.src.val * 2 + b2n cfrm.memberB, []) = true := by decide +kernel
/-- Meets hypotheses of CascadeFramesAndBootChain. -/
theorem wit_mark_steps : casTakes passing cfrm 1 [] = true ∧ ({ mrk with stepSeq := 1 } : Mark).stepSeq ≠ passing.cas.stepSeq ∧ passing.root = false ∧ passing.get R.CAS_STAT_STATE = 3 ∧ mrk.pending = false ∧ ({ mrk with pending := true, next := 1 } : Mark).pending = true ∧ passing.schedIn 1 = true := by decide +kernel
/-- Axis 0 of the stop publishes record 0, which stands for the next course. -/
def publishing : State := { (casLive.setAx 0 { casLive.ax 0 with copied := true, par := { (casLive.ax 0).par with pubCfg := 1 } }) with crs := { casLive.crs with cnt := 7 } } |>.poke (cells (sharedRec 5 0 + 12) 8 2)
/-- Meets hypotheses of CascadeFramesAndBootChain. -/
theorem wit_setp_is_sent : publishing.crs.tick = none ∧ publishing.axes.any (fun y => bit y.2.par.pubCfg 0 && y.2.copied && bits y.2.par.pubCfg 1 5 == 0) = true ∧ publishing.load (sharedRec 5 0 + 12) 2 = (publishing.crs.cnt + 1) % 65536 ∧ publishing.flag R.CAS_STAT_PLANNED = true ∧ publishing.leads = true ∧ publishing.casIn = true ∧
    casLive.axes.any (fun y => bit y.2.par.pubCfg 0) = false := by decide +kernel
/-- Meets hypotheses of CascadeFramesAndBootChain. -/
theorem wit_setp_record : leAt (leBytes (2 ^ 31) 4) 0 4 = 2 ^ 31 ∧ (leBytes (2 ^ 31) 4 ++ List.replicate 16 9).length = 20 ∧ casTakes casLive cfrm 4 [0, 0, 0] = true ∧ (put casLive [(R.CAS_CFG_ROOT, 1)]).root = true := by decide +kernel
/-- The master of a boot chain whose slot carries the images of positions 1, of 4097 bytes, and 3, of 1 byte. -/
def chained (cur : Option (Nat × Nat)) (again : Bool) : State := put { live with boot := { live.boot with hdrs := some (⟨0, false, 1, 4096, false, [], [(4096, 4097), (0, 0), (12288, 1)]⟩, ⟨3, false, 0, 0, false, [], []⟩), slot := some false }, chain := ⟨[], cur, again⟩ } [(R.CAS_BOOT_ROLE, 1), (R.CAS_BOOT_COUNT, 3)]
/-- Meets hypotheses of CascadeFramesAndBootChain. -/
theorem wit_chain_master : (chained none false).chainRole = 1 ∧ (chained none false).chain.cur = none ∧ (chained none false).chainImg 1 = (4096, 4097) ∧ (chained none false).chainImg 2 = (0, 0) ∧ 4096 * (0 + 1) < 4097 ∧ 4097 ≤ 4096 * (1 + 1) ∧ (chained (some (1, 0)) true).chain.cur = some (1, 0) ∧ (chained (some (1, 0)) true).chain.again = true ∧
    (chained (some (1, 0)) false).chain.again = false ∧ (chained (some (1, 0)) false).chain.cur ≠ some (3, 0) := by decide +kernel
theorem test_chain_goes_on : (after (.image 1 1 [] true true) (chained (some (1, 1)) false)).chain.cur = some (3, 0) := by decide +kernel
/-- Meets hypotheses of CascadeFramesAndBootChain. -/
theorem wit_chain_follower : (put live [(R.CAS_BOOT_ROLE, 2), (R.CAS_BOOT_CHAIN_POS, 15)]).chainRole = 2 ∧ (15 : Fin 16).val = (put live [(R.CAS_BOOT_ROLE, 2), (R.CAS_BOOT_CHAIN_POS, 15)]).get R.CAS_BOOT_CHAIN_POS := by decide +kernel

/-- Meets hypotheses of CoreInstructions. -/
theorem wit_core_fetch : inSram (((coreAt 0).core 0).pc / 4 * 4) = true ∧ (coreAt 0).domUp 2 = true ∧ comesTo 0x123452B7 (.lui 5 0x12345000) = true := by decide +kernel
/-- Channel 0 WAIT_REQ on its descriptor. -/
def dmaWait : State := (put (dmaIn 9) [(R.DMA_CH_STAT_STATE 0, 1), (R.DMA_CH_CUR_CUR 0, 0x10000040)]).setDch 0 ⟨none, [], 0, 0x10000040, 0⟩
/-- Meets hypotheses of DmaChannelsAndTransfers. -/
theorem wit_dma_waits : dmaWait.get (R.DMA_CH_STAT_STATE 0) = 1 ∧ dmaWait.dmaReqDue 9 = true ∧ dmaWait.flag R.DMA_STAT_HALTED = false ∧ region (dmaWait.dch 0).next = some .sram ∧ (dmaWait.dch 0).next % 32 = 0 ∧ dmaWait.poisoned (dmaWait.dch 0).next 32 = false ∧
    dmaD = descOf ((List.range 8).map (fun i => dmaWait.load ((dmaWait.dch 0).next + 4 * i) 4)) ∧ (∀ m, m < 32 → m ≠ 0 → dmaWait.get (R.DMA_CH_CFG_REQ m) ≠ 9) ∧ (put dmaWait [(R.DMA_STAT_HALTED, 1)]).flag R.DMA_STAT_HALTED = true := by decide +kernel
/-- Meets hypotheses of DmaChannelsAndTransfers. -/
theorem wit_dma_priority : (∀ m, m < 32 → m ≠ 0 → dmaRun.get (R.DMA_CH_STAT_STATE m) = 2 → dmaRun.get (R.DMA_CH_CFG_PRIO m) < dmaRun.get (R.DMA_CH_CFG_PRIO 0)) ∧ dmaRun.clocked 0x80130000 = true ∧ dmaD.ok (dmaRun.dch 0).elems = true ∧
    (put dmaRun [(R.DMA_CH_STAT_STATE 0, 7)]).get (R.DMA_CH_STAT_STATE 0) = 7 ∧ ({ dmaRun.dch 0 with next := 32 } : DCh).next ≠ 0 ∧ (dmaIn 9).get (R.DMA_CH_STAT_PEND 0) = 0 := by decide +kernel

/-- Meets hypotheses of PowerStatesAndResets. -/
theorem wit_release : ((devIn .reset).dev == .reset && (devIn .reset).domUp 1) = true ∧ ((devIn .watch).dev == .reset && (devIn .watch).domUp 1) = false ∧ (∀ p ∈ live.tst.poison, p.1 ≠ 7) ∧ (devIn .reset).pwr.cause = none ∧ State.reset.domUp 2 = false := by decide +kernel
/-- Meets hypotheses of PowerStatesAndResets. -/
theorem wit_domains_rise : ({ (devIn .standby).pwr with rising := [1, 5] } : Pwr).rising = 1 :: [5] ∧ ({ (devIn .standby).pwr with rising := [2] } : Pwr).rising = 2 :: [] ∧ (devIn .standby).dev ≠ .boot ∧ (1 : Nat) ≠ 2 := by decide +kernel
/-- The boot ROM about to load section TYPE `n`, whose directory entry gives the bytes `b`. -/
def bootWith (n : Nat) (b : List (BitVec 8)) : State := { booting with boot := { Boot.init with hdrs := some (⟨0, false, 1, 4096, false, List.replicate (n - 1) (0, 0, 0) ++ [(0, b.length, crc32 (b.map BitVec.toNat))], []⟩, ⟨3, false, 0, 0, false, [], []⟩), slot := some false, first := some false, done := n - 1 } }
/-- What the boot ROM reads as a section, where both reads give some bytes. -/
def judgedAs (s : State) (t : Fin 10) (b : List (BitVec 8)) (rest : Bool) : Option Section := s.slotHdr.bind (fun h => SecRead.judge ⟨false, t, b, b, [], rest⟩ (h.dir.getD (t - 1) (0, 0, 0)))
/-- Meets hypotheses of SelfTestBootAndNvm. -/
theorem wit_sections_fail : judgedAs (bootWith 2 clkBytes) 2 (clkBytes.set 0 1) true = some ⟨false, 2, false, false, secItems 2 ((clkBytes.set 0 1).map BitVec.toNat) [], true⟩ ∧ judgedAs (bootWith 2 clkBytes) 2 clkBytes false = some ⟨false, 2, true, true, [.reg 0x80010010 0x3FFFF], false⟩ ∧
    judgedAs (bootWith 8 [0, 0, 0, 0x10]) 8 [0, 0, 0, 0x10] true = some ⟨false, 8, true, true, [.entry 0x10000000], true⟩ := by decide +kernel
/-- Meets hypotheses of SelfTestBootAndNvm. -/
theorem wit_chain_image_refused : (let u : State := put { booting with chain := { booting.chain with image := [(0, List.replicate 256 0)] } } [(R.CAS_BOOT_ROLE, 2)]; u.chainRole = 2 ∧ u.chain.has 256 = true ∧ u.chainHdr.code ≠ 0 ∧ u.boot.hdrs = none) := by decide +kernel

end Sys2Proof.Tests
end

section
/-! SUPPORT. Every command answers a next state and leaves the commands that wait (O3). -/
namespace Sys2Proof.Proofs
open Machine

/-- A command's answer is a next state in which the commands that wait are those of `s`. -/
def KeepsQueue (s : State) (o : Host.Outcome State Fault Refusal) : Prop := ∃ t, o = .next t ∧ t.pending = s.pending

theorem keepsQueue_next {s t : State} (h : t.pending = s.pending) : KeepsQueue s (.next t) := ⟨t, rfl, h⟩

/-- A write to a register: its effect, or the count of a gated access. -/
theorem keepsQueue_atReg {s : State} {a : Nat} {o : Host.Outcome State Fault Refusal} (h : KeepsQueue s o) : KeepsQueue s (s.atReg a o) := by
  unfold State.atReg
  split
  · exact h
  · exact keepsQueue_next rfl

/-- An access to a memory: its answer, the count of an unpowered access, or the bus error of a poisoned word. -/
theorem keepsQueue_atMem {s : State} {a : Nat} {read : Bool} {o : Host.Outcome State Fault Refusal} (h : KeepsQueue s o) : KeepsQueue s (s.atMem a read o) := by
  unfold State.atMem
  split
  · exact keepsQueue_next rfl
  · split
    · exact keepsQueue_next rfl
    · exact h

/-- An event of a block: its effect, or nothing where the block stands. -/
theorem keepsQueue_live {s : State} {a : Nat} {o : Host.Outcome State Fault Refusal} (h : KeepsQueue s o) : KeepsQueue s (s.live a o) := by
  unfold State.live
  split
  · exact h
  · exact keepsQueue_next rfl

theorem hstDo_keepsQueue (t s : State) : KeepsQueue s (hstDo t s) := keepsQueue_live (keepsQueue_next rfl)

theorem dmaDo_keepsQueue (t s : State) (b : Bus) : KeepsQueue s (dmaDo t s b) := keepsQueue_live (keepsQueue_next rfl)

theorem moveDo_keepsQueue (t s : State) : KeepsQueue s (moveDo t s) := keepsQueue_live (keepsQueue_next rfl)

theorem pfDo_keepsQueue (n : Fin 4) (op : Nat) (target : BitVec 8) (g : Bool) (s : State) : KeepsQueue s (pfDo n op target g s) :=
  keepsQueue_atReg (keepsQueue_next rfl)

/-- The pass is received by a standby and sent by any other device. -/
theorem execOutputResyncPass_keepsQueue (recs : List OutRec) (last : Bool) (s : State) : KeepsQueue s (execOutputResyncPass recs last s) := by
  unfold execOutputResyncPass
  split
  · exact keepsQueue_next rfl
  · exact keepsQueue_next rfl

/-- A power-on reset is the loss of supply, any other cause a warm reset. -/
theorem execResetEntry_keepsQueue (c : RstCause) (s : State) : KeepsQueue s (execResetEntry c s) := by
  unfold execResetEntry
  split
  · exact keepsQueue_next rfl
  · exact keepsQueue_next rfl

/-- Each command by what it goes through: a command port, a register, a memory, the clock of its block, or straight to its next state. -/
theorem exec_keepsQueue (c : Instr) (s : State) : KeepsQueue s (exec c s) := by
  cases c with
  | enable | disable | queue | replace | stop | estop | clearFault | home | reload | setGroup | badOpcode => exact pfDo_keepsQueue ..
  | pointWrite | pointValueRead | pointStatusRead => exact keepsQueue_atMem (keepsQueue_next rfl)
  | command | service | hostLinkChange | phyPoll | mdioComplete | arpRequest | arpReply | arpCacheExpire | arpResolveTimeout | icmpEchoRequest =>
    exact hstDo_keepsQueue ..
  | fwqTxSubmit | mdioWrite | mdioRead => exact keepsQueue_atReg (hstDo_keepsQueue ..)
  | dmaRequest => exact dmaDo_keepsQueue ..
  | dmaStart | recover => exact keepsQueue_atReg (dmaDo_keepsQueue ..)
  | halfEvent | descriptorComplete | dmaBusError => exact moveDo_keepsQueue ..
  | dmaAbort => exact keepsQueue_atReg (moveDo_keepsQueue ..)
  | nvmOpComplete => exact keepsQueue_live (keepsQueue_next rfl)
  | outputResyncPass => exact execOutputResyncPass_keepsQueue ..
  | resetEntry => exact execResetEntry_keepsQueue ..
  | swGo | liveUpdateRequest | engineStart | engineHaltReq | calGo | mgTxGo | mgRxRelease | arm | captureAbort | force | ack | restart | nsreq
  | handoverRequest | jnlTake | jnlDone | tcmpHiWrite | coreRelease | makeReady | block | cancel | yield | round | quick | nvmRead | nvmProgram
  | erase4k | erase64k | fuseProgram | gpioSet | gpioClr => exact keepsQueue_atReg (keepsQueue_next rfl)
  | _ => exact keepsQueue_next rfl

/-- Settles O3: the answer of every command, by the footprint that its meaning goes through. -/
theorem everyCommandCompletesAndKeepsTheQueue : Obligations.EveryCommandCompletesAndKeepsTheQueue := exec_keepsQueue

end Sys2Proof.Proofs
end

section
/-! SUPPORT. What reset leaves (O6), and two statements that a concrete state refutes: what a warm reset leaves of the stepper channels (O59), and the end of a fence that no HOLDER runs (O49). -/
namespace Sys2Proof.Proofs
open Machine

/-- Every long accumulator of an engine after reset is 0. -/
theorem lacc_engInit {l : Lacc} (h : l ∈ Eng.init.lacc) : l = Lacc.zero := List.eq_of_mem_replicate h

/-- No core runs while PD2 has no power. -/
theorem coreRuns_unpowered {s : State} (h : s.domUp 2 = false) (n : Nat) : s.coreRuns n = false := by simp [State.coreRuns, h]

/-- Settles O6: after reset no store lists anything, so every key reads its default. -/
theorem resetLeavesTheResetValues : Obligations.ResetLeavesTheResetValues :=
  ⟨fun _ => rfl, rfl, fun _ => ⟨rfl, fun _ => lacc_engInit⟩, fun _ => rfl, fun _ => rfl, fun n _ _ => coreRuns_unpowered (by decide) n, rfl⟩

/-- What a reset entry leaves of a channel. -/
theorem resetEntry_chan {s t : State} (h : exec (.resetEntry .sw) s = .next t) (n : Nat) : t.chan n = (s.quiet.enterReset .sw).chan n := by
  cases h
  rfl

/-- A device whose channel 0 sees encoder input EA high. -/
def encoderHigh : State := { State.reset with chans := [(0, { Chan.init with encA := true })] }

/-- A warm reset keeps the levels of a channel's encoder inputs (R149). -/
theorem enterReset_encoderHigh : ((encoderHigh.quiet.enterReset .sw).chan 0).encA = true := by decide +kernel

/-- Refutes O59: a warm reset does not leave the list of channels empty where an encoder input is high, whose level the reset keeps. -/
theorem not_powerStatesAndResets : ¬ Obligations.PowerStatesAndResets := by
  unfold Obligations.PowerStatesAndResets
  intro h
  obtain ⟨hwarm, -⟩ := h encoderHigh .sw 0 0 true true true 0 0
  obtain ⟨hentry, -⟩ := hwarm (by decide)
  obtain ⟨t, ht, ⟨-, -, -, -, -, -, -, -, -, -, -, -, hchans, -⟩, -⟩ := hentry (by decide)
  have hpin : (t.chan 0).encA = true := (congrArg Chan.encA (resetEntry_chan ht 0)).trans enterReset_encoderHigh
  rw [State.chan, hchans] at hpin
  exact absurd hpin (by decide)

/-- A member that held the keystone when PD11 was reset: the role is gone, and the fence timer, which lies in PD0, still counts (R18). -/
def fenceWithoutKeystone : State := ({ State.reset with mtr := { Mtr.init with paired := true, role := .holder, fence := 1 } }).domReset 11

/-- The fence's end clears the timer of a member that is not HOLDER. -/
theorem fenceExpire_fenceWithoutKeystone : fenceWithoutKeystone.quiet.fenceExpire.mtr.fence = 0 := by decide

/-- Refutes O49: a fence that ends without a HOLDER changes the state, for its timer is cleared. -/
theorem not_keystoneAndDeviceCommands : ¬ Obligations.KeystoneAndDeviceCommands := by
  unfold Obligations.KeystoneAndDeviceCommands
  intro h
  obtain ⟨-, hnotHolder, -⟩ := h fenceWithoutKeystone false false
  obtain ⟨t, ht, hsame⟩ := hnotHolder (by decide)
  have hcleared : t.mtr.fence = 0 := by
    cases ht
    exact fenceExpire_fenceWithoutKeystone
  have hkept : t.mtr.fence = 1 := by rw [hsame]; rfl
  omega

end Sys2Proof.Proofs
end

section
/-! SUPPORT. The fields of a register, and folds that write them one by one (R11, R13, R22). -/
namespace Sys2Proof.Proofs
open Machine Laws

/-! The register tables. -/

/-- A row of the register tables: its fields stand at its address, within a word and each at a bit of its own. -/
def rowOk (r : RegRow) : Bool :=
  r.flds.all (fun f => f.addr == r.addr && decide (f.lo + f.w ≤ 32 ∧ 0 < f.w)) && decide (r.flds.map Fld.lo).Nodup

theorem blockRows_ok (b : Nat) : ∀ r ∈ blockRows b, rowOk r = true := by
  rw [← List.all_eq_true]
  unfold blockRows
  split <;> decide +kernel

theorem ofs_eq {r : RegRow} {a d : Nat} (h : r.ofs a = some d) : r.addr + d = a := by
  unfold RegRow.ofs at h
  split at h
  · cases h
  · simp only [Option.ite_none_right_eq_some, Option.some.injEq] at h
    omega

/-- The fields of the register at `a`: those of a row, moved to `a`. -/
theorem fieldsAt_row {a : Nat} {fs : List Fld} (h : fieldsAt a = some fs) :
    ∃ r, rowOk r = true ∧ ∃ d, r.addr + d = a ∧ fs = r.flds.map (fun f => { f with addr := f.addr + d }) := by
  unfold fieldsAt at h
  split at h
  · cases h
  · obtain ⟨r, hr, hfs⟩ := List.exists_of_findSome?_eq_some h
    obtain ⟨d, hd, rfl⟩ := Option.map_eq_some_iff.mp hfs
    exact ⟨r, blockRows_ok _ r hr, d, ofs_eq hd, rfl⟩

/-- Each field of the register at `a` stands at `a`, within a word. -/
theorem fieldsAt_field {a : Nat} {fs : List Fld} (h : fieldsAt a = some fs) {f : Fld} (hf : f ∈ fs) : f.addr = a ∧ f.lo + f.w ≤ 32 ∧ 0 < f.w := by
  obtain ⟨r, hr, d, hd, rfl⟩ := fieldsAt_row h
  obtain ⟨g, hg, rfl⟩ := List.mem_map.mp hf
  simp only [rowOk, Bool.and_eq_true, List.all_eq_true, beq_iff_eq, decide_eq_true_eq] at hr
  obtain ⟨haddr, hbits⟩ := hr.1 g hg
  exact ⟨by simp only [haddr, hd], hbits⟩

/-- The fields of a register have places of their own. -/
theorem fieldsAt_keys {a : Nat} {fs : List Fld} (h : fieldsAt a = some fs) : (fs.map Fld.key).Nodup := by
  have haddr : ∀ f ∈ fs, f.key = a * 32 + f.lo := fun f hf => by rw [Fld.key, (fieldsAt_field h hf).1]
  obtain ⟨r, hr, d, -, rfl⟩ := fieldsAt_row h
  simp only [rowOk, Bool.and_eq_true, decide_eq_true_eq] at hr
  rw [List.map_congr_left haddr, List.map_map]
  have hlo : ((r.flds.map Fld.lo).map (a * 32 + ·)).Nodup := List.Pairwise.map _ (fun x y hxy h => hxy (Nat.add_left_cancel h)) hr.2
  rw [List.map_map] at hlo
  exact hlo

/-- Fields of places of their own are told apart by their places. -/
theorem eq_of_key_eq {fs : List Fld} (hkeys : (fs.map Fld.key).Nodup) {f g : Fld} (hf : f ∈ fs) (hg : g ∈ fs) (h : f.key = g.key) : f = g := by
  induction fs with
  | nil => exact absurd hf List.not_mem_nil
  | cons x xs ih =>
    rw [List.map_cons, List.nodup_cons, List.mem_map] at hkeys
    obtain ⟨hnew, hrest⟩ := hkeys
    rcases List.mem_cons.mp hf with rfl | hf' <;> rcases List.mem_cons.mp hg with rfl | hg'
    · rfl
    · exact absurd ⟨g, hg', h.symm⟩ hnew
    · exact absurd ⟨f, hf', h⟩ hnew
    · exact ih hrest hf' hg'

/-! Folds over the fields of a register. -/

section Folds
variable {step : State → Fld → State} (hother : ∀ u f g, g.key ≠ f.key → (step u f).get g = u.get g)
include hother

/-- A fold leaves a field that it does not visit. -/
theorem foldl_get_other {fs : List Fld} {g : Fld} (h : ∀ f ∈ fs, g.key ≠ f.key) (s : State) : (fs.foldl step s).get g = s.get g := by
  induction fs generalizing s with
  | nil => rfl
  | cons f r ih => rw [List.foldl_cons, ih (fun e he => h e (by simp [he])), hother _ _ _ (h f (by simp))]

/-- A fold leaves a field that it visits once as that visit leaves it. -/
theorem foldl_get_mem {fs : List Fld} (hkeys : (fs.map Fld.key).Nodup) {f : Fld} (hf : f ∈ fs)
    (hself : ∀ u v : State, u.get f = v.get f → (step u f).get f = (step v f).get f) (s : State) : (fs.foldl step s).get f = (step s f).get f := by
  induction fs generalizing s with
  | nil => cases hf
  | cons e r ih =>
    rw [List.map_cons, List.nodup_cons, List.mem_map] at hkeys
    obtain ⟨hfresh, hrest⟩ := hkeys
    rw [List.foldl_cons]
    rcases List.mem_cons.mp hf with rfl | hr
    · exact foldl_get_other hother (fun e he hk => hfresh ⟨e, he, hk.symm⟩) _
    · rw [ih hrest hr]
      exact hself _ _ (hother _ _ _ (fun hk => hfresh ⟨f, hr, hk⟩))

end Folds

/-- A fold whose steps change the register fields alone changes them alone. -/
theorem foldl_flds {α : Type} {step : State → α → State} (h : ∀ u i, step u i = { u with flds := (step u i).flds }) (l : List α) (s : State) :
    l.foldl step s = { s with flds := (l.foldl step s).flds } := by
  induction l generalizing s with
  | nil => rfl
  | cons i r ih => rw [List.foldl_cons, ih, h s i]

end Sys2Proof.Proofs
end

section
/-! SUPPORT. A word write to a register with no effect of its own: the access codes (O23; R11, R13). -/
namespace Sys2Proof.Proofs
open Machine Laws

/-! Bits. -/

theorem bit_eq_testBit (x i : Nat) : bit x i = x.testBit i := by
  rw [bit, Nat.testBit_eq_decide_div_mod_eq, Bool.beq_eq_decide_eq]

theorem testBit_bits (v lo w i : Nat) : (bits v lo w).testBit i = (decide (i < w) && v.testBit (lo + i)) := by
  rw [bits, Nat.testBit_mod_two_pow, Nat.testBit_div_two_pow, Nat.add_comm]

theorem bits_lt (v lo w : Nat) : bits v lo w < 2 ^ w := Nat.mod_lt _ (Nat.two_pow_pos w)

/-- A field within a word is the same of the word that the access is cut to. -/
theorem bits_word {lo w : Nat} (h : lo + w ≤ 32) (v : Nat) : bits (v % 2 ^ 32) lo w = bits v lo w := by
  apply Nat.eq_of_testBit_eq
  intro i
  simp only [testBit_bits, Nat.testBit_mod_two_pow]
  by_cases hi : i < w
  · simp [hi, show lo + i < 32 by omega]
  · simp [hi]

/-! One field, by its access code. -/

theorem writeFld_get_other (v : Nat) (u : State) (f g : Fld) (h : g.key ≠ f.key) : (u.writeFld f (bits v f.lo f.w)).get g = u.get g := by
  unfold State.writeFld
  split
  · exact get_set_other _ _ h
  · exact get_set_other _ _ h
  · exact get_set_other _ _ h
  · rfl
  · rfl
  · rfl

theorem writeFld_flds (s : State) (f : Fld) (v : Nat) : s.writeFld f v = { s with flds := (s.writeFld f v).flds } := by
  unfold State.writeFld
  split <;> rfl

/-- What a field reads after a write depends on nothing but what it read before. -/
theorem writeFld_get_congr {u u' : State} {f : Fld} (h : u.get f = u'.get f) (v : Nat) : (u.writeFld f v).get f = (u'.writeFld f v).get f := by
  unfold State.writeFld
  split
  · rw [get_set_same, get_set_same]
  · rw [get_set_same, get_set_same, h]
  · rw [get_set_same, get_set_same, h]
  · exact h
  · exact h
  · exact h

/-- What a field reads after the write of a word, by its access code (R13). -/
def Written (s t : State) (f : Fld) (v : Nat) : Prop :=
  (f.acc = .rw → t.get f = bits v f.lo f.w) ∧ (f.acc = .ro ∨ f.acc = .rc → t.get f = s.get f) ∧
  (f.acc = .w1c → ∀ i, i < f.w → bit (t.get f) i = (bit (s.get f) i && !bit v (f.lo + i))) ∧
  (f.acc = .w1s → ∀ i, i < f.w → bit (t.get f) i = (bit (s.get f) i || bit v (f.lo + i)))

theorem writeFld_written (s : State) (f : Fld) (v : Nat) : Written s (s.writeFld f (bits v f.lo f.w)) f v := by
  have hlt := bits_lt v f.lo f.w
  refine ⟨fun h => ?_, fun h => ?_, fun h i hi => ?_, fun h i hi => ?_⟩
  · simp only [State.writeFld, h, get_set_same]
    exact Nat.mod_eq_of_lt hlt
  · rcases h with h | h <;> simp only [State.writeFld, h]
  · simp only [State.writeFld, h, get_set_same, bit_eq_testBit, Nat.mod_eq_of_lt hlt, Nat.sub_sub, Nat.add_comm 1]
    simp [Nat.testBit_mod_two_pow, Nat.testBit_and, Nat.testBit_two_pow_sub_succ hlt, testBit_bits, hi]
  · simp only [State.writeFld, h, get_set_same, bit_eq_testBit, Nat.mod_eq_of_lt hlt]
    simp [Nat.testBit_mod_two_pow, Nat.testBit_or, testBit_bits, hi]

/-! A whole register. -/

theorem plain_flds (s : State) (fs : List Fld) (v : Nat) : s.plain fs v = { s with flds := (s.plain fs v).flds } :=
  foldl_flds (fun u f => writeFld_flds u f _) fs s

theorem plain_get_other {fs : List Fld} {g : Fld} (h : ∀ f ∈ fs, g.key ≠ f.key) (s : State) (v : Nat) : (s.plain fs v).get g = s.get g :=
  foldl_get_other (writeFld_get_other v) h s

theorem plain_get_mem {fs : List Fld} (hkeys : (fs.map Fld.key).Nodup) {f : Fld} (hf : f ∈ fs) (s : State) (v : Nat) :
    (s.plain fs v).get f = (s.writeFld f (bits v f.lo f.w)).get f :=
  foldl_get_mem (writeFld_get_other v) hkeys hf (fun _ _ h => writeFld_get_congr h _) s

theorem plain_written {fs : List Fld} (hkeys : (fs.map Fld.key).Nodup) {f : Fld} (hf : f ∈ fs) (s : State) (v : Nat) : Written s (s.plain fs v) f v := by
  have h := writeFld_written s f v
  rw [Written, ← plain_get_mem hkeys hf] at h
  exact h

/-! The blocks without registers that act. -/

/-- The fields that a write of `v` at `a` reaches: all of the register, but for a TIM_CFG.JUMP_TH out of its range (R362; log entry 98). -/
def reached (a v : Nat) (fs : List Fld) : List Fld :=
  if a = 0x80110018 ∧ (bits v 8 10 = 0 ∨ 1000 < bits v 8 10) then fs.filter (fun f => f.lo != 8) else fs

theorem reached_sublist (a v : Nat) (fs : List Fld) : (reached a v fs).Sublist fs := by
  unfold reached
  split
  · exact List.filter_sublist
  · exact List.Sublist.refl fs

theorem reached_other {a : Nat} (h : a ≠ 0x80110018) (v : Nat) (fs : List Fld) : reached a v fs = fs := if_neg (fun hr => h hr.1)

/-- PIM, CAP and CAS write every field by its access code, and TIM every field that it reaches. -/
theorem regWrite_plain (s : State) {a : Nat} (hb : (a - 0x80000000) / 0x10000 ∈ [11, 12, 16, 17]) (fs : List Fld) (v : Nat) :
    s.regWrite a fs v = s.plain (reached a v fs) v := by
  simp only [List.mem_cons, List.not_mem_nil, or_false] at hb
  rcases hb with h | h | h | h
  · simp only [State.regWrite, h, reached_other (show a ≠ 0x80110018 by omega)]
  · simp only [State.regWrite, h, reached_other (show a ≠ 0x80110018 by omega)]
  · simp only [State.regWrite, h, reached_other (show a ≠ 0x80110018 by omega)]
  · have ha : a % 0x10000 = 0x18 ↔ a = 0x80110018 := by omega
    simp only [State.regWrite, h, State.wrTim, ha, reached]
    split <;> rfl

/-- JUMP_TH is the only field of TIM_CFG at bit 8, and read-write. -/
theorem jumpTh_rw {fs : List Fld} (h : fieldsAt 0x80110018 = some fs) {f : Fld} (hf : f ∈ fs) (hlo : f.lo = 8) : f.acc = .rw := by
  have hfs : fieldsAt 0x80110018 = some [R.TIM_CFG_DOMAIN, R.TIM_CFG_JUMP_TH, R.TIM_CFG_PTP_EN] := by decide +kernel
  rw [hfs, Option.some.injEq] at h
  subst h
  simp only [List.mem_cons, List.not_mem_nil, or_false] at hf
  rcases hf with rfl | rfl | rfl
  · exact absurd hlo (by decide)
  · rfl
  · exact absurd hlo (by decide)

theorem domUp_quiet (s : State) (d : Nat) : s.quiet.domUp d = s.domUp d := by rw [State.domUp, quiet_get, State.domUp]

theorem reach_quiet (s : State) (a : Nat) : s.quiet.reach a = s.reach a := by
  unfold State.reach
  rw [domUp_quiet]
  cases gateOf a with
  | none => rfl
  | some i => rw [quiet_get, quiet_get]

/-- A write over the interconnect, by what the bus answers. -/
theorem exec_registerWrite (s : State) (q : Req) (a : BitVec 32) (size : Fin 4) (v : BitVec 64) :
    exec (.registerWrite q a size v) s = .next { (s.quiet.busWrite q a.toNat (2 ^ size.val) v.toNat).1 with
      bus := (s.quiet.busWrite q a.toNat (2 ^ size.val) v.toNat).2, pending := s.pending, jtag := s.jtag, rstLow := s.rstLow } := rfl

/-- A word write by a requester that reaches a register. -/
theorem registerWrite_reg {s : State} {q : Req} {a : BitVec 32} {v : BitVec 64} {fs : List Fld} (hf : fieldsAt a.toNat = some fs) (hr : s.reach a.toNat = true)
    (ha : a.toNat % 4 = 0) (h : region a.toNat = some .regs) :
    exec (.registerWrite q a 2 v) s = .next { s.quiet.regWrite a.toNat fs (v.toNat % 2 ^ 32) with bus := .done, pending := s.pending, jtag := s.jtag, rstLow := s.rstLow } := by
  have hw : s.quiet.busWrite q a.toNat 4 v.toNat = _ := busWrite_reg h ((reach_quiet s _).trans hr) ha hf
  simp only [exec_registerWrite, show 2 ^ (2 : Fin 4).val = 4 from rfl, hw]

/-- What one field of such a register reads after the write. -/
theorem reached_written {s : State} {a v : Nat} {fs : List Fld} (hfs : fieldsAt a = some fs) {f : Fld} (hf : f ∈ fs) :
    let t := s.plain (reached a (v % 2 ^ 32) fs) (v % 2 ^ 32)
    (f.acc = .rw → t.get f = if a = 0x80110018 ∧ f.lo = 8 ∧ (bits v 8 10 = 0 ∨ 1000 < bits v 8 10) then s.get f else bits v f.lo f.w) ∧
    (f.acc = .ro ∨ f.acc = .rc → t.get f = s.get f) ∧
    (f.acc = .w1c → ∀ i, i < f.w → bit (t.get f) i = (bit (s.get f) i && !bit v (f.lo + i))) ∧
    (f.acc = .w1s → ∀ i, i < f.w → bit (t.get f) i = (bit (s.get f) i || bit v (f.lo + i))) := by
  intro t
  have hkeys := fieldsAt_keys hfs
  obtain ⟨-, hbits, -⟩ := fieldsAt_field hfs hf
  by_cases hj : a = 0x80110018 ∧ f.lo = 8 ∧ (bits v 8 10 = 0 ∨ 1000 < bits v 8 10)
  · obtain ⟨rfl, hlo, hv⟩ := hj
    have hacc := jumpTh_rw hfs hf hlo
    have hkept : t.get f = s.get f := by
      refine plain_get_other (fun g hg hk => ?_) s _
      rw [reached, if_pos (by rw [bits_word (by decide)]; exact ⟨rfl, hv⟩), List.mem_filter] at hg
      have hfg : f = g := eq_of_key_eq hkeys hf hg.1 hk
      subst hfg
      simp [hlo] at hg
    simp [hacc, hkept, hlo, hv]
  · have hmem : f ∈ reached a (v % 2 ^ 32) fs := by
      unfold reached
      rw [bits_word (by decide)]
      split
      · rename_i hr
        rw [List.mem_filter]
        exact ⟨hf, by simpa using fun hlo => hj ⟨hr.1, hlo, hr.2⟩⟩
      · exact hf
    obtain ⟨hrw, hro, hw1c, hw1s⟩ := plain_written (hkeys.sublist ((reached_sublist a (v % 2 ^ 32) fs).map _)) hmem s (v % 2 ^ 32)
    have hbit : ∀ i, i < f.w → bit (v % 2 ^ 32) (f.lo + i) = bit v (f.lo + i) := fun i hi => bit_mod v (by omega)
    refine ⟨fun h => ?_, hro, fun h i hi => ?_, fun h i hi => ?_⟩
    · rw [if_neg hj, hrw h, bits_word hbits]
    · rw [hw1c h i hi, hbit i hi]
    · rw [hw1s h i hi, hbit i hi]

/-- Settles O23: the write is `plain` on the fields that it reaches, and each of those is written by its access code. -/
theorem registerWriteFollowsTheAccessCodes : Obligations.RegisterWriteFollowsTheAccessCodes := by
  intro s q a v fs hf hr ha hregs hb
  refine ⟨_, registerWrite_reg hf hr ha hregs, rfl, ⟨fun g hg => ?_, ?_⟩, fun f hfm => ?_⟩
  · rw [regWrite_plain _ hb]
    exact plain_get_other (fun f hfm => (hg f ((reached_sublist ..).subset hfm)).symm) s.quiet _
  · rw [regWrite_plain _ hb, plain_flds]
    rfl
  · rw [regWrite_plain _ hb]
    exact reached_written (s := s.quiet) hf hfm

end Sys2Proof.Proofs
end

section
/-! SUPPORT. Accesses that reach nothing (O24; R12, R19, R20, R21, R393). -/
namespace Sys2Proof.Proofs
open Machine Laws

/-! The bus at a memory. -/

theorem busWrite_memory {s : State} {q : Req} {a n v : Nat} {r : Region} (h : region a = some r) (hr : r ≠ .regs) :
    s.busWrite q a n v = if !s.domUp (memDom a) then (s.gatedAcc a, .done)
      else if !(if r = .pim then pimSizeOk q a n else sizeOk q a n) then (s, .error) else s.rowWrite r q a n v := by
  cases r with
  | regs => exact absurd rfl hr
  | _ => simp only [State.busWrite, h]

theorem busWrite_unpowered {s : State} {q : Req} {a n v : Nat} {r : Region} (h : region a = some r) (hr : r ≠ .regs) (hd : s.domUp (memDom a) = false) :
    s.busWrite q a n v = (s.gatedAcc a, .done) := by simp [busWrite_memory h hr, hd]

theorem busRead_unpowered {s : State} {q : Req} {a n : Nat} {r : Region} (h : region a = some r) (hr : r ≠ .regs) (hd : s.domUp (memDom a) = false) :
    s.busRead q a n = (s.gatedAcc a, .data 0) := by
  cases r with
  | regs => exact absurd rfl hr
  | _ => simp [State.busRead, h, hd]

/-- The boot ROM, the journal and the capture memory take no write of any size. -/
theorem busWrite_readOnly {s : State} {q : Req} {a n v : Nat} (h : region a = some .rom ∨ region a = some .jnl ∨ region a = some .cap)
    (hd : s.domUp (memDom a) = true) : s.busWrite q a n v = (s, .error) := by
  rcases h with h | h | h <;> rw [busWrite_memory h (by decide)] <;> simp [hd, State.rowWrite]

/-- No memory takes a write that is not naturally aligned. -/
theorem busWrite_unaligned {s : State} {q : Req} {a n v : Nat} {r : Region} (h : region a = some r) (hr : r ≠ .regs) (hd : s.domUp (memDom a) = true)
    (ha : a % n ≠ 0) : s.busWrite q a n v = (s, .error) := by
  have hsize : (if r = .pim then pimSizeOk q a n else sizeOk q a n) = false := by
    split <;> simp [pimSizeOk, sizeOk, ha]
  simp [busWrite_memory h hr, hd, hsize]

/-! What the commands leave of such an access. -/

/-- A gated access: counted, its address left, and nothing else changed. -/
def CountsGated (s t : State) (a : Nat) : Prop :=
  t.get R.GATED_ACC_CNT_COUNT = min (s.get R.GATED_ACC_CNT_COUNT + 1) (2 ^ R.GATED_ACC_CNT_COUNT.w - 1) ∧ t.get R.CLK_GATED_ADDR_ADDR = a ∧
    OnlyFlds s t [R.GATED_ACC_CNT_COUNT, R.CLK_GATED_ADDR_ADDR]

/-- An access to `u` is counted in any state that holds the register fields it leaves and is else as `s`, of which `u` has the fields. -/
theorem countsGated_of_eq {s u t : State} {a : Nat} (ha : a < 2 ^ 32) (hu : ∀ f, u.get f = s.get f) (hf : t.flds = (u.gatedAcc a).flds)
    (h : t = { s with flds := t.flds, bus := t.bus, outs := t.outs }) : CountsGated s t a := by
  have hget : ∀ f, t.get f = (u.gatedAcc a).get f := fun f => by rw [State.get, hf, State.get]
  refine ⟨?_, ?_, fun g hg => ?_, h⟩
  · rw [hget, gatedAcc_count, hu]
  · rw [hget, gatedAcc_addr]
    exact Nat.mod_eq_of_lt ha
  · rw [hget, gatedAcc_other u a (hg _ (by simp)).symm (hg _ (by simp)).symm, hu]

theorem registerWrite_refused {s : State} {q : Req} {a : BitVec 32} {size : Fin 4} {v : BitVec 64}
    (h : s.quiet.busWrite q a.toNat (2 ^ size.val) v.toNat = (s.quiet, .error)) : Ends (.registerWrite q a size v) s (fun t => t.bus = .error ∧ Unchanged s t) := by
  refine ⟨_, exec_registerWrite s q a size v, ?_⟩
  rw [h]
  exact ⟨rfl, rfl⟩

theorem registerWrite_gated {s : State} {q : Req} {a : BitVec 32} {size : Fin 4} {v : BitVec 64}
    (h : s.quiet.busWrite q a.toNat (2 ^ size.val) v.toNat = (s.quiet.gatedAcc a.toNat, .done)) :
    Ends (.registerWrite q a size v) s (fun t => t.bus = .done ∧ CountsGated s t a.toNat) := by
  refine ⟨_, exec_registerWrite s q a size v, ?_⟩
  rw [h, gatedAcc_eq]
  exact ⟨rfl, countsGated_of_eq a.isLt (quiet_get s) rfl rfl⟩

theorem counterReadClear_refused {s : State} {q : Req} {a : BitVec 32} (h : s.busRead q a.toNat 4 = (s, .error)) :
    Ends (.counterReadClear q a) s (fun t => t.bus = .error ∧ Unchanged s t) := by
  refine ⟨_, congrArg (fun r => readDo r s) h, ?_⟩
  exact ⟨rfl, rfl⟩

theorem counterReadClear_gated {s : State} {q : Req} {a : BitVec 32} (h : s.busRead q a.toNat 4 = (s.gatedAcc a.toNat, .data 0)) :
    Ends (.counterReadClear q a) s (fun t => t.bus = .data 0 ∧ CountsGated s t a.toNat) := by
  refine ⟨_, congrArg (fun r => readDo r s) h, ?_⟩
  rw [gatedAcc_eq]
  exact ⟨rfl, countsGated_of_eq a.isLt (fun _ => rfl) rfl rfl⟩

/-- Settles O24: what the bus answers where an access reaches nothing, and what the two commands leave of that. -/
theorem accessesThatReachNothing : Obligations.AccessesThatReachNothing := by
  intro s q a size v
  refine ⟨fun h => registerWrite_refused ?_, fun h => counterReadClear_refused ?_, fun h => ⟨registerWrite_gated ?_, counterReadClear_gated ?_⟩⟩
  · rcases h with h | ⟨h, hr, hh⟩ | ⟨h, hd⟩ | ⟨⟨r, h, hr⟩, hd, ha⟩
    · exact busWrite_unmapped h
    · refine busWrite_hole h ((reach_quiet s _).trans hr) (hh.imp_left fun hs => ?_)
      revert hs
      exact (by decide : ∀ n : Fin 4, n ≠ 2 → 2 ^ n.val ≠ 4) size
    · exact busWrite_readOnly h ((domUp_quiet s _).trans hd)
    · exact busWrite_unaligned h hr ((domUp_quiet s _).trans hd) ha
  · rcases h with h | ⟨h, hr, hh⟩
    · exact busRead_unmapped h
    · exact busRead_hole h hr (.inr hh)
  · rcases h with ⟨h, hr⟩ | ⟨⟨r, h, hne⟩, hd⟩
    · exact busWrite_gated h ((reach_quiet s _).trans hr)
    · exact busWrite_unpowered h hne ((domUp_quiet s _).trans hd)
  · rcases h with ⟨h, hr⟩ | ⟨⟨r, h, hne⟩, hd⟩
    · exact busRead_gated h hr
    · exact busRead_unpowered h hne hd

end Sys2Proof.Proofs
end

section
/-! SUPPORT. Little-endian values in memory, and writes to application SRAM (O26; R10, R20, R367, R445). -/
namespace Sys2Proof.Proofs
open Machine Laws

/-! A value stored is the value loaded. -/

theorem load_of_mem {s t : State} (h : t.mem = s.mem) (a n : Nat) : t.load a n = s.load a n := by
  induction n generalizing a with
  | zero => rfl
  | succ n ih => rw [State.load, State.load, ih, State.byte, h, State.byte]

/-- A value stored in `n` bytes loads as the value, cut to the bytes. -/
theorem load_store (s : State) (a v n : Nat) : (s.store a v n).load a n = v % 2 ^ (8 * n) := by
  induction n generalizing s a v with
  | zero => rw [State.load, Nat.mul_zero, Nat.pow_zero, Nat.mod_one]
  | succ n ih =>
    have hlow : (s.store a v (n + 1)).byte a = BitVec.ofNat 8 v := by
      show Memory.get (Memory.putAll (Memory.put s.mem a (BitVec.ofNat 8 v)) (cells (a + 1) (v / 256) n)) a = _
      rw [mem_get_putAll_other _ _ _ (fun p hp => by have := cells_range hp; omega), mem_get_put_same]
    have hhigh : (s.store a v (n + 1)).load (a + 1) n = v / 256 % 2 ^ (8 * n) := by
      rw [← ih { s with mem := Memory.put s.mem a (BitVec.ofNat 8 v) } (a + 1) (v / 256)]
      refine load_of_mem ?_ _ _
      rfl
    rw [State.load, hlow, hhigh, BitVec.toNat_ofNat, show 2 ^ (8 * (n + 1)) = 256 * 2 ^ (8 * n) by rw [Nat.mul_succ, Nat.pow_add, Nat.mul_comm],
      Nat.mod_mul]

/-! Memory whose bytes are written whole. -/

/-- Where every bit is writable, a write leaves the bytes of its value. -/
theorem writeCells_full {s : State} {a n : Nat} (h : ∀ x, a ≤ x → x < a + n → s.byteMask x = 0xFF) (v : Nat) : s.writeCells a v n = cells a v n := by
  induction n generalizing a v with
  | zero => rfl
  | succ n ih =>
    have hbyte : BitVec.ofNat 8 ((s.byte a).toNat &&& (0xFF - 0xFF) ||| v % 256 &&& 0xFF) = BitVec.ofNat 8 v := by
      apply BitVec.eq_of_toNat_eq
      rw [Nat.sub_self, Nat.and_zero, Nat.zero_or, show 0xFF = 2 ^ 8 - 1 from rfl, Nat.and_two_pow_sub_one_eq_mod]
      simp
    rw [State.writeCells, h a (Nat.le_refl a) (by omega), ih (fun x hx hlt => h x (by omega) (by omega)), cells]
    simp only [hbyte]
    rfl

/-- A write to such memory is a store that ends the other requesters' reservations on its words. -/
theorem memWrite_full {s : State} {a n : Nat} (h : ∀ x, a ≤ x → x < a + n → s.byteMask x = 0xFF) (q : Req) (v : Nat) :
    s.memWrite q a n v = (s.store a v n).unreserve (cells a v n) q.coreNo := by
  rw [State.memWrite, writeCells_full h]
  rfl

/-- A write leaves each core's reservation, or ends it (R367). -/
theorem unreserve_res (s : State) (w : List (Nat × BitVec 8)) (own : Option Nat) (n : Nat) :
    ((s.unreserve w own).core n).res = (s.core n).res ∨ ((s.unreserve w own).core n).res = none := by
  refine List.foldlRecOn (motive := fun u : State => (u.core n).res = (s.core n).res ∨ (u.core n).res = none) _ _ (.inl rfl) (fun u hu i _ => ?_)
  split
  · split
    · by_cases hn : n = i
      · subst hn
        exact .inr (by rw [core_setCore])
      · rwa [core_setCore_other _ _ hn]
    · exact hu
  · exact hu

/-! Application SRAM. -/

theorem region_sram {a : Nat} : region a = some .sram ↔ 0x10000000 ≤ a ∧ a < 0x10200000 := by
  constructor
  · intro h
    refine Decidable.byContradiction fun hs => ?_
    rw [region, if_neg hs] at h
    repeat' split at h
    all_goals cases h
  · intro h
    rw [region, if_neg (by omega), if_pos h]

theorem memDom_sram {a : Nat} (h : region a = some .sram) : memDom a = 2 := by
  rw [region_sram] at h
  simp only [memDom, show a / 0x8000000 = 2 by omega]

theorem byteMask_sram (s : State) {a : Nat} (h : region a = some .sram) : s.byteMask a = 0xFF := by
  simp only [State.byteMask, h]

/-- The memories accept a naturally aligned access of 1, 2 or 4 bytes, and of 8 bytes from the DMA engine (R445). -/
theorem sizeOk_aligned {q : Req} {a : Nat} {size : Fin 4} (ha : a % 2 ^ size.val = 0) (hq : size ≠ 3 ∨ q = .dma) : sizeOk q a (2 ^ size.val) = true := by
  rw [sizeOk, ha, Bool.and_eq_true]
  refine ⟨?_, rfl⟩
  clear ha
  rcases hq with hs | rfl
  · have hsmall : [1, 2, 4].contains (2 ^ size.val) = true := by
      revert size
      decide
    rw [hsmall, Bool.true_or]
  · revert size
    decide

/-- A naturally aligned range that begins in SRAM lies in it. -/
theorem region_sram_range {a x : Nat} {size : Fin 4} (h : region a = some .sram) (ha : a % 2 ^ size.val = 0) (hx : a ≤ x) (hlt : x < a + 2 ^ size.val) :
    region x = some .sram := by
  rw [region_sram] at h ⊢
  have hsize : size.val = 0 ∨ size.val = 1 ∨ size.val = 2 ∨ size.val = 3 := by omega
  rcases hsize with hs | hs | hs | hs <;> simp only [hs, Nat.reducePow] at ha hlt <;> omega

/-- Settles O26: the write is a store of the value's bytes, all of which lie in SRAM. -/
theorem sramWritesReachExactlyTheirBytes : Obligations.SramWritesReachExactlyTheirBytes := by
  intro s q a size v h hd ha hq
  have hmask : ∀ x, a.toNat ≤ x → x < a.toNat + 2 ^ size.val → s.quiet.byteMask x = 0xFF :=
    fun x hx hlt => byteMask_sram _ (region_sram_range h ha hx hlt)
  have hpow : s.quiet.domUp (memDom a.toNat) = true := by rw [memDom_sram h, domUp_quiet, hd]
  have hbus := (busWrite_sram (v := v.toNat) h hpow (sizeOk_aligned ha hq)).trans (congrArg (·, Bus.done) (memWrite_full hmask q v.toNat))
  refine ⟨_, exec_registerWrite s q a size v, ?_⟩
  rw [hbus]
  refine ⟨rfl, ?_, fun x hx => ?_, fun hm => ?_, fun n => ?_, ?_⟩
  · refine (load_of_mem (s := s.quiet.store a.toNat v.toNat (2 ^ size.val)) ?_ _ _).trans (load_store ..)
    exact unreserve_mem ..
  · exact (unreserve_byte ..).trans (store_byte_other s.quiet _ _ _ _ hx)
  · show Memory.wf (State.unreserve _ _ _).mem = true
    rw [unreserve_mem]
    exact store_memWf s.quiet _ _ _ hm
  · exact unreserve_res (s.quiet.store a.toNat v.toNat _) _ _ n
  · rw [unreserve_eq]
    rfl

end Sys2Proof.Proofs
end

section
/-! SUPPORT. Reads of registers that clear or latch (O25; R13, R35, R148, R256, R263, R264, R362). -/
namespace Sys2Proof.Proofs
open Machine Laws

/-! Counters that a read clears. -/

/-- One field, as a read leaves it. -/
theorem clearRc_flds (s : State) (fs : List Fld) : s.clearRc fs = { s with flds := (s.clearRc fs).flds } := by
  refine foldl_flds (fun u f => ?_) fs s
  split <;> rfl

theorem clearStep_get_other (u : State) (f g : Fld) (h : g.key ≠ f.key) : (if f.acc = .rc then u.set f 0 else u).get g = u.get g := by
  split
  · exact get_set_other _ _ h
  · rfl

theorem clearRc_get_other {fs : List Fld} {g : Fld} (h : ∀ f ∈ fs, g.key ≠ f.key) (s : State) : (s.clearRc fs).get g = s.get g :=
  foldl_get_other clearStep_get_other h s

/-- A read leaves each of a register's counters 0. -/
theorem clearRc_get_rc {fs : List Fld} (hkeys : (fs.map Fld.key).Nodup) {f : Fld} (hf : f ∈ fs) (hacc : f.acc = .rc) (s : State) : (s.clearRc fs).get f = 0 := by
  refine (foldl_get_mem clearStep_get_other hkeys hf (fun u v _ => ?_) s).trans ?_
  · simp only [hacc, if_true, get_set_same]
  · simp only [hacc, if_true, get_set_same, Nat.zero_mod]

/-- A register without counters is not changed. -/
theorem clearRc_of_not_rc {fs : List Fld} (h : ∀ f ∈ fs, f.acc ≠ .rc) (s : State) : s.clearRc fs = s := by
  induction fs with
  | nil => rfl
  | cons f r ih =>
    rw [State.clearRc, List.foldl_cons, if_neg (h f (by simp))]
    exact ih (fun g hg => h g (by simp [hg]))

/-! What else a read does. -/

/-- What a read of a register can change: registers, rings, capture sets and the count of draws. -/
def ReadFrame (s u : State) : Prop := u = { s with flds := u.flds, rings := u.rings, cap := u.cap, free := u.free }

theorem readFrame_ite {s u v : State} {p : Prop} [Decidable p] (hu : ReadFrame s u) (hv : ReadFrame s v) : ReadFrame s (if p then u else v) := by
  split
  · exact hu
  · exact hv

theorem readEffect_frame (s : State) (a : Nat) : ReadFrame s (s.readEffect a) := by
  unfold State.readEffect
  split
  case h_1 => exact readFrame_ite rfl (readFrame_ite rfl rfl)
  case h_2 => exact readFrame_ite rfl rfl
  case h_3 | h_4 | h_5 | h_6 => exact readFrame_ite rfl rfl
  case h_7 => exact readFrame_ite rfl (readFrame_ite rfl rfl)
  case h_8 => exact readFrame_ite rfl rfl
  case h_9 => exact readFrame_ite rfl (readFrame_ite rfl (readFrame_ite rfl rfl))
  case h_10 => exact readFrame_ite rfl (readFrame_ite rfl rfl)
  case h_11 => rfl

/-- What a read by a command answers, and the state it leaves. -/
def readAnswer (s u : State) (b : Bus) : State := { s with flds := u.flds, rings := u.rings, cap := u.cap, free := u.free, bus := b, outs := [] }

/-- A word read of a register by a command. -/
theorem readDo_reg {s : State} {q : Req} {a : Nat} {fs : List Fld} (h : region a = some .regs) (hr : s.reach a = true) (ha : a % 4 = 0) (hf : fieldsAt a = some fs) :
    readDo (s.busRead q a 4) s = .next (readAnswer s ((s.readEffect a).clearRc fs) (.data (s.regWord fs))) := by
  rw [busRead_reg h hr ha hf, readDo, State.regRead, clearRc_flds, readEffect_frame s a]
  rfl

/-! The halves of 64-bit values. -/

/-- The word of a register whose one field is a word that shows `v`. -/
theorem regWord_shown {s : State} {f : Fld} {v : Nat} (hacc : f.acc = .ro) (hlo : f.lo = 0) (hw : f.w = 32) (h : s.shown f = some v) : s.regWord [f] = v % 2 ^ 32 := by
  simp [State.regWord, State.view, hacc, hlo, hw, h]

/-- A read of such a register, which has no counter. -/
theorem readDo_shown {s : State} {q : Req} {a : Nat} {f : Fld} {v : Nat} (hf : fieldsAt a = some [f]) (hr : s.reach a = true) (h : region a = some .regs) (ha : a % 4 = 0)
    (hacc : f.acc = .ro) (hlo : f.lo = 0) (hw : f.w = 32) (hv : s.shown f = some v) :
    readDo (s.busRead q a 4) s = .next (readAnswer s (s.readEffect a) (.data (v % 2 ^ 32))) := by
  rw [readDo_reg h hr ha hf, regWord_shown hacc hlo hw hv, clearRc_of_not_rc (by simp [hacc])]

/-- A read that latches the high half of `v` in `g`. -/
theorem onlyFlds_latch (s : State) (g : Fld) (v : Nat) (b : Bus) (hw : g.w = 32) :
    (readAnswer s (s.latch g v) b).get g = v / 2 ^ 32 % 2 ^ 32 ∧ OnlyFlds s (readAnswer s (s.latch g v) b) [g] := by
  refine ⟨?_, fun e he => ?_, rfl⟩
  · have hg : (s.set g (v / 2 ^ 32)).get g = _ := get_set_same ..
    rwa [hw] at hg
  · exact get_set_other s _ (he g (by simp)).symm

/-! Capture sets. -/

theorem cset_setCset (s : State) (m : Nat) (c : CapSet) : (s.setCset m c).cset m = c := by
  show (Store.get none (Store.put none s.cap.sets m (some c)) m).getD CapSet.init = c
  rw [get_put_same]
  rfl

theorem cset_setCset_other (s : State) {m j : Nat} (c : CapSet) (h : j ≠ m) : (s.setCset m c).cset j = s.cset j := by
  show (Store.get none (Store.put none s.cap.sets m (some c)) j).getD CapSet.init = _
  rw [put_get_ne _ _ _ h]
  rfl

/-! The registers of these reads: where they stand, what they show and what a read of them latches. -/

theorem region_regs {a : Nat} (h : 0x80000000 ≤ a) (h' : a < 0x80170000) : region a = some .regs := by
  unfold region
  iterate 8 rw [if_neg (by omega)]
  exact if_pos ⟨h, h'⟩

theorem fieldsAt_digLo : ∀ n : Fin 12, fieldsAt (0x80090014 + 0x40 * n.val) = some [R.LE_ENG_DIG_LO_DIG_LO n] := by decide +kernel

theorem fieldsAt_missT : ∀ m : Fin 8, fieldsAt (0x800C014C + 0x80 * m.val) = some [R.CAP_SET_MISS_T_LO_T_LO m] := by decide +kernel

theorem fieldsAt_missCnt : ∀ m : Fin 8, fieldsAt (0x800C0148 + 0x80 * m.val) = some [R.CAP_SET_MISS_CNT_MISSED_TRIG m, R.CAP_SET_MISS_CNT_EARLY_IGN m] := by decide +kernel

/-- A loop engine's register shows the engine's state (R148). -/
theorem shown_eng {s : State} {f : Fld} (hb : (f.addr - 0x80000000) / 0x10000 = 9) (ho : f.addr % 0x10000 < 0x300) : s.shown f = s.engView f := by
  simp only [State.shown, hb]
  rw [if_pos ho]

theorem engView_dig {s : State} {f : Fld} (hk : (f.addr - 0x80090000) % 0x40 = 0x14) (hlo : f.lo = 0) :
    s.engView f = some (s.eng ((f.addr - 0x80090000) / 0x40)).dig := by
  unfold State.engView
  simp [hk, hlo]

theorem shown_digLo (s : State) (n : Fin 12) : s.shown (R.LE_ENG_DIG_LO_DIG_LO n) = some (s.eng n).dig := by
  have haddr : (R.LE_ENG_DIG_LO_DIG_LO n).addr = 0x80090014 + 0x40 * n.val := rfl
  rw [shown_eng (by omega) (by omega), engView_dig (by omega) rfl, show ((R.LE_ENG_DIG_LO_DIG_LO n).addr - 0x80090000) / 0x40 = n.val by omega]

/-- A field of a capture set's registers other than STAT: MISS_T shows the kept instant, the others what they hold (R263, R264). -/
theorem shown_capSet {s : State} {f : Fld} (hb : (f.addr - 0x80000000) / 0x10000 = 12) (ho : 0x100 ≤ f.addr % 0x10000 ∧ f.addr % 0x10000 < 0x500)
    (hk : f.addr % 0x80 ≠ 0x40) : s.shown f = if f.addr % 0x80 = 0x4C then some (s.missT ((f.addr % 0x10000 - 0x100) / 0x80)) else none := by
  have hsub : f.addr % 0x10000 % 0x80 = f.addr % 0x80 := by omega
  unfold State.shown
  rw [hb]
  split
  case h_19 => omega
  case h_20 => simp only [ho, hsub, hk, true_and, false_and, if_false]
  all_goals contradiction

theorem shown_missT (s : State) (m : Fin 8) : s.shown (R.CAP_SET_MISS_T_LO_T_LO m) = some (s.missT m) := by
  have haddr : (R.CAP_SET_MISS_T_LO_T_LO m).addr = 0x800C014C + 0x80 * m.val := rfl
  rw [shown_capSet (by omega) (by omega) (by omega), if_pos (by omega), show ((R.CAP_SET_MISS_T_LO_T_LO m).addr % 0x10000 - 0x100) / 0x80 = m.val by omega]

theorem shown_missCnt (s : State) (m : Fin 8) : s.shown (R.CAP_SET_MISS_CNT_MISSED_TRIG m) = none ∧ s.shown (R.CAP_SET_MISS_CNT_EARLY_IGN m) = none := by
  have hmissed : (R.CAP_SET_MISS_CNT_MISSED_TRIG m).addr = 0x800C0148 + 0x80 * m.val := rfl
  have hearly : (R.CAP_SET_MISS_CNT_EARLY_IGN m).addr = 0x800C0148 + 0x80 * m.val := rfl
  constructor <;> rw [shown_capSet (by omega) (by omega) (by omega), if_neg (by omega)]

theorem readEffect_digLo (s : State) (n : Fin 12) :
    s.readEffect (0x80090014 + 0x40 * n.val) = (s.latch (R.LE_ENG_DIG_HI_DIG_HI n) (s.eng n).dig).set (R.LE_ENG_DIG_CRS_DIG_CRS n) (s.eng n).digCrs := by
  simp only [State.readEffect, show (0x80090014 + 0x40 * n.val - 0x80000000) / 0x10000 = 9 by omega,
    show (0x80090014 + 0x40 * n.val) % 0x10000 = 0x14 + 0x40 * n.val by omega, show (0x14 + 0x40 * n.val) / 0x40 = n.val by omega]
  rw [if_pos (by omega)]

theorem readEffect_missT (s : State) (m : Fin 8) : s.readEffect (0x800C014C + 0x80 * m.val) = s.latch (R.CAP_SET_MISS_T_HI_T_HI m) (s.missT m) := by
  simp only [State.readEffect, show (0x800C014C + 0x80 * m.val - 0x80000000) / 0x10000 = 12 by omega,
    show (0x800C014C + 0x80 * m.val) % 0x10000 = 0x14C + 0x80 * m.val by omega, show (0x14C + 0x80 * m.val - 0x100) / 0x80 = m.val by omega]
  rw [if_neg (by omega), if_pos (by omega)]

theorem readEffect_missCnt (s : State) (m : Fin 8) : s.readEffect (0x800C0148 + 0x80 * m.val) = s.setCset m { s.cset m with missT := none } := by
  simp only [State.readEffect, show (0x800C0148 + 0x80 * m.val - 0x80000000) / 0x10000 = 12 by omega,
    show (0x800C0148 + 0x80 * m.val) % 0x10000 = 0x148 + 0x80 * m.val by omega, show (0x148 + 0x80 * m.val - 0x100) / 0x80 = m.val by omega]
  rw [if_neg (by omega), if_neg (by omega), if_pos (by omega)]

/-! The reads. -/

/-- A word read of a register (R13). -/
theorem counterReadClear_reg {s : State} {q : Req} {a : BitVec 32} {fs : List Fld} (hf : fieldsAt a.toNat = some fs) (h : region a.toNat = some .regs)
    (hr : s.reach a.toNat = true) (ha : a.toNat % 4 = 0) :
    Ends (.counterReadClear q a) s (fun t => t.bus = .data (s.regWord fs) ∧ (∀ f ∈ fs, f.acc = .rc → t.get f = 0) ∧
      t = { s with flds := t.flds, rings := t.rings, cap := t.cap, free := t.free, bus := t.bus, outs := t.outs }) :=
  ⟨_, readDo_reg h hr ha hf, rfl, fun _ hfm hacc => clearRc_get_rc (fieldsAt_keys hf) hfm hacc (s.readEffect a.toNat), rfl⟩

/-- A read of the low half of a 64-bit value `v`, of which the high half is latched in `g`. -/
theorem ends_latch {c : Instr} {s : State} {q : Req} {a : Nat} {f g : Fld} {v : Nat} (hc : exec c s = readDo (s.busRead q a 4) s) (hr : s.reach a = true)
    (hf : fieldsAt a = some [f]) (h : region a = some .regs) (ha : a % 4 = 0) (hacc : f.acc = .ro) (hlo : f.lo = 0) (hw : f.w = 32) (hv : s.shown f = some v)
    (he : s.readEffect a = s.latch g v) (hg : g.w = 32) :
    Ends c s (fun t => t.bus = .data (v % 2 ^ 32) ∧ t.get g = v / 2 ^ 32 % 2 ^ 32 ∧ OnlyFlds s t [g]) := by
  refine ⟨_, hc.trans (readDo_shown hf hr h ha hacc hlo hw hv), rfl, ?_⟩
  rw [he]
  exact onlyFlds_latch s g v _ hg

theorem crsCntLoRead_latches {s : State} {q : Req} (hr : s.reach 0x80030008 = true) : Ends (.crsCntLoRead q) s (fun t => t.bus = .data (s.crs.cnt % 2 ^ 32) ∧
    t.get R.BOND_CRS_CNT_HI_CNT_HI = s.crs.cnt / 2 ^ 32 % 2 ^ 32 ∧ OnlyFlds s t [R.BOND_CRS_CNT_HI_CNT_HI]) :=
  ends_latch (f := R.BOND_CRS_CNT_LO_CNT_LO) rfl hr (by decide +kernel) (by decide) (by decide) rfl rfl rfl (by simp [State.shown, R.BOND_CRS_CNT_LO_CNT_LO]) rfl rfl

theorem timNowLoRead_latches {s : State} {q : Req} (hr : s.reach 0x80110000 = true) : Ends (.timNowLoRead q) s (fun t => t.bus = .data (s.now % 2 ^ 32) ∧
    t.get R.TIM_NOW_HI_NOW_HI = s.now / 2 ^ 32 % 2 ^ 32 ∧ OnlyFlds s t [R.TIM_NOW_HI_NOW_HI]) :=
  ends_latch (f := R.TIM_NOW_LO_NOW_LO) rfl hr (by decide +kernel) (by decide) (by decide) rfl rfl rfl (by simp [State.shown, R.TIM_NOW_LO_NOW_LO]) rfl rfl

theorem timMasterLoRead_latches {s : State} {q : Req} (hr : s.reach 0x80110020 = true) : Ends (.timMasterLoRead q) s (fun t => t.bus = .data (s.masterId % 2 ^ 32) ∧
    t.get R.TIM_MASTER_HI_ID_HI = s.masterId / 2 ^ 32 % 2 ^ 32 ∧ OnlyFlds s t [R.TIM_MASTER_HI_ID_HI]) :=
  ends_latch (f := R.TIM_MASTER_LO_ID_LO) rfl hr (by decide +kernel) (by decide) (by decide) rfl rfl rfl (by simp [State.shown, R.TIM_MASTER_LO_ID_LO]) rfl rfl

theorem capCascTLoRead_latches {s : State} {q : Req} (hr : s.reach 0x800C000C = true) : Ends (.capCascTLoRead q) s (fun t => t.bus = .data (s.cap.cascT % 2 ^ 32) ∧
    t.get R.CAP_CASC_T_HI_T_HI = s.cap.cascT / 2 ^ 32 % 2 ^ 32 ∧ OnlyFlds s t [R.CAP_CASC_T_HI_T_HI]) :=
  ends_latch (f := R.CAP_CASC_T_LO_T_LO) rfl hr (by decide +kernel) (by decide) (by decide) rfl rfl rfl (by simp [State.shown, R.CAP_CASC_T_LO_T_LO]) rfl rfl

theorem missTLoRead_latches {s : State} {q : Req} {m : Fin 8} (hr : s.reach (0x800C014C + 0x80 * m.val) = true) : Ends (.missTLoRead q m) s (fun t =>
    t.bus = .data (s.missT m % 2 ^ 32) ∧ t.get (R.CAP_SET_MISS_T_HI_T_HI m) = s.missT m / 2 ^ 32 % 2 ^ 32 ∧ OnlyFlds s t [R.CAP_SET_MISS_T_HI_T_HI m]) :=
  ends_latch rfl hr (fieldsAt_missT m) (region_regs (by omega) (by omega)) (by omega) rfl rfl rfl (shown_missT s m) (readEffect_missT s m) rfl

/-- A read of DIG_LO latches the digest's high half and its course (R148). -/
theorem digLoRead_latches {s : State} {q : Req} {n : Fin 12} (hr : s.reach (0x80090014 + 0x40 * n.val) = true) : Ends (.digLoRead q n) s (fun t =>
    t.bus = .data ((s.eng n).dig % 2 ^ 32) ∧ t.get (R.LE_ENG_DIG_HI_DIG_HI n) = (s.eng n).dig / 2 ^ 32 % 2 ^ 32 ∧
    t.get (R.LE_ENG_DIG_CRS_DIG_CRS n) = (s.eng n).digCrs % 2 ^ 32 ∧ OnlyFlds s t [R.LE_ENG_DIG_HI_DIG_HI n, R.LE_ENG_DIG_CRS_DIG_CRS n]) := by
  have hkeys : (R.LE_ENG_DIG_HI_DIG_HI n).key ≠ (R.LE_ENG_DIG_CRS_DIG_CRS n).key := by
    simp only [Fld.key, R.LE_ENG_DIG_HI_DIG_HI, R.LE_ENG_DIG_CRS_DIG_CRS]
    omega
  refine ⟨_, readDo_shown (fieldsAt_digLo n) hr (region_regs (by omega) (by omega)) (by omega) rfl rfl rfl (shown_digLo s n), rfl, ?_⟩
  rw [readEffect_digLo]
  refine ⟨?_, ?_, fun g hg => ?_, rfl⟩
  · exact (get_set_other _ _ hkeys).trans (get_set_same _ _ _)
  · exact get_set_same _ _ _
  · exact (get_set_other _ _ (hg _ (by simp)).symm).trans (get_set_other _ _ (hg _ (by simp)).symm)

/-- A read of MISS_CNT clears both counters and forgets the kept instant (R256). -/
theorem missCntRead_clears {s : State} {q : Req} {m : Fin 8} (hr : s.reach (0x800C0148 + 0x80 * m.val) = true) : Ends (.missCntRead q m) s (fun t =>
    t.bus = .data (s.get (R.CAP_SET_MISS_CNT_MISSED_TRIG m) % 2 ^ 16 + s.get (R.CAP_SET_MISS_CNT_EARLY_IGN m) % 2 ^ 16 * 2 ^ 16) ∧
    t.get (R.CAP_SET_MISS_CNT_MISSED_TRIG m) = 0 ∧ t.get (R.CAP_SET_MISS_CNT_EARLY_IGN m) = 0 ∧ (t.cset m).missT = none ∧ t.get (R.CAP_SET_STAT_STATE m) = (s.cset m).st % 8 ∧
    FldsBut s t [R.CAP_SET_MISS_CNT_MISSED_TRIG m, R.CAP_SET_MISS_CNT_EARLY_IGN m, R.CAP_SET_STAT_STATE m] ∧
    (∀ j, j ≠ m.val → t.cset j = s.cset j) ∧ t = { s with flds := t.flds, cap := t.cap, bus := t.bus, outs := t.outs }) := by
  have hf := fieldsAt_missCnt m
  have hword : s.regWord [R.CAP_SET_MISS_CNT_MISSED_TRIG m, R.CAP_SET_MISS_CNT_EARLY_IGN m] =
      s.get (R.CAP_SET_MISS_CNT_MISSED_TRIG m) % 2 ^ 16 + s.get (R.CAP_SET_MISS_CNT_EARLY_IGN m) % 2 ^ 16 * 2 ^ 16 := by
    obtain ⟨hmissed, hearly⟩ := shown_missCnt s m
    simp only [State.regWord, State.view, List.foldl_cons, List.foldl_nil, hmissed, hearly, Option.getD_none]
    simp [R.CAP_SET_MISS_CNT_MISSED_TRIG, R.CAP_SET_MISS_CNT_EARLY_IGN]
  have hstat : ∀ f ∈ [R.CAP_SET_MISS_CNT_MISSED_TRIG m, R.CAP_SET_MISS_CNT_EARLY_IGN m], (R.CAP_SET_STAT_STATE m).key ≠ f.key := by
    intro f hfm
    have haddr := (fieldsAt_field hf hfm).1
    have hlo := (fieldsAt_field hf hfm).2
    simp only [Fld.key, R.CAP_SET_STAT_STATE]
    omega
  refine ⟨_, readDo_reg (region_regs (by omega) (by omega)) hr (by omega) hf, congrArg Bus.data hword, ?_⟩
  rw [clearRc_flds, readEffect_missCnt]
  refine ⟨clearRc_get_rc (fieldsAt_keys hf) (by simp) rfl _, clearRc_get_rc (fieldsAt_keys hf) (by simp) rfl _, ?_, ?_, fun g hg => ?_, fun j hj => ?_, rfl⟩
  · exact congrArg CapSet.missT (cset_setCset s m _)
  · exact (clearRc_get_other hstat _).trans (get_set_same _ _ _)
  · exact (clearRc_get_other (fun f hfm => (hg f (List.mem_append_left [_] hfm)).symm) _).trans (get_set_other _ _ (hg _ (by simp)).symm)
  · exact cset_setCset_other s _ hj

/-- Settles O25: each read by what its register shows, latches and clears. -/
theorem registerReadsClearAndLatch : Obligations.RegisterReadsClearAndLatch := fun _ _ _ _ _ =>
  ⟨fun _ hf h hr ha => counterReadClear_reg hf h hr ha, crsCntLoRead_latches, digLoRead_latches, timNowLoRead_latches, timMasterLoRead_latches, capCascTLoRead_latches,
    missTLoRead_latches, missCntRead_clears⟩

end Sys2Proof.Proofs
end

section
/-! SUPPORT. Bridge faults of a stepper phase (O35; R47, R167). -/
namespace Sys2Proof.Proofs
open Machine Laws

/-! What STEP_FAULT and a transient fault write. -/

theorem chan_setChan_other (s : State) {n m : Nat} (c : Chan) (h : m ≠ n) : (s.setChan n c).chan m = s.chan m := get_put_other _ _ _ _ h

/-- A mask ORed into a field sets the bit it names, where the field is wide enough. -/
theorem bit_orFld (s : State) {f : Fld} {i : Nat} (h : i < f.w) : bit ((s.orFld f (2 ^ i)).get f) i = true := by
  rw [get_orFld_same, bit_eq_testBit, Nat.testBit_mod_two_pow, Nat.testBit_or, Nat.testBit_two_pow_self]
  simp [h]

/-- The register of a channel's STP_FLT bit. -/
def fltFld (n : Nat) : Fld := if n < 32 then R.STP_FLT0_FLT else R.STP_FLT1_FLT

/-- The channel's place in that register. -/
def fltBit (n : Nat) : Nat := if n < 32 then n else n - 32

theorem stpFlt_eq (s : State) (n : Nat) : s.stpFlt n = bit (s.get (fltFld n)) (fltBit n) := by
  unfold State.stpFlt fltFld fltBit
  split <;> rfl

/-- STEP_FAULT (R167): the code, the channel's bit, and the cause. -/
theorem stepFault_eq (s : State) (n code : Nat) : s.stepFault n code =
    ((s.set (R.STP_STAT_FLT_CODE n) code).orFld (fltFld n) (2 ^ fltBit n)).setAx (192 + n) { s.ax (192 + n) with pend := (s.ax (192 + n)).pend ||| cStep } := by
  unfold State.stepFault fltFld fltBit
  split <;> rfl

theorem fltFld_key_ne (n : Fin 48) : (fltFld n).key ≠ (R.STP_STAT_FLT_CODE n).key := by
  unfold fltFld
  split <;> simp only [Fld.key, R.STP_FLT0_FLT, R.STP_FLT1_FLT, R.STP_STAT_FLT_CODE] <;> omega

theorem fltBit_lt (n : Fin 48) : fltBit n < (fltFld n).w := by
  unfold fltFld fltBit
  split <;> simp only [R.STP_FLT0_FLT, R.STP_FLT1_FLT] <;> omega

theorem stepFault_code (s : State) (n : Fin 48) {code : Nat} (h : code < 8) : (s.stepFault n code).get (R.STP_STAT_FLT_CODE n) = code := by
  rw [stepFault_eq, setAx_get, get_orFld_other _ _ (fltFld_key_ne n).symm, get_set_same]
  exact Nat.mod_eq_of_lt h

theorem stepFault_stpFlt (s : State) (n : Fin 48) (code : Nat) : (s.stepFault n code).stpFlt n = true := by
  rw [stpFlt_eq, stepFault_eq, setAx_get]
  exact bit_orFld _ (fltBit_lt n)

theorem stepFault_fldsBut (s : State) (n code : Nat) : FldsBut s (s.stepFault n code) [R.STP_STAT_FLT_CODE n, R.STP_FLT0_FLT, R.STP_FLT1_FLT] := by
  intro f hf
  have hflt : (fltFld n).key ≠ f.key := by
    unfold fltFld
    split <;> exact hf _ (by simp)
  rw [stepFault_eq, setAx_get, get_orFld_other _ _ hflt.symm, get_set_other _ _ (hf _ (by simp)).symm]

theorem count_flds (s : State) (f : Fld) : s.count f = { s with flds := (s.count f).flds } := by
  unfold State.count
  split <;> rfl

theorem transient_flds (s : State) (n : Nat) : s.transient n = { s with flds := (s.transient n).flds } := count_flds _ _

theorem transCnt_key_ne (n : Fin 48) : R.STP_TRANS_CNT_COUNT.key ≠ (R.STP_STAT_TRANS n).key := by
  simp only [Fld.key, R.STP_TRANS_CNT_COUNT, R.STP_STAT_TRANS]
  omega

/-- A transient fault sets TRANS and is counted (R167). -/
theorem transient_flag (s : State) (n : Fin 48) : (s.transient n).flag (R.STP_STAT_TRANS n) = true := by
  rw [State.flag, State.transient, get_count_other _ (transCnt_key_ne n).symm, get_setFlag_same]
  rfl

theorem transient_counted (s : State) (n : Fin 48) : Counted s (s.transient n) R.STP_TRANS_CNT_COUNT := by
  rw [Counted, State.transient, get_count_same, get_setFlag_other _ _ (transCnt_key_ne n)]

theorem transient_fldsBut (s : State) (n : Nat) : FldsBut s (s.transient n) [R.STP_STAT_TRANS n, R.STP_TRANS_CNT_COUNT] := by
  intro f hf
  rw [State.transient, get_count_other _ (hf _ (by simp)).symm, get_setFlag_other _ _ (hf _ (by simp)).symm]

/-! A bridge fault. -/

/-- The phase with a fault noted, in its 50 µs retry. -/
def retrying (p : Phase) (code : Nat) : Phase := { p with st := .retry, havePrev := false, held := false, early := none, fault := some code }

section
variable {i : Instr} {s : State} {n : Fin 48} {b : Bool} {code : Nat}

/-- What a stepper event leaves, from what its meaning leaves. -/
theorem ends_stpDo {u : State} {o : List Out} {p : State → Prop} (hi : exec i s = stpDo u s o)
    (hp : p { s with chans := u.chans, axes := u.axes, flds := u.flds, bus := .none, outs := o }) : Ends i s p := ⟨_, hi, hp⟩

/-- The first fault of a phase is noted and retried. -/
theorem bridgeFault_first (hi : exec i s = stpDo (s.bridgeFault n b code) s []) (h : ((s.chan n).ph b).fault = none) :
    Ends i s (fun t => t.chan n = (s.chan n).setPh b (retrying ((s.chan n).ph b) code) ∧ OnlyChan s t n []) := by
  have hu : s.bridgeFault n b code = s.setChan n ((s.chan n).setPh b (retrying ((s.chan n).ph b) code)) := by
    simp [State.bridgeFault, h, retrying]
  rw [hu] at hi
  exact ends_stpDo hi ⟨chan_setChan _ _ _, fun m hm => chan_setChan_other _ _ hm, fun _ _ => rfl, rfl⟩

/-- Another fault in the fresh period: the one before was transient, and this one is retried itself. -/
theorem bridgeFault_other {old : Nat} (hi : exec i s = stpDo (s.bridgeFault n b code) s []) (h : ((s.chan n).ph b).fault = some old) (hne : old ≠ code) :
    Ends i s (fun t => t.chan n = (s.chan n).setPh b (retrying ((s.chan n).ph b) code) ∧ t.flag (R.STP_STAT_TRANS n) = true ∧
      Counted s t R.STP_TRANS_CNT_COUNT ∧ OnlyChan s t n [R.STP_STAT_TRANS n, R.STP_TRANS_CNT_COUNT]) := by
  have hu : s.bridgeFault n b code = (s.transient n).setChan n ((s.chan n).setPh b (retrying ((s.chan n).ph b) code)) := by
    simp [State.bridgeFault, h, hne, retrying]
  rw [hu, transient_flds] at hi
  refine ends_stpDo hi ⟨chan_setChan _ _ _, transient_flag s n, transient_counted s n, fun m hm => chan_setChan_other s _ hm, transient_fldsBut s n, rfl⟩

/-- The same fault in the fresh period is lasting: STEP_FAULT. -/
theorem bridgeFault_again (hi : exec i s = stpDo (s.bridgeFault n b code) s []) (hcode : code < 8) (h : ((s.chan n).ph b).fault = some code) :
    Ends i s (fun t => (t.chan n).flt = some code ∧ (t.chan n).phA.st = .off ∧ (t.chan n).phB.st = .off ∧
      t.get (R.STP_STAT_FLT_CODE n) = code ∧ t.stpFlt n = true ∧ t.ax (192 + n) = { s.ax (192 + n) with pend := (s.ax (192 + n)).pend ||| cStep } ∧
      OnlyChanAx s t n [R.STP_STAT_FLT_CODE n, R.STP_FLT0_FLT, R.STP_FLT1_FLT]) := by
  let c := s.chan n
  let u := s.setChan n { c with flt := some code, phA := { c.phA with st := .off, fault := none }, phB := { c.phB with st := .off, fault := none } }
  have hu : s.bridgeFault n b code = u.stepFault n code := by simp [State.bridgeFault, h, u, c]
  have hchans : (u.stepFault n code).chans = u.chans := by rw [stepFault_eq]; rfl
  have haxes : (u.stepFault n code).axes = (s.setAx (192 + n) { s.ax (192 + n) with pend := (s.ax (192 + n)).pend ||| cStep }).axes := by rw [stepFault_eq]; rfl
  have hchan : u.chan n = _ := chan_setChan s n _
  rw [hu] at hi
  refine ends_stpDo hi ?_
  rw [hchans, haxes]
  exact ⟨congrArg Chan.flt hchan, congrArg (·.phA.st) hchan, congrArg (·.phB.st) hchan, stepFault_code u n hcode, stepFault_stpFlt u n code,
    ax_setAx _ _ _, fun m hm => chan_setChan_other s _ hm, fun a ha => ax_setAx_other s _ ha, stepFault_fldsBut u n code, rfl⟩

end

/-! The events that find a fault, and the end of a retry. -/

theorem inPhase_iff {s : State} {n : Nat} {b : Bool} {st : PhSt} (h : s.chanState n = 1) : s.inPhase n b st = true ↔ ((s.chan n).ph b).st = st := by
  simp [State.inPhase, h]

theorem slowMidpoint_idle {s : State} {n : Nat} {b beat : Bool} (h : ((s.chan n).ph b).wait = true ∨ beat = false) : s.slowMidpoint n b beat = s := by
  rcases h with h | h <;> simp [State.slowMidpoint, h]

theorem ph_setPh_same (c : Chan) (b : Bool) (p : Phase) : (c.setPh b p).ph b = p := by cases b <;> rfl

theorem ph_setPh_not (c : Chan) (b : Bool) (p : Phase) : (c.setPh b p).ph (!b) = c.ph (!b) := by cases b <;> rfl

/-- A chopper period that starts: the phase drives where its target is at least 1, and keeps the fault of which it is the fresh period (R160, R167). -/
theorem period_start {p : Phase} (cfg : ChanCfg) (t : Rat) (neg : Bool) (ofs : Int) (h : p.havePrev = false) :
    (p.period cfg t neg ofs).st = (if t < 1 then .slow else .drive) ∧ (p.period cfg t neg ofs).fault = p.fault ∧ (p.period cfg t neg ofs).havePrev = false ∧
    (p.period cfg t neg ofs).t = t := by
  unfold Phase.period
  by_cases ht : t < 1 <;> by_cases hneg : neg = p.neg <;> simp [ht, hneg, Phase.aim, h]

/-- Settles O35: each event by the branch of R167 that it takes. -/
theorem bridgeFaults : Obligations.BridgeFaults := by
  intro s n b hchops c p faults
  have hfaults : ∀ {i code}, exec i s = stpDo (s.bridgeFault n b code) s [] → code < 8 → faults i code := fun hi hcode =>
    ⟨bridgeFault_first hi, fun _ hold hne => bridgeFault_other hi hold hne, bridgeFault_again hi hcode⟩
  have hin : ∀ {st}, p.st = st → s.inPhase n b st = true := (inPhase_iff hchops).mpr
  have hidle : ∀ {beat}, (p.wait = true ∨ beat = false) → Ends (.slowDecayMidpoint n b beat) s (fun t => Unchanged s t) := fun h =>
    ends_stpDo (congrArg (stpDo · s []) (slowMidpoint_idle h)) rfl
  refine ⟨fun hdrive => hfaults (congrArg (stpDo · s []) ?_) (by decide), fun hslow hwait => hfaults (congrArg (stpDo · s []) ?_) (by decide),
    fun _ hwait => hidle (.inl hwait), fun hdrive hopen => hfaults (congrArg (stpDo · s []) ?_) (by decide), fun _ => hidle (.inr rfl), fun hretry => ?_⟩
  · simp [State.blankingEnd, hin hdrive]
  · have hp : ((s.chan n).ph b).wait = false := hwait
    simp [State.slowMidpoint, hin hslow, hp]
  · have hp : ((s.chan n).cfg.openMin : Rat) ≤ ((s.chan n).ph b).t := hopen
    simp [State.onTimeMax, hin hdrive, hp]
  · let q := Phase.period { p with havePrev := false } c.cfg (s.target n b).1 (s.target n b).2 (s.cmpOfs n b)
    have hu : s.retryEnd n b = s.setChan n (c.setPh b q) := by simp [State.retryEnd, hin hretry, c, p, q]
    have hchan : (s.setChan n (c.setPh b q)).chan n = c.setPh b q := chan_setChan _ _ _
    have hq : ((s.setChan n (c.setPh b q)).chan n).ph b = q := by rw [hchan, ph_setPh_same]
    obtain ⟨hst, hfault, hprev, ht⟩ := period_start (p := { p with havePrev := false }) c.cfg (s.target n b).1 (s.target n b).2 (s.cmpOfs n b) rfl
    refine ends_stpDo (congrArg (stpDo · s []) hu) ⟨(congrArg Phase.st hq).trans hst, (congrArg Phase.fault hq).trans hfault, (congrArg Phase.havePrev hq).trans hprev,
      (congrArg Phase.t hq).trans ht, (congrArg (Chan.ph · (!b)) hchan).trans (ph_setPh_not _ _ _), fun m hm => chan_setChan_other s _ hm, fun _ _ => rfl, rfl⟩

end Sys2Proof.Proofs
end

section
/-! SUPPORT. What a profile command keeps and answers (O27; R49, R448): the course and the answers of the ports, whatever the command does. -/
namespace Sys2Proof.Proofs
open Machine Laws

/-! The course and the ports' registers. Every register that a profile command or an event writes lies behind those of the ports. -/

/-- The course and the registers of the command ports, which lie below PF_DONE, are the same. -/
def SamePorts (s t : State) : Prop := t.crs.cnt = s.crs.cnt ∧ ∀ f : Fld, f.key < (R.PF_DONE_DONE 0).key → t.get f = s.get f

theorem SamePorts.refl (s : State) : SamePorts s s := ⟨rfl, fun _ _ => rfl⟩

theorem SamePorts.trans {s t u : State} (h : SamePorts s t) (h' : SamePorts t u) : SamePorts s u :=
  ⟨h'.1.trans h.1, fun f hf => (h'.2 f hf).trans (h.2 f hf)⟩

/-- A change that touches neither the course nor a register. -/
theorem SamePorts.of_eq {s t : State} (hflds : t.flds = s.flds) (hcrs : t.crs.cnt = s.crs.cnt) : SamePorts s t :=
  ⟨hcrs, fun f _ => congrArg (Store.get f.rst · f.key) hflds⟩

/-- A write to a register behind the ports. -/
theorem samePorts_set (s : State) {f : Fld} (v : Nat) (h : (R.PF_DONE_DONE 0).addr ≤ f.addr) : SamePorts s (s.set f v) := by
  refine ⟨rfl, fun g hg => get_set_other _ _ (fun e => ?_)⟩
  have hf : f.key = f.addr * 32 + f.lo := rfl
  have hd : (R.PF_DONE_DONE 0).key = (R.PF_DONE_DONE 0).addr * 32 := rfl
  omega

theorem samePorts_setFlag (s : State) {f : Fld} (b : Bool) (h : (R.PF_DONE_DONE 0).addr ≤ f.addr) : SamePorts s (s.setFlag f b) := samePorts_set s _ h

theorem samePorts_orFld (s : State) {f : Fld} (m : Nat) (h : (R.PF_DONE_DONE 0).addr ≤ f.addr) : SamePorts s (s.orFld f m) := samePorts_set s _ h

theorem samePorts_count (s : State) {f : Fld} (h : (R.PF_DONE_DONE 0).addr ≤ f.addr) : SamePorts s (s.count f) := by
  unfold State.count
  split <;> exact samePorts_set s _ h

/-- Updates of one part of the state. -/
theorem samePorts_setAx (s : State) (a : Nat) (x : Ax) : SamePorts s (s.setAx a x) := .of_eq rfl rfl
theorem samePorts_setGrp (s : State) (k : Nat) (g : Grp) : SamePorts s (s.setGrp k g) := .of_eq rfl rfl
theorem samePorts_setChan (s : State) (n : Nat) (c : Chan) : SamePorts s (s.setChan n c) := .of_eq rfl rfl
theorem samePorts_setLoop (s : State) (a : Nat) (l : Loop) : SamePorts s (s.setLoop a l) := .of_eq rfl rfl
theorem samePorts_poke (s : State) (w : List (Nat × BitVec 8)) : SamePorts s (s.poke w) := .of_eq rfl rfl

/-- A branch on either side of which the ports stand. -/
theorem samePorts_ite {s t u : State} {p : Prop} [Decidable p] (ht : SamePorts s t) (hu : SamePorts s u) : SamePorts s (if p then t else u) := by
  split
  · exact ht
  · exact hu

theorem samePorts_foldl {α : Type} {step : State → α → State} (h : ∀ u i, SamePorts u (step u i)) (l : List α) (s : State) : SamePorts s (l.foldl step s) :=
  List.foldlRecOn l step (.refl s) fun u hu i _ => hu.trans (h u i)

/-- A command's answer with a state in which the ports stand. -/
def PortsKept (s : State) (r : Nat × State) : Prop := SamePorts s r.2

theorem PortsKept.refl {s : State} {k : Nat} : PortsKept s (k, s) := SamePorts.refl s

/-- A check of a command: one that fails answers at once. -/
theorem portsKept_ite {s : State} {q r : Nat × State} {p : Prop} [Decidable p] (hq : PortsKept s q) (hr : PortsKept s r) : PortsKept s (if p then q else r) := by
  split
  · exact hq
  · exact hr

/-- STPn_STAT lies behind the ports. -/
theorem stpStat_addr (n : Nat) : (R.PF_DONE_DONE 0).addr ≤ 0x800A0030 + 0x40 * n := Nat.le_add_right_of_le (by decide)

/-! Stepper channels. -/

theorem restart_chans (s : State) (n : Nat) : s.restart n = { s with chans := (s.restart n).chans } := by
  unfold State.restart
  dsimp only
  split <;> rfl

theorem reindex_chans (s : State) (n : Nat) (c : Chan) : s.reindex n c = { s with chans := (s.reindex n c).chans } := by
  unfold State.reindex
  split <;> rfl

theorem samePorts_restart (s : State) (n : Nat) : SamePorts s (s.restart n) := by
  rw [restart_chans]
  exact .of_eq rfl rfl

theorem samePorts_reindex (s : State) (n : Nat) (c : Chan) : SamePorts s (s.reindex n c) := by
  rw [reindex_chans]
  exact .of_eq rfl rfl

theorem samePorts_chanReload (s : State) (n : Nat) : SamePorts s (s.chanReload n) := (samePorts_setChan s n _).trans (samePorts_reindex _ n _)

theorem samePorts_chanClear (s : State) (n : Nat) (off : Bool) : SamePorts s (s.chanClear n off) :=
  ((samePorts_set s (f := R.STP_STAT_FLT_CODE n) 0 (stpStat_addr n)).trans (samePorts_setChan _ n _)).trans (samePorts_restart _ n)

theorem samePorts_stepFault (s : State) (n code : Nat) : SamePorts s (s.stepFault n code) :=
  ((samePorts_set s (f := R.STP_STAT_FLT_CODE n) code (stpStat_addr n)).trans
    (samePorts_ite (samePorts_orFld _ _ (by decide)) (samePorts_orFld _ _ (by decide)))).trans (samePorts_setAx _ _ _)

theorem samePorts_stallAct (s : State) (n : Nat) : SamePorts s (s.stallAct n) := by
  unfold State.stallAct
  dsimp only
  have hmarked := samePorts_setChan s n { s.chan n with stall := true }
  split
  · exact samePorts_ite ((samePorts_setChan s n _).trans (samePorts_setAx _ _ _)) hmarked
  · have hfault := samePorts_ite (p := bit (s.chan n).cfg.cfg 11 = true) (hmarked.trans (samePorts_stepFault _ n 4)) hmarked
    exact samePorts_ite hfault (hfault.trans (samePorts_setAx _ _ _))

theorem samePorts_fullStep (s : State) (n : Nat) : SamePorts s (s.fullStep n) := by
  unfold State.fullStep
  have hjudged : ∀ c v, SamePorts s ((s.setChan n c).set (R.STP_STAT_SLOPE_AVG n) v) := fun c v =>
    (samePorts_setChan s n c).trans (samePorts_set _ v (stpStat_addr n))
  exact samePorts_ite (.refl s) (samePorts_ite ((hjudged _ _).trans (samePorts_stallAct _ _)) (hjudged _ _))

theorem samePorts_moveChan (s : State) (n : Nat) (p : Int) : SamePorts s (s.moveChan n p) := by
  have hmoved := samePorts_setChan s n ((s.chan n).moveTo (s.stepping n) p)
  exact (samePorts_ite hmoved (hmoved.trans (samePorts_fullStep _ n))).trans (samePorts_reindex _ n _)

theorem samePorts_chanFreeze (s : State) (n : Nat) : SamePorts s (s.chanFreeze n) :=
  ((samePorts_moveChan s n _).trans (samePorts_setChan _ n _)).trans (samePorts_setAx _ _ _)

/-! Copies of parameters, and live updates. -/

/-- A live update that is dropped leaves all but the request and its registers. -/
theorem dropUpd_frame (s : State) (a : Nat) : s.dropUpd a = { s with upd := (s.dropUpd a).upd, flds := (s.dropUpd a).flds } := by
  unfold State.dropUpd
  split
  · rfl
  · split <;> rfl

theorem samePorts_dropUpd (s : State) (a : Nat) : SamePorts s (s.dropUpd a) := by
  unfold State.dropUpd
  split
  · exact .refl s
  · next u _ =>
    have hdropped : SamePorts s { s with upd := none } := .of_eq rfl rfl
    exact samePorts_ite (((hdropped.trans (samePorts_set _ _ (by decide))).trans (samePorts_set _ _ (by decide))).trans (samePorts_setFlag _ _ (by decide))) (.refl s)

theorem takeKept_frame (s : State) (n sl : Nat) : s.takeKept n sl = { s with mem := (s.takeKept n sl).mem, tst := (s.takeKept n sl).tst, loops := (s.takeKept n sl).loops, engs := (s.takeKept n sl).engs } := by
  unfold State.takeKept
  dsimp only
  split <;> rfl

/-- An axis with its parameter record copied (R42). -/
def paramsTaken (s : State) (a : Nat) : Ax := { s.ax a with par := s.axPar a, copied := true }

/-- The copies of R42 and R105 change the axis, and memory, loop and engine of its slot. -/
theorem copyParams_frame (s : State) (a : Nat) : s.copyParams a =
    { s with axes := (s.setAx a (paramsTaken s a)).axes, mem := (s.copyParams a).mem, tst := (s.copyParams a).tst, loops := (s.copyParams a).loops, engs := (s.copyParams a).engs } := by
  unfold State.copyParams
  dsimp only
  split
  · rfl
  · split
    · rfl
    · split
      · rfl
      · rw [takeKept_frame]
        rfl

theorem samePorts_copyParams (s : State) (a : Nat) : SamePorts s (s.copyParams a) := by
  rw [copyParams_frame]
  exact .of_eq rfl rfl

theorem samePorts_dropCopy (s : State) (a : Nat) : SamePorts s ((s.dropUpd a).copyParams a) := (samePorts_dropUpd s a).trans (samePorts_copyParams _ a)

/-! The commands, each by its branches. -/

/-- The state in which ENABLE has adopted the parameters of an axis: the channel its configuration, a network axis a fresh loop state (R42, R46, R87, R169). -/
def adopted (s : State) (a : Nat) : State :=
  let u := (s.dropUpd a).copyParams a
  if 192 ≤ a then u.chanEnable (a - 192)
  else ({ u with loops := Store.put Loop.init u.loops a { Loop.init with enabled := true, since := s.crs.cnt + 1, tPrev := (u.loop a).tPrev } } : State).poke (cells (axBlock a + 0xF00) 0 256)

theorem samePorts_adopted (s : State) (a : Nat) : SamePorts s (adopted s a) :=
  samePorts_ite ((samePorts_dropCopy s a).trans (samePorts_setChan _ (a - 192) _)) (((samePorts_dropCopy s a).trans (.of_eq rfl rfl)).trans (samePorts_poke _ _))

theorem portsKept_pfEnable (s : State) (a : Nat) : PortsKept s (s.pfEnable a) := by
  have hset := fun x => (samePorts_adopted s a).trans (samePorts_setAx _ a x)
  exact portsKept_ite .refl (portsKept_ite .refl (samePorts_ite ((hset _).trans (samePorts_restart _ _)) (hset _)))

theorem portsKept_pfDisable (s : State) (a : Nat) : PortsKept s (s.pfDisable a) := by
  have hset := fun x => (samePorts_dropUpd s a).trans (samePorts_setAx _ a x)
  exact portsKept_ite .refl (samePorts_ite ((hset _).trans (samePorts_restart _ _)) ((hset _).trans (samePorts_setLoop _ a _)))

/-- The drives that a CLEAR_FAULT resets are noted for the course. -/
theorem samePorts_resets (s : State) (a : Nat) (p : Bool) : SamePorts s (if p then { s with crs := { s.crs with resets := s.crs.resets ++ [a] } } else s) := by
  split <;> exact .of_eq rfl rfl

theorem portsKept_pfClear (s : State) (a : Nat) : PortsKept s (s.pfClear a) := by
  have hset := fun x p => (samePorts_resets s a p).trans (samePorts_setAx _ a x)
  have hchan := fun x p off => (hset x p).trans (samePorts_chanClear _ (a - 192) off)
  exact portsKept_ite .refl (portsKept_ite (hset _ _) (portsKept_ite (samePorts_ite (hchan _ _ _) (hset _ _))
    (portsKept_ite (hchan _ _ _) ((hset _ _).trans (samePorts_setLoop _ a _)))))

theorem portsKept_pfQueueAx (s : State) (a : Nat) (w : List Nat) : PortsKept s (s.pfQueueAx a w) :=
  portsKept_ite .refl (portsKept_ite .refl (samePorts_setAx s a _))

theorem portsKept_pfReplaceAx (s : State) (a : Nat) (w : List Nat) : PortsKept s (s.pfReplaceAx a w) :=
  portsKept_ite .refl (portsKept_ite .refl (samePorts_setAx s a _))

theorem samePorts_grpEnter (s : State) (g : Grp) : SamePorts s (s.grpEnter g) := samePorts_foldl (fun u a => samePorts_setAx u a _) _ _

theorem portsKept_pfQueueGrp (s : State) (k : Nat) (w : List Nat) (repl : Bool) : PortsKept s (s.pfQueueGrp k w repl) :=
  portsKept_ite .refl (portsKept_ite .refl (portsKept_ite ((samePorts_grpEnter s _).trans (samePorts_setGrp _ k _))
    (portsKept_ite (samePorts_setGrp s k _) (samePorts_setGrp s k _))))

theorem portsKept_grpStopAll (s : State) (k : Nat) : PortsKept s (s.grpStopAll k) :=
  (samePorts_setGrp s k _).trans (samePorts_foldl (fun u a => samePorts_setAx u a _) _ _)

theorem portsKept_pfStopAx (s : State) (a : Nat) : PortsKept s (s.pfStopAx a) := by
  unfold State.pfStopAx
  dsimp only
  refine portsKept_ite (portsKept_ite (samePorts_setAx s a _) (samePorts_setAx s a _)) ?_
  split
  case h_1 | h_2 | h_3 => exact samePorts_setAx s a _
  case h_4 =>
    split
    · exact portsKept_grpStopAll s _
    · exact .refl
  case h_5 | h_6 | h_7 => exact .refl

theorem portsKept_pfStopGrp (s : State) (k : Nat) : PortsKept s (s.pfStopGrp k) :=
  portsKept_ite .refl (portsKept_ite (portsKept_grpStopAll s k) .refl)

theorem samePorts_grpFault (s : State) (k : Nat) : SamePorts s (s.grpFault k) := by
  refine (samePorts_setGrp s k _).trans (samePorts_foldl (fun u a => ?_) _ _)
  have hreact := samePorts_setAx u a (u.ax a).react
  exact samePorts_ite (samePorts_ite (hreact.trans (samePorts_chanFreeze _ _)) hreact) (.refl u)

theorem samePorts_afterFault (s : State) (a : Nat) (old : Ax) : SamePorts s (s.afterFault a old) := by
  unfold State.afterFault
  dsimp only
  have hfrozen : ∀ p : Bool, SamePorts s (if p then s.chanFreeze (a - 192) else s) := fun p => samePorts_ite (samePorts_chanFreeze s _) (.refl s)
  refine samePorts_ite ?_ (hfrozen _)
  split
  · exact (hfrozen _).trans (samePorts_grpFault _ _)
  · exact hfrozen _

theorem portsKept_estopAx (s : State) (a : Nat) : PortsKept s (s.estopAx a) := by
  unfold State.estopAx
  exact portsKept_ite .refl ((samePorts_setAx s a _).trans (samePorts_afterFault _ _ _))

theorem portsKept_pfEstopGrp (s : State) (k : Nat) : PortsKept s (s.pfEstopGrp k) :=
  portsKept_ite .refl (samePorts_foldl (fun u a => portsKept_estopAx u a) _ _)

theorem portsKept_pfHome (s : State) (a : Nat) : PortsKept s (s.pfHome a) := by
  have hset := samePorts_setAx s a
  exact portsKept_ite .refl (portsKept_ite .refl (portsKept_ite ((hset _).trans (samePorts_afterFault _ a _))
    (portsKept_ite (hset _) (samePorts_ite ((hset _).trans (samePorts_setChan _ (a - 192) _)) (hset _)))))

theorem portsKept_pfReload (s : State) (a : Nat) : PortsKept s (s.pfReload a) :=
  portsKept_ite .refl (portsKept_ite .refl (samePorts_ite ((samePorts_dropCopy s a).trans (samePorts_chanReload _ _)) (samePorts_dropCopy s a)))

theorem portsKept_pfSetGroup (s : State) (k : Nat) : PortsKept s (s.pfSetGroup k) := by
  have hmembers : ∀ (g : Option Nat) (l : List Nat) (u : State), SamePorts u (l.foldl (fun u a => u.setAx a { u.ax a with grp := g }) u) := fun _ =>
    samePorts_foldl (fun u a => samePorts_setAx u a _)
  exact portsKept_ite .refl (portsKept_ite .refl (portsKept_ite .refl (((hmembers none _ s).trans (hmembers (some k) _ _)).trans (samePorts_setGrp _ k _))))

/-- Every command keeps the course and the ports' registers until it is answered. -/
theorem portsKept_pfApply (s : State) (c : PfCmd) : PortsKept s (s.pfApply c) := by
  refine portsKept_ite .refl (portsKept_ite .refl ?_)
  split
  · exact portsKept_pfEnable ..
  · exact portsKept_pfDisable ..
  · exact portsKept_pfQueueAx ..
  · exact portsKept_pfQueueGrp ..
  · exact portsKept_pfReplaceAx ..
  · exact portsKept_pfQueueGrp ..
  · exact portsKept_pfStopAx ..
  · exact portsKept_pfStopGrp ..
  · exact portsKept_estopAx ..
  · exact portsKept_pfEstopGrp ..
  · exact portsKept_pfClear ..
  · exact portsKept_pfHome ..
  · exact portsKept_pfReload ..
  · exact portsKept_pfSetGroup ..

end Sys2Proof.Proofs
end

section
/-! SUPPORT. How a profile command ends, after it has been applied (O27, O28; R41, R49, R52, R82, R251): entries that are due become active, events are noted and published, and the port is answered. -/
namespace Sys2Proof.Proofs
open Machine Laws

/-! Axes on which no entry is due. -/

/-- No entry of the axis is due: it is idle with an empty queue, or runs one, or takes none (R52). -/
def Settled (x : Ax) : Prop :=
  ((x.st = .standstill ∨ x.st = .moving ∨ x.st = .sync) → 0 < x.count → x.active = true) ∧ (x.st = .moving → x.count ≠ 0)

theorem settle_of_settled {x : Ax} (h : Settled x) (v : Env) (camOk : Nat → Bool) (n : Nat) : Ax.settle v camOk n x = x := by
  obtain ⟨hdue, hrun⟩ := h
  cases n with
  | zero => rfl
  | succ n =>
    rw [Ax.settle, if_neg, if_neg]
    · exact fun hx => hrun hx.1 hx.2
    · intro hx
      obtain ⟨hst, hcount, hidle⟩ := hx
      simp [hdue hst hcount] at hidle

theorem settled_of_empty {x : Ax} (hst : x.st ≠ .moving) (hcount : x.count = 0) : Settled x :=
  ⟨fun _ h => absurd h (by omega), fun h => absurd h hst⟩

/-- An axis in any state but STANDSTILL, MOVING and SYNC takes no entry (R447). -/
theorem settled_of_state {x : Ax} (h : x.takesEntries = false) : Settled x := by
  have hst : ¬ (x.st = .standstill ∨ x.st = .moving ∨ x.st = .sync) := by
    rintro (e | e | e) <;> simp [Ax.takesEntries, e] at h
  exact ⟨fun e => absurd e hst, fun e => absurd (.inr (.inl e)) hst⟩

/-! What publishing leaves. -/

/-- An axis but for the events it has noted. -/
def unnoted (x : Ax) : Ax := { x with evts := [], doneEvt := false, faultEvt := false, ended := false }

theorem settled_unnoted {x y : Ax} (h : unnoted y = unnoted x) (hx : Settled x) : Settled y :=
  show Settled (unnoted y) from h ▸ hx

/-- What the end of a command keeps: the ports, the loops, the members of every group, and every axis without a due entry but for its events. -/
structure Published (s t : State) : Prop where
  ports : SamePorts s t
  loops : t.loops = s.loops
  members : ∀ k, (t.grp k).members = (s.grp k).members
  axis : ∀ a, Settled (s.ax a) → unnoted (t.ax a) = unnoted (s.ax a)

theorem Published.trans {s t u : State} (h : Published s t) (h' : Published t u) : Published s u where
  ports := h.ports.trans h'.ports
  loops := h'.loops.trans h.loops
  members k := (h'.members k).trans (h.members k)
  axis a ha := (h'.axis a (settled_unnoted (h.axis a ha) ha)).trans (h.axis a ha)

/-- A change that reaches neither axes, groups nor loops. -/
theorem Published.of_eq {s t : State} (hports : SamePorts s t) (hloops : t.loops = s.loops) (hgrps : t.grps = s.grps) (haxes : t.axes = s.axes) : Published s t :=
  ⟨hports, hloops, fun k => congrArg (fun g => (Store.get Grp.init g k).members) hgrps, fun a _ => congrArg (fun x => unnoted (Store.get Ax.init x a)) haxes⟩

theorem Published.refl (s : State) : Published s s := .of_eq (.refl s) rfl rfl rfl

/-- An axis written anew, which keeps all but its events where no entry was due. -/
theorem Published.setAx {s u : State} (h : Published s u) {a : Nat} {x : Ax} (hx : Settled (s.ax a) → unnoted x = unnoted (s.ax a)) : Published s (u.setAx a x) where
  ports := h.ports.trans (samePorts_setAx u a x)
  loops := h.loops
  members := h.members
  axis b hb := by
    by_cases hab : b = a
    · subst hab
      rw [ax_setAx, hx hb]
    · rw [ax_setAx_other u x hab, h.axis b hb]

theorem grp_setGrp (s : State) (k : Nat) (g : Grp) : (s.setGrp k g).grp k = g := get_put_same _ _ _ _

theorem grp_setGrp_other (s : State) {k j : Nat} (g : Grp) (h : j ≠ k) : (s.setGrp k g).grp j = s.grp j := get_put_other _ _ _ _ h

/-- A group written anew with its members. -/
theorem Published.setGrp {s u : State} (h : Published s u) {k : Nat} {g : Grp} (hg : g.members = (s.grp k).members) : Published s (u.setGrp k g) where
  ports := h.ports.trans (samePorts_setGrp u k g)
  loops := h.loops
  members j := by
    by_cases hj : j = k
    · subst hj
      rw [grp_setGrp, hg]
    · rw [grp_setGrp_other u g hj, h.members j]
  axis := h.axis

theorem published_foldl_from {α : Type} {step : State → α → State} {s : State} {l : List α} (h : ∀ u i, Published s u → Published s (step u i)) :
    Published s (l.foldl step s) :=
  List.foldlRecOn l step (.refl s) fun u hu i _ => h u i hu

theorem published_foldl {α : Type} {step : State → α → State} (h : ∀ u i, Published u (step u i)) (l : List α) (s : State) : Published s (l.foldl step s) :=
  published_foldl_from fun u i hu => hu.trans (h u i)

/-! Entries that are due. -/

theorem grpActivate_members (s : State) (v : Env) (g : Grp) : (s.grpActivate v g).members = g.members := by
  unfold State.grpActivate
  dsimp only
  split <;> rfl

theorem grpSettle_members (s : State) (v : Env) (n : Nat) (g : Grp) : (s.grpSettle v n g).members = g.members := by
  induction n generalizing g with
  | zero => rfl
  | succ n ih =>
    unfold State.grpSettle
    dsimp only
    split
    · rfl
    · split
      · rfl
      · split
        · exact (ih _).trans (grpActivate_members s v g)
        · exact grpActivate_members s v g

theorem published_settleAll (s : State) : Published s s.settleAll := by
  refine (published_foldl (fun u a => ?_) s.axNums s).trans (published_foldl (fun u k => ?_) _ _)
  · exact (Published.refl u).setAx fun h => congrArg unnoted (settle_of_settled h _ _ _)
  · exact (Published.refl u).setGrp (grpSettle_members u _ _ (u.grp k))

/-! Events. -/

theorem published_noteEvents (s old : State) : Published s (s.noteEvents old) := by
  refine published_foldl (fun u a => (Published.refl u).setAx fun _ => ?_) _ s
  rfl

theorem published_ite {s t u : State} {p : Prop} [Decidable p] (ht : Published s t) (hu : Published s u) : Published s (if p then t else u) := by
  split
  · exact ht
  · exact hu

theorem Published.orFld {s u : State} (h : Published s u) {f : Fld} (m : Nat) (hf : (R.PF_DONE_DONE 0).addr ≤ f.addr) : Published s (u.orFld f m) :=
  h.trans (.of_eq (samePorts_orFld u m hf) rfl rfl rfl)

theorem Published.poke {s u : State} (h : Published s u) (w : List (Nat × BitVec 8)) : Published s (u.poke w) := h.trans (.of_eq (samePorts_poke u w) rfl rfl rfl)

/-- The events reach PF_DONE, PF_FAULT and PF_GRP_DONE, and every axis and group is written anew without them. -/
theorem published_publishAll (s : State) : Published s s.publishAll := by
  have haxis : ∀ {u : State} (a : Nat), Published s u → ∀ {x : Ax} {d f : Bool}, unnoted x = unnoted (s.ax a) →
      Published s (((if f then (if d then u.orFld (R.PF_DONE_DONE (a / 32)) (2 ^ (a % 32)) else u).orFld (R.PF_FAULT_FAULT (a / 32)) (2 ^ (a % 32))
        else (if d then u.orFld (R.PF_DONE_DONE (a / 32)) (2 ^ (a % 32)) else u)).setAx a x).poke ((s.ax a).publish a)) := fun a hu _ d f hx => by
    have hdone := published_ite (p := d = true) (hu.orFld (f := R.PF_DONE_DONE (a / 32)) (2 ^ (a % 32)) (Nat.le_add_right _ _)) hu
    exact ((published_ite (hdone.orFld _ (Nat.le_add_right_of_le (by decide))) hdone).setAx fun _ => hx).poke _
  refine Published.trans (published_foldl_from (l := s.axNums) fun u a hu => haxis (d := (s.ax a).doneEvt) (f := (s.ax a).faultEvt) a hu ?_) (published_foldl_from fun u k hu => ?_)
  · rfl
  refine Published.poke (Published.setGrp (published_ite (hu.orFld _ ?_) hu) ?_) _
  · decide
  · rfl

theorem published_setCset (s : State) (m : Nat) (c : CapSet) : Published s (s.setCset m c) :=
  .of_eq ((SamePorts.of_eq rfl rfl).trans (samePorts_set _ _ (Nat.le_add_right_of_le (by decide)))) rfl rfl rfl

theorem published_count (s : State) {f : Fld} (h : (R.PF_DONE_DONE 0).addr ≤ f.addr) : Published s (s.count f) := by
  refine .of_eq (samePorts_count s h) ?_ ?_ ?_ <;> rw [count_flds]

/-- An event that reaches the capture sets (R251, R256). -/
theorem published_capEvent (s : State) (e : CEvt) : Published s (s.capEvent e) :=
  published_foldl (fun u m => published_ite (.refl u) (published_ite (.refl u) (published_ite
    (published_ite (.refl u) ((published_count u (Nat.le_add_right_of_le (by decide))).trans (published_setCset _ m _)))
    (published_ite (.refl u) (published_setCset u m _))))) _ s

theorem published_axisEvents (s : State) (at_ : Nat) : Published s (s.axisEvents at_) := by
  refine published_foldl (fun u a => published_ite (.refl u) (Published.trans ((Published.refl u).setAx fun _ => ?_) (published_foldl (fun v e => published_capEvent v _) _ _))) _ s
  rfl

/-! The answer. -/

/-- Registers of the ports lie below PF_DONE. -/
theorem port_lt (n : Fin 4) : (R.PF_CMD_STAT_RESULT n).key < (R.PF_DONE_DONE 0).key ∧ (R.PF_CMD_STAT_COURSE n).key < (R.PF_DONE_DONE 0).key ∧
    (R.PF_CMD_OP_GO n).key < (R.PF_DONE_DONE 0).key := by
  simp only [Fld.key, R.PF_CMD_STAT_RESULT, R.PF_CMD_STAT_COURSE, R.PF_CMD_OP_GO, R.PF_DONE_DONE]
  omega

/-- The three fields that an answer writes, on all ports, are at places of their own. -/
theorem port_keys (n m : Fin 4) : (R.PF_CMD_STAT_RESULT m).key ≠ (R.PF_CMD_STAT_COURSE n).key ∧ (R.PF_CMD_STAT_RESULT m).key ≠ (R.PF_CMD_OP_GO n).key ∧
    (R.PF_CMD_STAT_COURSE m).key ≠ (R.PF_CMD_OP_GO n).key := by
  simp only [Fld.key, R.PF_CMD_STAT_RESULT, R.PF_CMD_STAT_COURSE, R.PF_CMD_OP_GO]
  omega

theorem pfAnswer_get (s : State) (n r : Nat) (f : Fld) : (s.pfAnswer n r).get f =
    (((s.set (R.PF_CMD_STAT_RESULT n) r).set (R.PF_CMD_STAT_COURSE n) s.crs.cnt).setFlag (R.PF_CMD_OP_GO n) false).get f := rfl

theorem pfAnswer_answered (s : State) (n : Fin 4) (r : Nat) : Answered s (s.pfAnswer n r) n (r % 2 ^ 8) := by
  obtain ⟨hrc, hrg, hcg⟩ := port_keys n n
  refine ⟨?_, ?_, ?_⟩
  · rw [pfAnswer_get, get_setFlag_other _ _ hrg, get_set_other _ _ hrc, get_set_same]
    rfl
  · rw [pfAnswer_get, get_setFlag_other _ _ hcg, get_set_same]
    rfl
  · rw [State.flag, pfAnswer_get, get_setFlag_same]
    rfl

/-- The answer of port `m` reads the same. -/
def SameAnswer (s t : State) (m : Fin 4) : Prop := t.get (R.PF_CMD_STAT_RESULT m) = s.get (R.PF_CMD_STAT_RESULT m) ∧ t.flag (R.PF_CMD_OP_GO m) = s.flag (R.PF_CMD_OP_GO m)

theorem pfAnswer_other (s : State) {n m : Fin 4} (r : Nat) (h : m ≠ n) : SameAnswer s (s.pfAnswer n r) m := by
  obtain ⟨hrc, hrg, -⟩ := port_keys n m
  obtain ⟨-, hrg', hcg'⟩ := port_keys m n
  have hne : m.val ≠ n.val := fun e => h (Fin.ext e)
  have hrr : (R.PF_CMD_STAT_RESULT m).key ≠ (R.PF_CMD_STAT_RESULT n).key := by
    simp only [Fld.key, R.PF_CMD_STAT_RESULT]
    omega
  have hgg : (R.PF_CMD_OP_GO m).key ≠ (R.PF_CMD_OP_GO n).key := by
    simp only [Fld.key, R.PF_CMD_OP_GO]
    omega
  refine ⟨?_, congrArg (· % 2 == 1) ?_⟩
  · rw [pfAnswer_get, get_setFlag_other _ _ hrg, get_set_other _ _ hrc, get_set_other _ _ hrr]
  · rw [pfAnswer_get, get_setFlag_other _ _ hgg, get_set_other _ _ hcg'.symm, get_set_other _ _ hrg'.symm]

theorem SamePorts.sameAnswer {s t : State} (h : SamePorts s t) (m : Fin 4) : SameAnswer s t m :=
  ⟨h.2 _ (port_lt m).1, congrArg (· % 2 == 1) (h.2 _ (port_lt m).2.2)⟩

theorem SameAnswer.trans {s t u : State} {m : Fin 4} (h : SameAnswer s t m) (h' : SameAnswer t u m) : SameAnswer s u m := ⟨h'.1.trans h.1, h'.2.trans h.2⟩

/-- An answer stands as long as the ports do. -/
theorem answered_later {s t u : State} {n : Fin 4} {r : Nat} (h : Answered s t n r) (hu : SamePorts t u) : Answered s u n r := by
  obtain ⟨hresult, hcourse, hgo⟩ := h
  obtain ⟨hr, hc, hg⟩ := port_lt n
  exact ⟨(hu.2 _ hr).trans hresult, (hu.2 _ hc).trans hcourse, (congrArg (· % 2 == 1) (hu.2 _ hg)).trans hgo⟩

/-! The whole command. -/

/-- What a profile command on port `n` leaves, `r` being what it answers and the state as it is applied. -/
structure RunEnds (s : State) (n : Fin 4) (r : Nat × State) (t : State) : Prop where
  answered : Answered s t n (r.1 % 2 ^ 8)
  others : ∀ m : Fin 4, m ≠ n → SameAnswer s t m
  loop : ∀ a, t.loop a = r.2.loop a
  members : ∀ k, (t.grp k).members = (r.2.grp k).members
  axis : ∀ a, Settled (r.2.ax a) → unnoted (t.ax a) = unnoted (r.2.ax a)

/-- The parts of the state that a profile command can change, taken from `t`. -/
def footprint (s t : State) : State :=
  { s with axes := t.axes, grps := t.grps, chans := t.chans, loops := t.loops, upd := t.upd, engs := t.engs, crs := t.crs, mem := t.mem, tst := t.tst, flds := t.flds, cap := t.cap, pfAns := t.pfAns, bus := .none, outs := [] }

theorem runEnds_of_published {s u : State} {r : Nat × State} (n : Fin 4) (at_ : Nat) (hkept : PortsKept s r) (hpub : Published r.2 u) :
    RunEnds s n r ((u.pfAnswer n r.1).axisEvents at_) := by
  have hev := published_axisEvents (u.pfAnswer n r.1) at_
  have hports : SamePorts s u := SamePorts.trans hkept hpub.ports
  have hanswered : Answered s (u.pfAnswer n r.1) n (r.1 % 2 ^ 8) := by
    have h := pfAnswer_answered u n r.1
    rwa [Answered, hports.1] at h
  exact
    { answered := answered_later hanswered hev.ports
      others := fun m hm => ((hports.sameAnswer m).trans (pfAnswer_other u r.1 hm)).trans (hev.ports.sameAnswer m)
      loop := fun a => congrArg (Store.get Loop.init · a) (hev.loops.trans hpub.loops)
      members := fun k => (hev.members k).trans (hpub.members k)
      axis := fun a ha => (hev.axis a (settled_unnoted (hpub.axis a ha) ha)).trans (hpub.axis a ha) }

theorem pfRun_runEnds (s : State) (n : Fin 4) (c : PfCmd) (at_ : Nat) : RunEnds s n (s.pfApply c) ((s.pfRun n c).axisEvents at_) :=
  runEnds_of_published n at_ (portsKept_pfApply s c) (((published_settleAll _).trans (published_noteEvents _ s)).trans (published_publishAll _))

/-- What holds of the footprint of every state in which a profile command may end, holds after it. -/
theorem ends_of_pfDo {i : Instr} {s : State} {n : Fin 4} {op : Nat} {target : BitVec 8} {g : Bool} {p : State → Prop} (hi : exec i s = pfDo n op target g s)
    (hr : s.reach (0x80080010 + 0x10 * n.val) = true)
    (hp : ∀ t, RunEnds s n (s.pfApply ⟨op, target.toNat, g, s.stage g target.toNat⟩) t → p (footprint s t)) : Ends i s p :=
  ⟨_, hi.trans (atReg_reached _ hr), hp _ (pfRun_runEnds s n _ s.tsNow)⟩

/-! Opcodes and targets. -/

theorem pfApply_badOpcode (s : State) {c : PfCmd} (h : c.op = 0 ∨ 10 < c.op) : (s.pfApply c).1 = rOpcode := by
  rw [State.pfApply, if_pos h]

/-- Whether the target of a command exists and is of its opcode's kind (R447, R448). -/
def targetOk (s : State) (c : PfCmd) : Bool :=
  if c.isGroup then (c.op == 3 || c.op == 4 || c.op == 5 || c.op == 6 || c.op == 0x0A) && decide (c.target < 32) else c.op != 0x0A && s.axisExists c.target

theorem pfApply_noTarget (s : State) {c : PfCmd} (hop : 1 ≤ c.op ∧ c.op ≤ 10) (h : targetOk s c = false) : (s.pfApply c).1 = rNoAxis := by
  obtain ⟨hlo, hhi⟩ := hop
  rw [State.pfApply, if_neg (by omega)]
  exact congrArg Prod.fst (if_pos (by rw [← targetOk, h]; rfl))

/-- Settles O27: the answer is what the checks of the command give, whatever it is; only the port's own answer changes. -/
theorem profileCommandsAnswerTheirPort : Obligations.ProfileCommandsAnswerTheirPort := by
  intro s n target op g hr code answers
  have hanswers : ∀ {i k}, exec i s = pfDo n k target g s → answers i k := fun hi =>
    ends_of_pfDo hi hr fun t ht => ⟨ht.answered, ht.others, rfl⟩
  refine ⟨hanswers rfl, hanswers rfl, hanswers rfl, hanswers rfl, hanswers rfl, hanswers rfl, hanswers rfl, hanswers rfl, hanswers rfl, hanswers rfl, hanswers rfl,
    fun hop => pfApply_badOpcode s hop, fun hg hnone k hlo hhi => ?_, fun hg => ?_, fun hg => ?_⟩
  · exact pfApply_noTarget s ⟨hlo, Nat.le_succ_of_le hhi⟩ (by simp [targetOk, hg, hnone])
  · have hcode : ∀ k, k ∈ [1, 2, 7, 8, 9] → code k = 2 := fun k hk => by
      have hrange : 1 ≤ k ∧ k ≤ 10 := by revert k; decide
      refine pfApply_noTarget s hrange ?_
      have hkind : (k == 3 || k == 4 || k == 5 || k == 6 || k == 0x0A) = false := by revert k; decide
      simp [targetOk, hg, hkind]
    exact ⟨hcode 1 (by simp), hcode 2 (by simp), hcode 7 (by simp), hcode 8 (by simp), hcode 9 (by simp)⟩
  · exact pfApply_noTarget s ⟨show 1 ≤ 10 by decide, Nat.le_refl 10⟩ (by simp [targetOk, hg])

end Sys2Proof.Proofs
end

section
/-! SUPPORT. The commands that change an axis's state, where they are accepted (O28; R42, R46 to R48, R68, R77, R80). -/
namespace Sys2Proof.Proofs
open Machine Laws

/-! Targets. -/

theorem toNat_ofNat_axis (a : Fin 240) : (BitVec.ofNat 8 a.val).toNat = a.val := by
  rw [BitVec.toNat_ofNat]
  omega

theorem toNat_ofNat_group (k : Fin 32) : (BitVec.ofNat 8 k.val).toNat = k.val := by
  rw [BitVec.toNat_ofNat]
  omega

section
variable {s : State} {a : Nat} (h : s.axisExists a = true) (w : List Nat)
include h

theorem pfApply_enable : s.pfApply ⟨1, a, false, w⟩ = s.pfEnable a := by simp [State.pfApply, h]
theorem pfApply_disable : s.pfApply ⟨2, a, false, w⟩ = s.pfDisable a := by simp [State.pfApply, h]
theorem pfApply_clearFault : s.pfApply ⟨7, a, false, w⟩ = s.pfClear a := by simp [State.pfApply, h]
theorem pfApply_home : s.pfApply ⟨8, a, false, w⟩ = s.pfHome a := by simp [State.pfApply, h]
theorem pfApply_reload : s.pfApply ⟨9, a, false, w⟩ = s.pfReload a := by simp [State.pfApply, h]

end

theorem pfApply_setGroup (s : State) (k : Fin 32) (w : List Nat) : s.pfApply ⟨10, k.val, true, w⟩ = s.pfSetGroup k := by simp [State.pfApply]

/-- A command on an axis is answered with its result. -/
theorem ends_axis_answered {i : Instr} {s : State} {n : Fin 4} {a : Fin 240} {op r : Nat} (hi : exec i s = pfDo n op (BitVec.ofNat 8 a.val) false s)
    (hr : s.reach (0x80080010 + 0x10 * n.val) = true) (happly : (s.pfApply ⟨op, a.val, false, s.stage false a.val⟩).1 = r) (hlt : r < 2 ^ 8) : Ends i s (fun t => Answered s t n r) := by
  refine ends_of_pfDo hi hr fun t ht => ?_
  have hanswered := ht.answered
  rw [toNat_ofNat_axis, happly, Nat.mod_eq_of_lt hlt] at hanswered
  exact hanswered

/-- A command that an axis accepts and that leaves no entry due: the axis is, but for its events, as the command left it. -/
theorem ends_axis_accepted {i : Instr} {s u : State} {n : Fin 4} {a : Fin 240} {op : Nat} {p : State → Prop} (hi : exec i s = pfDo n op (BitVec.ofNat 8 a.val) false s)
    (hr : s.reach (0x80080010 + 0x10 * n.val) = true) (happly : s.pfApply ⟨op, a.val, false, s.stage false a.val⟩ = (rOk, u)) (hset : Settled (u.ax a))
    (hp : ∀ t, Answered s t n 0 → unnoted (t.ax a) = unnoted (u.ax a) → (∀ b, t.loop b = u.loop b) → p (footprint s t)) : Ends i s p := by
  refine ends_of_pfDo hi hr fun t ht => ?_
  rw [toNat_ofNat_axis, happly] at ht
  exact hp t ht.answered (ht.axis a hset) ht.loop

/-! Parameters taken. -/

theorem axPar_of_mem {s t : State} (h : t.mem = s.mem) (a : Nat) : t.axPar a = s.axPar a := by
  unfold State.axPar
  simp only [load_of_mem h]

/-- The record of an axis, from the list of axes. -/
theorem ax_of_axes {s t : State} (h : t.axes = s.axes) (a : Nat) : t.ax a = s.ax a := congrArg (Store.get Ax.init · a) h

theorem dropUpd_ax (s : State) (a b : Nat) : (s.dropUpd a).ax b = s.ax b := ax_of_axes (congrArg State.axes (dropUpd_frame s a)) b

theorem restart_ax (s : State) (n a : Nat) : (s.restart n).ax a = s.ax a := ax_of_axes (congrArg State.axes (restart_chans s n)) a

theorem reindex_ax (s : State) (n : Nat) (c : Chan) (a : Nat) : (s.reindex n c).ax a = s.ax a := ax_of_axes (congrArg State.axes (reindex_chans s n c)) a

theorem chanEnable_ax (s : State) (n a : Nat) : (s.chanEnable n).ax a = s.ax a := rfl

theorem chanHome_ax (s : State) (n a : Nat) : (s.chanHome n).ax a = s.ax a := rfl

theorem setLoop_ax (s : State) (b : Nat) (l : Loop) (a : Nat) : (s.setLoop b l).ax a = s.ax a := rfl

theorem chanReload_ax (s : State) (n a : Nat) : (s.chanReload n).ax a = s.ax a := reindex_ax _ n _ a

theorem chanClear_ax (s : State) (n a : Nat) (off : Bool) : (s.chanClear n off).ax a = s.ax a := restart_ax _ n a

theorem copyParams_ax (s : State) (a : Nat) : (s.copyParams a).ax a = paramsTaken s a :=
  (ax_of_axes (congrArg State.axes (copyParams_frame s a)) a).trans (ax_setAx s a _)

theorem dropCopy_ax (s : State) (a : Nat) : ((s.dropUpd a).copyParams a).ax a = paramsTaken s a := by
  have hmem : (s.dropUpd a).mem = s.mem := by rw [dropUpd_frame]
  rw [copyParams_ax, paramsTaken, paramsTaken, dropUpd_ax, axPar_of_mem hmem]

theorem adopted_ax (s : State) (a : Nat) : (adopted s a).ax a = paramsTaken s a := by
  unfold adopted
  dsimp only
  split
  · rw [chanEnable_ax, dropCopy_ax]
  · exact (ax_of_axes (poke_axes _ _) a).trans (dropCopy_ax s a)

theorem adopted_loop (s : State) {a : Nat} (h : a < 192) : ((adopted s a).loop a).enabled = true := by
  unfold adopted
  dsimp only
  rw [if_neg (by omega)]
  exact congrArg Loop.enabled (get_put_same _ _ _ _)

/-! ENABLE. -/

/-- An axis that ENABLE has brought to STANDSTILL at its actual position. -/
def standing (x : Ax) (act : Int) : Ax := { ({ x with actPos := act } : Ax).fromActual with st := .standstill, copied := true }

theorem standing_frame (x : Ax) (act : Int) : (standing x act).st = .standstill ∧ (standing x act).vel = 0 ∧ (standing x act).fault = x.fault ∧
    (standing x act).count = x.count ∧ (standing x act).par = x.par ∧ (standing x act).cmdPos = act := ⟨rfl, rfl, rfl, rfl, rfl, rfl⟩

theorem paramsTaken_frame (s : State) (a : Nat) : (paramsTaken s a).par = s.axPar a ∧ (paramsTaken s a).st = (s.ax a).st ∧ (paramsTaken s a).fault = (s.ax a).fault ∧
    (paramsTaken s a).count = (s.ax a).count := ⟨rfl, rfl, rfl, rfl⟩

theorem pfEnable_accepted {s : State} {a : Nat} (hst : (s.ax a).st = .disabled) (hfault : (s.ax a).fault = 0) (hsto : (s.ax a).sto = false)
    (hcal : 192 ≤ a → (s.chan (a - 192)).cal = none ∧ s.flag (R.STP_STAT_UNCAL (a - 192)) = false) (hpar : s.paramsOk a = true) (hpub : s.pubClash a (s.axPar a) = false) :
    ∃ u act, s.pfEnable a = (rOk, u) ∧ u.ax a = standing (paramsTaken s a) act ∧ (a < 192 → act = (s.ax a).actPos ∧ (u.loop a).enabled = true) := by
  have huncal : (decide (192 ≤ a) && ((s.chan (a - 192)).cal.isSome || s.flag (R.STP_STAT_UNCAL (a - 192)))) = false := by
    by_cases ha : 192 ≤ a
    · obtain ⟨hnone, hflag⟩ := hcal ha
      simp [hnone, hflag]
    · simp [ha]
  let v := adopted s a
  let act := if 192 ≤ a then (v.chan (a - 192)).position + (v.ax a).ofs else (v.ax a).actPos
  have hv : v.ax a = paramsTaken s a := adopted_ax s a
  have heq : s.pfEnable a = (rOk, if 192 ≤ a then (v.setAx a (standing (v.ax a) act)).restart (a - 192) else v.setAx a (standing (v.ax a) act)) := by
    unfold State.pfEnable
    dsimp only
    rw [if_neg (by simp [hst, hfault, hsto, huncal]), if_neg (by simp [hpar, hpub])]
    rfl
  refine ⟨_, act, heq, ?_, fun ha => ⟨?_, ?_⟩⟩
  · split
    · rw [restart_ax, ax_setAx, hv]
    · rw [ax_setAx, hv]
  · simp only [act, if_neg (show ¬ 192 ≤ a by omega), hv]
    rfl
  · rw [if_neg (by omega)]
    exact adopted_loop s ha

/-! DISABLE. -/

/-- What no leaving entry changes, no flush changes. -/
theorem flush_eq_of_leave {α : Type} (f : Ax → α) (h : ∀ (x : Ax) (st : Nat), f (x.leave st) = f x) (x : Ax) (st n : Nat) : f (x.flush st n) = f x := by
  induction n generalizing x with
  | zero => rfl
  | succ n ih =>
    rw [Ax.flush]
    split
    · rfl
    · rw [ih, h]

theorem pfDisable_accepted {s : State} {a : Nat} (hst : (s.ax a).st = .standstill ∨ (s.ax a).st = .fault) :
    ∃ u, s.pfDisable a = (rOk, u) ∧ u.ax a = ((s.ax a).flush 4 8).toDisabled := by
  have hnot : ¬ ((s.ax a).st ≠ .standstill ∧ (s.ax a).st ≠ .fault) := fun h => hst.elim h.1 h.2
  refine ⟨_, if_neg hnot, ?_⟩
  split
  · rw [restart_ax, ax_setAx]
  · exact ax_setAx _ a _

/-! CLEAR_FAULT. -/

theorem pfClear_accepted {s : State} {a : Nat} (hst : (s.ax a).st = .fault) (hleft : (s.ax a).fault &&& s.condMask (s.ax a) = 0) (hsteady : bit (s.condMask (s.ax a)) 3 = false) :
    ∃ u, s.pfClear a = (rOk, u) ∧ (u.ax a).st = .standstill ∧ (u.ax a).fault = 0 ∧ (u.ax a).count = (s.ax a).count := by
  have hrefuse : (decide ((s.ax a).fault &&& s.condMask (s.ax a) ≠ 0) || bit (s.condMask (s.ax a)) 3) = false := by simp [hleft, hsteady]
  unfold State.pfClear
  dsimp only
  rw [hrefuse, if_neg (by simp [hst]), if_neg (by decide), if_neg (by simp [hst])]
  split
  · refine ⟨_, rfl, ?_⟩
    rw [chanClear_ax, ax_setAx]
    split <;> exact ⟨rfl, rfl, rfl⟩
  · refine ⟨_, rfl, ?_⟩
    rw [setLoop_ax, ax_setAx]
    split <;> exact ⟨rfl, rfl, rfl⟩

theorem pfClear_refused {s : State} {a : Nat} (hst : (s.ax a).st = .fault) (hchat : bit (s.condMask (s.ax a)) 3 = true) : (s.pfClear a).1 = rState := by
  unfold State.pfClear
  dsimp only
  rw [if_neg (by simp [hst]), if_pos (by simp [hchat])]

/-! HOME. -/

/-- A homing run that begins (R77). -/
def homingBegun (x : Ax) : Homing := ⟨.search, x.cmdPos, none, none, 0, x.lpAct, x.lnAct⟩

theorem pfHome_accepted {s : State} {a : Nat} (hst : (s.ax a).st = .standstill) (hok : (s.ax a).homeOk a s.crs.cnt = true) (hmethod : (s.ax a).par.homeMethod ≠ 4)
    (hlim : (if (s.ax a).par.homeDir = 1 then (s.ax a).lpAct else (s.ax a).lnAct) = false) :
    ∃ u, s.pfHome a = (rOk, u) ∧ (u.ax a).st = .homing ∧ (u.ax a).homing = some (homingBegun (s.ax a)) := by
  refine ⟨_, (if_neg (by simp [hst])).trans ((if_neg (by simp [hok])).trans ((if_neg (by simp [hlim])).trans (if_neg hmethod))), ?_⟩
  split
  · rw [chanHome_ax, ax_setAx]
    exact ⟨rfl, rfl⟩
  · rw [ax_setAx]
    exact ⟨rfl, rfl⟩

/-! RELOAD. -/

theorem pfReload_accepted {s : State} {a : Nat} (hst : (s.ax a).st = .standstill ∨ (s.ax a).st = .disabled) (hpar : s.paramsOk a = true) :
    ∃ u, s.pfReload a = (rOk, u) ∧ u.ax a = paramsTaken s a := by
  have hnot : ¬ ((s.ax a).st ≠ .standstill ∧ (s.ax a).st ≠ .disabled) := fun h => hst.elim h.1 h.2
  refine ⟨_, (if_neg hnot).trans (if_neg (by simp [hpar])), ?_⟩
  split
  · rw [chanReload_ax, dropCopy_ax]
  · exact dropCopy_ax s a

/-! SET_GROUP. -/

/-- The members that a group's configuration names (R68). -/
def namedMembers (s : State) (k : Nat) : List (Option Nat) := (List.range 8).map (fun i => if s.load (grpBlock k + i) 1 = 0xFF then none else some (s.load (grpBlock k + i) 1))

/-- A command that answers OK has passed the check before it. -/
theorem check_passed {q r : Nat × State} {p : Prop} [Decidable p] (hq : q.1 ≠ rOk) (h : (if p then q else r).1 = rOk) : (if p then q else r) = r := by
  by_cases hp : p
  · rw [if_pos hp] at h
    exact absurd h hq
  · exact if_neg hp

theorem pfSetGroup_accepted {s : State} {k : Nat} (h : (s.pfSetGroup k).1 = rOk) : ((s.pfSetGroup k).2.grp k).members = namedMembers s k := by
  unfold State.pfSetGroup at h ⊢
  dsimp only at h ⊢
  have hidle := check_passed (show rState ≠ rOk by decide) h
  rw [hidle] at h ⊢
  have hnames := check_passed (show rParam ≠ rOk by decide) h
  rw [hnames] at h ⊢
  rw [check_passed (show rGroup ≠ rOk by decide) h, grp_setGrp]
  rfl

/-- Settles O28: each command by the state in which it is accepted; nothing is due afterwards, so the axis stays as the command left it. -/
theorem axisStateCommands : Obligations.AxisStateCommands := by
  intro s n a k hr hex x tgt
  refine ⟨fun hst hfault hcount hsto hcal hpar hpub => ?_, fun hst => ?_, fun hst hcount hleft hsteady => ?_, fun hst hchat => ?_, fun hst hok hmethod hlim => ?_,
    fun hst hcount hpar => ?_, fun hok => ?_⟩
  · obtain ⟨u, act, hu, hax, hnet⟩ := pfEnable_accepted hst hfault hsto hcal hpar hpub
    obtain ⟨hst', hvel, hfault', hcount', hpar', hpos⟩ := standing_frame (paramsTaken s a) act
    obtain ⟨htaken, -, hfault'', hcount''⟩ := paramsTaken_frame s a
    have hset : Settled (u.ax a) := by
      rw [hax]
      exact settled_of_empty (by simp [hst']) (hcount'.trans (hcount''.trans hcount))
    refine ends_axis_accepted rfl hr ((pfApply_enable hex _).trans hu) hset fun t hanswered hsame hloop => ?_
    rw [hax] at hsame
    refine ⟨hanswered, (congrArg Ax.st hsame).trans hst', (congrArg Ax.vel hsame).trans hvel, (congrArg Ax.fault hsame).trans (hfault'.trans (hfault''.trans hfault)),
      (congrArg Ax.par hsame).trans (hpar'.trans htaken), fun ha => ?_⟩
    obtain ⟨hact, henabled⟩ := hnet ha
    exact ⟨(congrArg Ax.cmdPos hsame).trans (hpos.trans hact), (congrArg Loop.enabled (hloop a)).trans henabled⟩
  · obtain ⟨u, hu, hax⟩ := pfDisable_accepted hst
    have hset : Settled (u.ax a) := by
      rw [hax]
      exact settled_of_state rfl
    refine ends_axis_accepted rfl hr ((pfApply_disable hex _).trans hu) hset fun t hanswered hsame _ => ?_
    rw [hax] at hsame
    exact ⟨hanswered, congrArg Ax.st hsame, congrArg Ax.vel hsame, congrArg Ax.plan hsame, (congrArg Ax.fault hsame).trans (flush_eq_of_leave Ax.fault (fun _ _ => rfl) x 4 8),
      (congrArg Ax.homed hsame).trans (flush_eq_of_leave Ax.homed (fun _ _ => rfl) x 4 8)⟩
  · obtain ⟨u, hu, hst', hfault, hcount'⟩ := pfClear_accepted hst hleft hsteady
    exact ends_axis_accepted rfl hr ((pfApply_clearFault hex _).trans hu) (settled_of_empty (by simp [hst']) (hcount'.trans hcount)) fun t hanswered hsame _ =>
      ⟨hanswered, (congrArg Ax.st hsame).trans hst', (congrArg Ax.fault hsame).trans hfault⟩
  · exact ends_axis_answered rfl hr ((congrArg Prod.fst (pfApply_clearFault hex _)).trans (pfClear_refused hst hchat)) (by decide)
  · obtain ⟨u, hu, hst', hhoming⟩ := pfHome_accepted hst hok hmethod hlim
    exact ends_axis_accepted rfl hr ((pfApply_home hex _).trans hu) (settled_of_state (by simp [Ax.takesEntries, hst'])) fun t hanswered hsame _ =>
      ⟨hanswered, (congrArg Ax.st hsame).trans hst', _, (congrArg Ax.homing hsame).trans hhoming, rfl, rfl⟩
  · obtain ⟨u, hu, hax⟩ := pfReload_accepted hst hpar
    have hset : Settled (u.ax a) := by
      rw [hax]
      exact settled_of_empty (x := paramsTaken s a) (fun hmoving => by simp [show x.st = .moving from hmoving] at hst) hcount
    refine ends_axis_accepted rfl hr ((pfApply_reload hex _).trans hu) hset fun t hanswered hsame _ => ?_
    rw [hax] at hsame
    obtain ⟨htaken, hst', -⟩ := paramsTaken_frame s a
    exact ⟨hanswered, (congrArg Ax.st hsame).trans hst', (congrArg Ax.par hsame).trans htaken⟩
  · refine ends_of_pfDo rfl hr fun t ht => ?_
    rw [toNat_ofNat_group, pfApply_setGroup] at ht
    have hanswered := ht.answered
    rw [hok] at hanswered
    exact ⟨hanswered, (ht.members k).trans (pfSetGroup_accepted hok)⟩

end Sys2Proof.Proofs
end

section
/-! SUPPORT. Two statements that a concrete state refutes: what ESTOP leaves of HOMED where the channel's stop completes a stalled full step (O29), and the events of a number that is no axis (O30). -/
namespace Sys2Proof.Proofs
open Machine Laws

/-- PD5 and PD6 powered, the profile engines' clock running. Axis 192, of pulse class, is homed and MOVING at velocity 0; its channel's generator is due a full step further, in a full step that has had one on-time, and one full step with STALL_VMIN 0 stalls it (R164). ENABLE and RELOAD accept no such STALL_VMIN; the statement asks nothing of the channel's configuration. -/
def stalledStop : State :=
  (((State.reset.set R.PWR_DOM_ON 0x61).set R.CLK_GATE_EN 0x20).setAx 192 { Ax.init with st := .moving, homed := true, par := { AxPar.init with cfg := 4 } }).setChan 0
    { Chan.init with cfg := { Chan.init.cfg with stall := 0x10000 }, dst := 2 ^ 24, slopeN := 1 }

/-- ESTOP freezes the generator where it is due (R166): the full step that it crosses is judged a stall, which takes HOMED from an axis without an encoder (R165). -/
theorem estop_stalledStop : (((stalledStop.pfRun 0 ⟨6, 192, false, stalledStop.stage false 192⟩).axisEvents stalledStop.tsNow).ax 192).homed = false := by decide +kernel

/-- PF answers: PD5 is powered and its gate is open. -/
theorem reach_stalledStop : stalledStop.reach 0x80080010 = true := by decide +kernel

/-- The command on port 0 leaves the axis as the run on that port does. -/
theorem exec_estop_stalledStop {t : State} (h : exec (.estop 0 192 false) stalledStop = .next t) : (t.ax 192).homed = false := by
  have hnext := (atReg_reached _ reach_stalledStop).symm.trans h
  cases hnext
  exact estop_stalledStop

/-- Refutes O29: ESTOP on a pulse-class axis without velocity can take HOMED from it, through the stall of its channel. -/
theorem not_axisMotionCommands : ¬ Obligations.AxisMotionCommands := by
  unfold Obligations.AxisMotionCommands
  intro h
  obtain ⟨-, -, -, -, hpulse⟩ := h stalledStop 0 192 reach_stalledStop (by decide +kernel) (by decide +kernel) (by decide +kernel) (by decide +kernel)
  obtain ⟨t, ht, -, -, -, -, hhomed⟩ := hpulse (by decide +kernel) (by decide +kernel)
  have hkept : (t.ax 192).homed = true := hhomed.trans (by decide +kernel)
  exact absurd (hkept.symm.trans (exec_estop_stalledStop ht)) (by decide)

/-! The axes are the numbers below 240 (R37): the events noted for any other number stay where they are. -/

theorem axNums_lt {s : State} {a : Nat} (h : a ∈ s.axNums) : a < 240 := List.mem_range.mp (List.mem_filter.mp h).1

theorem axes_ite {s t u : State} {p : Prop} [Decidable p] (ht : t.axes = s.axes) (hu : u.axes = s.axes) : (if p then t else u).axes = s.axes := by
  split
  · exact ht
  · exact hu

theorem capEvent_axes (s : State) (e : CEvt) : (s.capEvent e).axes = s.axes :=
  List.foldlRecOn (motive := fun u : State => u.axes = s.axes) _ _ rfl fun u hu _ _ =>
    axes_ite hu (axes_ite hu (axes_ite (axes_ite hu ((count_axes u _).trans hu)) (axes_ite hu hu)))

theorem axisEvents_ax_of_le (s : State) (at_ : Nat) {b : Nat} (h : 240 ≤ b) : (s.axisEvents at_).ax b = s.ax b := by
  refine List.foldlRecOn (motive := fun u : State => u.ax b = s.ax b) _ _ rfl fun u hu a ha => ?_
  have hb : b ≠ a := by have := axNums_lt ha; omega
  dsimp only
  split
  · exact hu
  · refine List.foldlRecOn (motive := fun u : State => u.ax b = s.ax b) _ _ ((ax_setAx_other u _ hb).trans hu) fun v hv e _ => ?_
    exact (congrArg (Store.get Ax.init · b) (capEvent_axes v _)).trans hv

theorem noteEvents_ax_of_le (s old : State) {b : Nat} (h : 240 ≤ b) : (s.noteEvents old).ax b = s.ax b := by
  refine List.foldlRecOn (motive := fun u : State => u.ax b = s.ax b) _ _ rfl fun u hu a ha => ?_
  have hb : b ≠ a := by have := axNums_lt ha; omega
  exact (ax_setAx_other u _ hb).trans hu

theorem homeDwellExpire_ax_of_le {s t : State} {a : Fin 240} {b : Nat} (h : exec (.homeDwellExpire a) s = .next t) (hb : 240 ≤ b) : t.ax b = s.ax b := by
  have hba : b ≠ a.val := by omega
  cases h
  exact (axisEvents_ax_of_le _ _ hb).trans ((noteEvents_ax_of_le _ _ hb).trans (ax_setAx_other s _ hba))

/-- Axis 0 in the last course of HOME_DWELL of a hard stop. The state also lists number 240, which is no axis, with an event noted. -/
def strayAxis : State :=
  { State.reset with axes := [(0, { Ax.init with homing := some ⟨.search, 0, some 0, none, 0, false, false⟩, par := { AxPar.init with homeMethod := 3 } }), (240, { Ax.init with evts := [0] })] }

/-- Refutes O30: the home point of axis 0 leaves the event noted for number 240, which is no axis, where it is. -/
theorem not_axisTimers : ¬ Obligations.AxisTimers := by
  unfold Obligations.AxisTimers
  intro h
  obtain ⟨-, -, hhome⟩ := h strayAxis 0 0
  obtain ⟨t, ht, -, -, -, -, -, -, -, -, hothers, -⟩ := hhome _ 0 rfl rfl rfl rfl (Or.inl (by decide)) (by decide)
  have hevents : ([] : List Nat) = [0] := congrArg Ax.evts ((hothers 240 (by decide)).symm.trans (homeDwellExpire_ax_of_le ht (Nat.le_refl 240)))
  exact absurd hevents (by decide)

end Sys2Proof.Proofs
end

section
/-! SUPPORT. What the events of a stepper channel leave: the frame of each operation on a channel, by which the statements on the chopper, the generator and the stall say what is unchanged (O34, O36, O37). -/
namespace Sys2Proof.Proofs
open Machine Laws

/-! Frames compose. -/

section
variable {s t u : State} {n : Nat} {fs gs : List Fld}

theorem fldsBut_mono (h : FldsBut s t fs) (hsub : fs ⊆ gs) : FldsBut s t gs := fun f hf => h f fun g hg => hf g (hsub hg)

theorem fldsBut_trans (h : FldsBut s t fs) (h' : FldsBut t u fs) : FldsBut s u fs := fun f hf => (h' f hf).trans (h f hf)

theorem onlyChanAx_mono (h : OnlyChanAx s t n fs) (hsub : fs ⊆ gs) : OnlyChanAx s t n gs := by
  obtain ⟨hchan, hax, hflds, hrest⟩ := h
  exact ⟨hchan, hax, fldsBut_mono hflds hsub, hrest⟩

theorem onlyChanAx_trans (h : OnlyChanAx s t n fs) (h' : OnlyChanAx t u n fs) : OnlyChanAx s u n fs := by
  obtain ⟨hchan, hax, hflds, hrest⟩ := h
  obtain ⟨hchan', hax', hflds', hrest'⟩ := h'
  exact ⟨fun m hm => (hchan' m hm).trans (hchan m hm), fun a ha => (hax' a ha).trans (hax a ha), fldsBut_trans hflds hflds',
    hrest'.trans (congrArg (fun v : State => { v with chans := u.chans, axes := u.axes, flds := u.flds, bus := u.bus, outs := u.outs }) hrest)⟩

theorem onlyChanAx_of_onlyChan (h : OnlyChan s t n fs) : OnlyChanAx s t n fs := by
  obtain ⟨hchan, hflds, hrest⟩ := h
  refine ⟨hchan, fun a _ => ?_, hflds, ?_⟩
  · rw [hrest]
    rfl
  · rw [hrest]

end

/-- A field that a frame does not name. -/
theorem onlyChanAx_get {s t : State} {n : Nat} {fs : List Fld} {f : Fld} (h : OnlyChanAx s t n fs) (hf : ∀ g ∈ fs, g.key ≠ f.key) : t.get f = s.get f := h.2.2.1 f hf

/-! The operations on a channel. -/

theorem onlyChan_setChan (s : State) (n : Nat) (c : Chan) : OnlyChan s (s.setChan n c) n [] :=
  ⟨fun _ hm => chan_setChan_other s c hm, fun _ _ => rfl, rfl⟩

theorem onlyChanAx_refl (s : State) (n : Nat) (fs : List Fld) : OnlyChanAx s s n fs := ⟨fun _ _ => rfl, fun _ _ => rfl, fun _ _ => rfl, rfl⟩

theorem onlyChanAx_setChan (s : State) (n : Nat) (c : Chan) (fs : List Fld) : OnlyChanAx s (s.setChan n c) n fs :=
  onlyChanAx_mono (onlyChanAx_of_onlyChan (onlyChan_setChan s n c)) (List.nil_subset _)

theorem onlyChanAx_setAx (s : State) (n : Nat) (x : Ax) (fs : List Fld) : OnlyChanAx s (s.setAx (192 + n) x) n fs :=
  ⟨fun _ _ => rfl, fun _ ha => ax_setAx_other s x ha, fun _ _ => rfl, rfl⟩

theorem onlyChanAx_set (s : State) (n : Nat) {f : Fld} (v : Nat) {fs : List Fld} (hf : f ∈ fs) : OnlyChanAx s (s.set f v) n fs :=
  ⟨fun _ _ => rfl, fun _ _ => rfl, fun _ hg => get_set_other s v (hg f hf).symm, rfl⟩

theorem onlyChanAx_ite {s t u : State} {n : Nat} {fs : List Fld} {p : Prop} [Decidable p] (ht : OnlyChanAx s t n fs) (hu : OnlyChanAx s u n fs) :
    OnlyChanAx s (if p then t else u) n fs := by
  split
  · exact ht
  · exact hu

/-- The fields that STEP_FAULT writes (R167). -/
def faultFlds (n : Nat) : List Fld := [R.STP_STAT_FLT_CODE n, R.STP_FLT0_FLT, R.STP_FLT1_FLT]

theorem stepFault_chans (s : State) (n code : Nat) : (s.stepFault n code).chans = s.chans := by
  rw [stepFault_eq]
  rfl

theorem stepFault_chan (s : State) (n code m : Nat) : (s.stepFault n code).chan m = s.chan m := congrArg (Store.get Chan.init · m) (stepFault_chans s n code)

theorem stepFault_ax (s : State) (n code : Nat) : (s.stepFault n code).ax (192 + n) = { s.ax (192 + n) with pend := (s.ax (192 + n)).pend ||| cStep } := by
  rw [stepFault_eq, ax_setAx]

theorem stepFault_onlyChanAx (s : State) (n code : Nat) : OnlyChanAx s (s.stepFault n code) n (faultFlds n) := by
  refine ⟨fun m _ => stepFault_chan s n code m, fun a ha => ?_, stepFault_fldsBut s n code, ?_⟩
  · rw [stepFault_eq, ax_setAx_other _ _ ha]
    rfl
  · rw [stepFault_eq]
    rfl

/-! What a stepper event leaves, from what its meaning leaves. -/

section
variable {i : Instr} {s u : State} {n : Nat} {p : State → Prop}

/-- An event that replaces its channel alone. -/
theorem ends_setChan {c : Chan} {o : List Out} (hi : exec i s = stpDo (s.setChan n c) s o)
    (hp : ∀ t, t.chan n = c → t.outs = o → OnlyChan s t n [] → p t) : Ends i s p :=
  ends_stpDo hi (hp _ (chan_setChan s n c) rfl ⟨fun _ hm => chan_setChan_other s c hm, fun _ _ => rfl, rfl⟩)

/-- The frame of an event is that of its meaning. -/
theorem onlyChanAx_event {fs : List Fld} {o : List Out} (h : OnlyChanAx s u n fs) :
    OnlyChanAx s { s with chans := u.chans, axes := u.axes, flds := u.flds, bus := .none, outs := o } n fs := by
  obtain ⟨hchan, hax, hflds, -⟩ := h
  exact ⟨hchan, hax, hflds, rfl⟩

theorem onlyChan_event {fs : List Fld} {o : List Out} (h : OnlyChan s u n fs) :
    OnlyChan s { s with chans := u.chans, axes := u.axes, flds := u.flds, bus := .none, outs := o } n fs := by
  obtain ⟨hchan, hflds, hrest⟩ := h
  exact ⟨hchan, hflds, congrArg (fun v : State => { s with chans := u.chans, axes := v.axes, flds := u.flds, bus := .none, outs := o }) hrest⟩

end

end Sys2Proof.Proofs
end

section
/-! SUPPORT. One chopper period of a stepper phase (O34; R160, R162, R164, R167). -/
namespace Sys2Proof.Proofs
open Machine Laws

theorem le_maxR_left (a b : Rat) : a ≤ maxR a b := by
  unfold maxR
  split
  next h => exact Rat.le_of_lt h
  next => exact Rat.le_refl

theorem le_maxR_right (a b : Rat) : b ≤ maxR a b := by
  unfold maxR
  split
  next => exact Rat.le_refl
  next h => exact Rat.not_lt.mp h

/-! The end of an on-time. -/

/-- A phase after an on-time of `on` ns. -/
def offPhase (c : Chan) (p : Phase) (on : Nat) : Phase :=
  let m := p.measure c.cfg p.u (on : Rat)
  let off := if 0 < p.sOff then (m.peak - (p.l : Rat)) / p.sOff else (c.cfg.toffMin : Rat)
  { m with
    st := if c.cfg.decay = 0 then .slow else .fast
    tOn := (on : Rat)
    tOff := maxR off (maxR (c.cfg.toffMin : Rat) (16667 - (on : Rat)))
    early := if p.held then some ⟨p.peak, p.tOff, p.sOn, p.u⟩ else none }

theorem endOn_eq (c : Chan) (b : Bool) (on : Nat) : c.endOn b on =
    { c.setPh b (offPhase c (c.ph b) on) with slopeSum := c.slopeSum + (offPhase c (c.ph b) on).sOn, slopeN := c.slopeN + 1 } := rfl

theorem endOn_ph_same (c : Chan) (b : Bool) (on : Nat) : (c.endOn b on).ph b = offPhase c (c.ph b) on := by cases b <;> rfl

theorem endOn_ph_not (c : Chan) (b : Bool) (on : Nat) : (c.endOn b on).ph (!b) = c.ph (!b) := by cases b <;> rfl

theorem toffMin_le_offPhase (c : Chan) (p : Phase) (on : Nat) : (c.cfg.toffMin : Rat) ≤ (offPhase c p on).tOff :=
  Rat.le_trans (le_maxR_left _ _) (le_maxR_right _ _)

theorem period_le_offPhase (c : Chan) (p : Phase) (on : Nat) : 16667 - (on : Rat) ≤ (offPhase c p on).tOff :=
  Rat.le_trans (le_maxR_right _ _) (le_maxR_right _ _)

/-- The on-slope leads from the valley to the threshold in the on-time less the comparator's delay. -/
theorem offPhase_slope {c : Chan} (p : Phase) {on : Nat} (h : c.cfg.cmpDly < on) : (offPhase c p on).sOn * ((on : Rat) - c.cfg.cmpDly) = (p.u : Rat) - p.valley := by
  have hpos : (0 : Rat) < (on : Rat) - c.cfg.cmpDly := (Rat.lt_iff_sub_pos _ _).mp (Rat.natCast_lt_natCast.mpr h)
  have hslope : (offPhase c p on).sOn = ((p.u : Rat) - p.valley) / ((on : Rat) - c.cfg.cmpDly) := if_neg (Rat.not_le.mpr hpos)
  rw [hslope, Rat.div_mul_cancel (Rat.ne_of_gt hpos)]

/-! A new period. -/

/-- A chopper period that starts: it drives where the target is at least 1, else waits in slow decay; a sign change leaves no period before. -/
theorem period_fields (p : Phase) (cfg : ChanCfg) (x : Rat) (neg : Bool) (ofs : Int) :
    (p.period cfg x neg ofs).st = (if x < 1 then .slow else .drive) ∧ (p.period cfg x neg ofs).wait = decide (x < 1) ∧ (p.period cfg x neg ofs).t = x ∧
    (p.period cfg x neg ofs).tPrev = p.tPrev ∧ (p.period cfg x neg ofs).neg = neg ∧
    (p.period cfg x neg ofs).havePrev = (decide (1 ≤ x) && neg == p.neg && p.havePrev) ∧ (p.period cfg x neg ofs).held = false ∧
    (p.period cfg x neg ofs).fault = p.fault := by
  unfold Phase.period
  by_cases hx : x < 1
  · have hlow : ¬ 1 ≤ x := Rat.not_le.mpr hx
    by_cases hneg : neg = p.neg <;> simp [hx, hneg, hlow]
  · have hhigh : 1 ≤ x := Rat.not_lt.mp hx
    by_cases hneg : neg = p.neg <;> simp [hx, hneg, hhigh, Phase.aim]

/-- The phase after its off-time: the target it regulated is that of the period before. -/
def nextPeriod (s : State) (n : Nat) (b : Bool) : Phase :=
  let p := (s.chan n).ph b
  Phase.period { p with fault := none, tPrev := p.t, havePrev := true } (s.chan n).cfg (s.target n b).1 (s.target n b).2 (s.cmpOfs n b)

theorem nextPeriod_fields (s : State) (n : Nat) (b : Bool) :
    (nextPeriod s n b).st = (if (s.target n b).1 < 1 then .slow else .drive) ∧ (nextPeriod s n b).wait = decide ((s.target n b).1 < 1) ∧
    (nextPeriod s n b).t = (s.target n b).1 ∧ (nextPeriod s n b).tPrev = ((s.chan n).ph b).t ∧ (nextPeriod s n b).neg = (s.target n b).2 ∧
    (nextPeriod s n b).havePrev = (decide (1 ≤ (s.target n b).1) && (s.target n b).2 == ((s.chan n).ph b).neg) ∧ (nextPeriod s n b).held = false ∧
    (nextPeriod s n b).fault = none := by
  simpa [nextPeriod] using period_fields { (s.chan n).ph b with fault := none, tPrev := ((s.chan n).ph b).t, havePrev := true } (s.chan n).cfg (s.target n b).1 (s.target n b).2 (s.cmpOfs n b)

theorem offTimeEnd_waiting {s : State} {n : Nat} {b : Bool} (h : ((s.chan n).ph b).wait = true) : s.offTimeEnd n b = s := by
  simp [State.offTimeEnd, h]

theorem offTimeEnd_due {s : State} {n : Nat} {b : Bool} (hchops : s.chanState n = 1) (hst : ((s.chan n).ph b).st = .slow ∨ ((s.chan n).ph b).st = .fast)
    (hwait : ((s.chan n).ph b).wait = false) : s.offTimeEnd n b =
      if ((s.chan n).ph b).fault.isSome then (s.setChan n ((s.chan n).setPh b (nextPeriod s n b))).transient n
      else s.setChan n ((s.chan n).setPh b (nextPeriod s n b)) := by
  have hin : (s.inPhase n b .slow || s.inPhase n b .fast) = true := (Bool.or_eq_true _ _).mpr (hst.imp (inPhase_iff hchops).mpr (inPhase_iff hchops).mpr)
  simp [State.offTimeEnd, hin, hwait, nextPeriod]

/-- Settles O34: each event by the part of the period that it ends. -/
theorem chopperPeriod : Obligations.ChopperPeriod := by
  intro s n b ton hchops c p trips
  have hin : ∀ {st}, p.st = st → s.inPhase n b st = true := (inPhase_iff hchops).mpr
  have htrips : ∀ {i on}, exec i s = stpDo (s.setChan n (c.endOn b on)) s [] → trips i on := fun {i on} hi =>
    ends_setChan hi fun t ht _ hframe => by
      have hph : (t.chan n).ph b = offPhase c p on := by rw [ht, endOn_ph_same]
      have hnot : (t.chan n).ph (!b) = c.ph (!b) := by rw [ht, endOn_ph_not]
      dsimp only
      rw [hph, hnot, ht, endOn_eq]
      exact ⟨rfl, rfl, rfl, rfl, rfl, rfl, rfl, toffMin_le_offPhase c p on, period_le_offPhase c p on, offPhase_slope p, rfl, rfl, rfl, hframe⟩
  refine ⟨fun hdrive => ?_, fun hdrive => htrips (congrArg (stpDo · s []) ?_), fun hdrive hopen => htrips (congrArg (stpDo · s []) ?_),
    fun hfast hmixed => ?_, fun _ hwait => ?_, fun hst hwait => ?_⟩
  · have hu : s.blankingEnd n b false = s.setChan n (c.setPh b { p with held := true }) := by simp [State.blankingEnd, hin hdrive, c, p]
    exact ends_setChan (congrArg (stpDo · s []) hu) fun t ht _ hframe => ⟨ht, hframe⟩
  · simp [State.comparatorTrip, hin hdrive, c]
  · have hsmall : ¬ (((s.chan n).cfg.openMin : Rat) ≤ ((s.chan n).ph b).t) := Rat.not_le.mpr hopen
    simp [State.onTimeMax, hin hdrive, hsmall, c]
  · have hu : s.fastDecayEnd n b = s.setChan n (c.setPh b { p with st := .slow }) := by
      have hdecay : (s.chan n).cfg.decay = 2 := hmixed
      simp [State.fastDecayEnd, hin hfast, hdecay, c, p]
    exact ends_setChan (congrArg (stpDo · s []) hu) fun t ht _ hframe => ⟨ht, hframe⟩
  · exact ends_stpDo (congrArg (stpDo · s []) (offTimeEnd_waiting hwait)) rfl
  · let u := s.setChan n (c.setPh b (nextPeriod s n b))
    have hperiod := nextPeriod_fields s n b
    have hchan : u.chan n = c.setPh b (nextPeriod s n b) := chan_setChan _ _ _
    have hph : (u.chan n).ph b = nextPeriod s n b := by rw [hchan, ph_setPh_same]
    have hnot : (u.chan n).ph (!b) = c.ph (!b) := by rw [hchan, ph_setPh_not]
    rw [← hph] at hperiod
    obtain ⟨hst', hwait', ht, hprev, hneg, hhave, hheld, hfault⟩ := hperiod
    have hdue := offTimeEnd_due hchops hst hwait
    cases hp : p.fault with
    | none =>
      have hu : s.offTimeEnd n b = u := hdue.trans (if_neg (by simp [show ((s.chan n).ph b).fault = none from hp]))
      exact ends_stpDo (congrArg (stpDo · s []) hu) ⟨hst', hwait', ht, hprev, hneg, hhave, hheld, hfault, hnot,
        fun _ => ⟨fun m hm => chan_setChan_other s _ hm, fun _ _ => rfl, rfl⟩, fun h => absurd rfl h⟩
    | some code =>
      have hu : s.offTimeEnd n b = u.transient n := hdue.trans (if_pos (by simp [show ((s.chan n).ph b).fault = some code from hp]))
      rw [transient_flds] at hu
      exact ends_stpDo (congrArg (stpDo · s []) hu) ⟨hst', hwait', ht, hprev, hneg, hhave, hheld, hfault, hnot, fun h => absurd h (Option.some_ne_none code),
        fun _ => ⟨transient_flag u n, transient_counted u n, fun m hm => chan_setChan_other s _ hm, transient_fldsBut u n, rfl⟩⟩

end Sys2Proof.Proofs
end

section
/-! SUPPORT. Stall indication and external drive faults of a stepper channel (O37; R149, R157, R164 to R166). -/
namespace Sys2Proof.Proofs
open Machine Laws

/-! What the stall indication does (R165). -/

/-- The channel with the stall indication set. -/
def stallMarked (s : State) (n : Nat) : State := s.setChan n { s.chan n with stall := true }

/-- STALL set, and STEP_FAULT latched where STALL_FLT asks for it. -/
def stallLatched (s : State) (n : Nat) : State := if bit (s.chan n).cfg.cfg 11 then (stallMarked s n).stepFault n 4 else stallMarked s n

/-- The channel with its generator frozen at a stall, the encoder's place marked. -/
def stallFrozen (c : Chan) : Chan := { c.freeze with stall := true, stallPos := if c.stall then c.stallPos else c.encPos }

theorem stallAct_outside {s : State} {n : Nat} (h : (s.ax (192 + n)).homing = none) : s.stallAct n =
    if (s.chan n).cfg.encEn then stallLatched s n
    else (stallLatched s n).setAx (192 + n) { (stallLatched s n).ax (192 + n) with posUnc := true, homed := false } := by
  simp only [State.stallAct, h]
  rfl

theorem stallAct_homing {s : State} {n : Nat} {h : Homing} (hh : (s.ax (192 + n)).homing = some h) : s.stallAct n =
    if (s.ax (192 + n)).par.homeMethod = 3 ∧ h.step = .search then
      (s.setChan n (stallFrozen (s.chan n))).setAx (192 + n) { (s.ax (192 + n)).rest with
        pos := (((s.chan n).gen + (s.ax (192 + n)).ofs : Int) : Rat), cmdPos := (s.chan n).gen + (s.ax (192 + n)).ofs, prevPos := (s.chan n).gen + (s.ax (192 + n)).ofs }
    else stallMarked s n := by
  simp only [State.stallAct, hh]
  rfl

theorem stallMarked_chan (s : State) (n : Nat) : (stallMarked s n).chan n = { s.chan n with stall := true } := chan_setChan s n _

theorem stallLatched_chans (s : State) (n : Nat) : (stallLatched s n).chans = (stallMarked s n).chans := by
  unfold stallLatched
  split
  · exact stepFault_chans _ n 4
  · rfl

theorem stallLatched_ax (s : State) (n : Nat) : (stallLatched s n).ax (192 + n) =
    { s.ax (192 + n) with pend := if bit (s.chan n).cfg.cfg 11 then (s.ax (192 + n)).pend ||| cStep else (s.ax (192 + n)).pend } := by
  unfold stallLatched
  split
  · exact stepFault_ax _ n 4
  · rfl

theorem stallLatched_onlyChanAx (s : State) (n : Nat) : OnlyChanAx s (stallLatched s n) n (faultFlds n) :=
  onlyChanAx_ite (onlyChanAx_trans (onlyChanAx_setChan s n _ _) (stepFault_onlyChanAx _ n 4)) (onlyChanAx_setChan s n _ _)

/-- The stall indication changes its channel, its axis and what STEP_FAULT writes. -/
theorem stallAct_onlyChanAx (s : State) (n : Nat) : OnlyChanAx s (s.stallAct n) n (faultFlds n) := by
  cases hh : (s.ax (192 + n)).homing with
  | none =>
    rw [stallAct_outside hh]
    exact onlyChanAx_ite (stallLatched_onlyChanAx s n) (onlyChanAx_trans (stallLatched_onlyChanAx s n) (onlyChanAx_setAx _ n _ _))
  | some h =>
    rw [stallAct_homing hh]
    exact onlyChanAx_ite (onlyChanAx_trans (onlyChanAx_setChan s n _ _) (onlyChanAx_setAx _ n _ _)) (onlyChanAx_setChan s n _ _)

theorem stallAct_outside_chans {s : State} {n : Nat} (h : (s.ax (192 + n)).homing = none) : (s.stallAct n).chans = (stallMarked s n).chans := by
  rw [stallAct_outside h, ← stallLatched_chans]
  split <;> rfl

theorem stallAct_outside_flds {s : State} {n : Nat} (h : (s.ax (192 + n)).homing = none) : (s.stallAct n).flds = (stallLatched s n).flds := by
  rw [stallAct_outside h]
  split <;> rfl

/-- An axis without an encoder is left uncertain in position and not homed. -/
theorem stallAct_outside_ax {s : State} {n : Nat} (h : (s.ax (192 + n)).homing = none) : (s.stallAct n).ax (192 + n) =
    { (stallLatched s n).ax (192 + n) with
      posUnc := (s.ax (192 + n)).posUnc || !(s.chan n).cfg.encEn, homed := (s.ax (192 + n)).homed && (s.chan n).cfg.encEn } := by
  rw [stallAct_outside h]
  cases henc : (s.chan n).cfg.encEn with
  | true => simp [stallLatched_ax]
  | false => simp

/-- The channel after a stall: marked, or in the search of a hard stop frozen. -/
theorem stallAct_chan (s : State) (n : Nat) : (s.stallAct n).chan n = { s.chan n with stall := true } ∨ (s.stallAct n).chan n = stallFrozen (s.chan n) := by
  cases hh : (s.ax (192 + n)).homing with
  | none => exact .inl ((congrArg (Store.get Chan.init · n) (stallAct_outside_chans hh)).trans (stallMarked_chan s n))
  | some h =>
    rw [stallAct_homing hh]
    split
    · exact .inr (chan_setChan s n _)
    · exact .inl (stallMarked_chan s n)

/-! The two events. -/

theorem execStall_acts {s : State} {n : Fin 48} (h : s.stallCond n = true) : exec (.stall n) s = stpDo (s.stallAct n) s [] :=
  congrArg (stpDo · s []) (if_pos h)

theorem execStall_idle {s : State} {n : Fin 48} (h : s.stallCond n = false) : exec (.stall n) s = stpDo s s [] :=
  congrArg (stpDo · s []) (if_neg (by simp [h]))

theorem stepping_iff {s : State} {n : Nat} : s.stepping n = true ↔ s.chanState n = 2 := beq_iff_eq

/-- Settles O37: an external fault by what judges it, a stall by the run that it meets. -/
theorem stallAndExternalFault : Obligations.StallAndExternalFault := by
  intro s n high c x
  refine ⟨fun henabled hstate hlevel => ?_, fun hnot => ?_, fun hcond => ?_, fun hcond hrun => ?_, fun h hcond hrun hstep hmethod => ?_⟩
  · have hu : s.externalFault n high = s.stepFault n 5 := if_pos (by simp [henabled, stepping_iff.mpr hstate, hlevel, x, c])
    exact ends_stpDo (congrArg (stpDo · s []) hu) ⟨stepFault_code s n (by decide), stepFault_stpFlt s n 5, stepFault_ax s n 5, stepFault_chan s n 5 n,
      onlyChanAx_event (stepFault_onlyChanAx s n 5)⟩
  · have hu : s.externalFault n high = s := if_neg (by
      simp only [Bool.and_eq_true, stepping_iff, beq_iff_eq, Classical.not_and_iff_not_or_not]
      rcases hnot with h | h | h
      · exact .inl (.inl (by simpa using h))
      · exact .inl (.inr h)
      · exact .inr h)
    exact ends_stpDo (congrArg (stpDo · s []) hu) rfl
  · exact ends_stpDo (execStall_idle hcond) rfl
  · have hchan : (s.stallAct n).chan n = { c with stall := true } := (congrArg (Store.get Chan.init · n.val) (stallAct_outside_chans hrun)).trans (stallMarked_chan s n)
    have hax := stallAct_outside_ax hrun
    have hget : ∀ f, (s.stallAct n).get f = (stallLatched s n).get f := fun f => congrArg (Store.get f.rst · f.key) (stallAct_outside_flds hrun)
    refine ends_stpDo (execStall_acts hcond) ⟨hchan, congrArg Ax.posUnc hax, congrArg Ax.homed hax, (congrArg Ax.pend hax).trans (congrArg Ax.pend (stallLatched_ax s n)),
      fun hfault => ?_, fun hquiet f _ => ?_, onlyChanAx_event (stallAct_onlyChanAx s n)⟩
    · have hlatched : stallLatched s n = (stallMarked s n).stepFault n 4 := if_pos hfault
      have hbit : (s.stallAct n).stpFlt n = true := by rw [stpFlt_eq, hget, hlatched, ← stpFlt_eq, stepFault_stpFlt]
      refine ⟨(hget _).trans ?_, hbit⟩
      rw [hlatched, stepFault_code _ n (by decide)]
    · have hlatched : stallLatched s n = stallMarked s n := if_neg (by simpa using hquiet)
      refine (hget f).trans ?_
      rw [hlatched]
      rfl
  · let v := s.setChan n (stallFrozen c)
    let y := { x.rest with pos := ((c.gen + x.ofs : Int) : Rat), cmdPos := c.gen + x.ofs, prevPos := c.gen + x.ofs }
    have hu : s.stallAct n = v.setAx (192 + n) y := (stallAct_homing hrun).trans (if_pos ⟨hmethod, hstep⟩)
    have hchan : v.chan n = stallFrozen c := chan_setChan s n _
    have hax : (v.setAx (192 + n) y).ax (192 + n) = y := ax_setAx v _ y
    exact ends_stpDo ((execStall_acts hcond).trans (congrArg (stpDo · s []) hu)) ⟨congrArg Chan.stall hchan, congrArg Chan.frozen hchan, (congrArg Chan.gen hchan).trans rfl,
      congrArg Chan.pulses hchan, congrArg Chan.stallPos hchan, congrArg Ax.cmdPos hax, congrArg Ax.pos hax, congrArg Ax.vel hax,
      onlyChanAx_event (onlyChanAx_trans (onlyChanAx_setChan s n _ _) (onlyChanAx_setAx v n y _))⟩

end Sys2Proof.Proofs
end

section
/-! SUPPORT. The step generator of a channel, its STEP pulses, its encoder and its hold delay (O36; R155 to R157, R159, R163, R164). -/
namespace Sys2Proof.Proofs
open Machine Laws

/-! Steps of the generator (R155). -/

theorem stepNo_eq (mres : Nat) (g : Int) : stepNo mres g = g / ((2 ^ mres * 65536 : Nat) : Int) := by
  rw [stepNo, Int.ediv_ediv_of_nonneg (by decide), Int.natCast_mul, Int.mul_comm]
  rfl

/-- The generator's increments in a step of 2^MRES. -/
theorem stepWidth_pos (mres : Nat) : (0 : Int) < ((2 ^ mres * 65536 : Nat) : Int) := Int.natCast_pos.mpr (Nat.mul_pos (Nat.two_pow_pos mres) (by decide))

theorem stepNo_mul (mres : Nat) (k : Int) : stepNo mres (k * ((2 ^ mres * 65536 : Nat) : Int)) = k := by
  rw [stepNo_eq]
  exact Int.mul_ediv_cancel _ (Int.ne_of_gt (stepWidth_pos mres))

theorem stepNo_mul_sub_one (mres : Nat) (k : Int) : stepNo mres (k * ((2 ^ mres * 65536 : Nat) : Int) - 1) = k - 1 := by
  have hw := stepWidth_pos mres
  rw [stepNo_eq, Int.ediv_eq_iff_of_pos hw, Int.sub_mul, Int.one_mul]
  generalize ((2 ^ mres * 65536 : Nat) : Int) = w at hw ⊢
  constructor <;> omega

/-- The next step is one further or one back. -/
theorem nextStep_stepNo {c : Chan} {p : Int} (h : c.nextStep = some p) :
    stepNo c.cfg.mres p = stepNo c.cfg.mres c.gen + 1 ∨ stepNo c.cfg.mres p = stepNo c.cfg.mres c.gen - 1 := by
  unfold Chan.nextStep at h
  dsimp only at h
  split at h
  · cases h
  · split at h
    · cases h
      exact .inl (stepNo_mul _ _)
    · cases h
      exact .inr (stepNo_mul_sub_one _ _)

/-- A step queues one pulse of its direction, where pulses are driven. -/
theorem moveTo_pulses {c : Chan} {p : Int} (live : Bool)
    (h : stepNo c.cfg.mres p = stepNo c.cfg.mres c.gen + 1 ∨ stepNo c.cfg.mres p = stepNo c.cfg.mres c.gen - 1) :
    (c.moveTo live p).pulses = if live then addRun c.pulses (decide (stepNo c.cfg.mres c.gen < stepNo c.cfg.mres p)) 1 else [] := by
  have hone : (stepNo c.cfg.mres p - stepNo c.cfg.mres c.gen).natAbs = 1 := by omega
  have hdir : decide (0 < stepNo c.cfg.mres p - stepNo c.cfg.mres c.gen) = decide (stepNo c.cfg.mres c.gen < stepNo c.cfg.mres p) := decide_eq_decide.mpr (by omega)
  rw [← hone, ← hdir]
  rfl

/-! A full step, and the phases that follow the index. -/

/-- A stall leaves the generator and the average, and queues no pulse. -/
theorem stallAct_keeps (s : State) (n : Nat) : ((s.stallAct n).chan n).gen = (s.chan n).gen ∧ ((s.stallAct n).chan n).slopeSum = (s.chan n).slopeSum ∧
    ((s.stallAct n).chan n).slopeN = (s.chan n).slopeN ∧ ((s.chan n).pulses = [] → ((s.stallAct n).chan n).pulses = []) := by
  rcases stallAct_chan s n with h | h <;> rw [h]
  · exact ⟨rfl, rfl, rfl, id⟩
  · exact ⟨rfl, rfl, rfl, fun _ => rfl⟩

/-- Without an encoder only a channel that chops stalls (R164). -/
theorem stepDir_of_stallCond {s : State} {n : Nat} (h : s.stallCond n = true) (henc : (s.chan n).cfg.encEn = false) : (s.chan n).cfg.stepDir = false := by
  simp only [State.stallCond, henc, Bool.false_eq_true, if_false, Bool.and_eq_true, Bool.not_eq_true'] at h
  exact h.1.1

theorem stepDir_of_chanState {s : State} {n : Nat} (h : s.chanState n = 2) : (s.chan n).cfg.stepDir = true := by
  cases hmode : bit (s.chan n).cfg.cfg 0 with
  | true => exact hmode
  | false =>
    simp only [State.chanState, hmode, Bool.false_eq_true, if_false] at h
    iterate 6
      split at h
      · exact absurd h (by decide)
    exact absurd h (by decide)

/-- The average on-slope of a full step (R164). -/
def slopeAvg (c : Chan) : Nat := (rne (c.slopeSum / (c.slopeN : Rat) * 256000)).toNat

/-- The fields that a full step writes: the average, and what STEP_FAULT writes. -/
def stepFlds (n : Nat) : List Fld := R.STP_STAT_SLOPE_AVG n :: faultFlds n

/-- The run of full steps with a stalled slope, this one judged (R164). -/
def slopeRunNext (s : State) (n : Nat) : Nat :=
  if decide (f32Rat (s.chan n).cfg.stallVmin ≤ absR (s.ax (192 + n)).vel) && decide (bits (s.chan n).cfg.stall 0 16 ≤ slopeAvg (s.chan n)) then (s.chan n).slopeRun + 1 else 0

/-- The channel with its full step judged and a new average begun. -/
def slopeJudged (s : State) (n : Nat) : Chan :=
  { s.chan n with
    slopeSum := 0
    slopeN := 0
    slopeRun := slopeRunNext s n
    stall := (s.chan n).stall && ((s.chan n).cfg.encEn || (s.chan n).search || decide (0 < slopeRunNext s n)) }

/-- A full step with its average published. -/
def slopePublished (s : State) (n : Nat) : State := (s.setChan n (slopeJudged s n)).set (R.STP_STAT_SLOPE_AVG n) (min (slopeAvg (s.chan n)) 65535)

theorem slopePublished_chan (s : State) (n : Nat) : (slopePublished s n).chan n = slopeJudged s n := chan_setChan s n _

theorem slopePublished_avg (s : State) (n : Nat) : (slopePublished s n).get (R.STP_STAT_SLOPE_AVG n) = min (slopeAvg (s.chan n)) 65535 := by
  rw [slopePublished, get_set_same]
  exact Nat.mod_eq_of_lt (Nat.lt_succ_of_le (Nat.min_le_right _ _))

theorem slopePublished_onlyChanAx (s : State) (n : Nat) : OnlyChanAx s (slopePublished s n) n (stepFlds n) :=
  onlyChanAx_trans (onlyChanAx_setChan s n _ _) (onlyChanAx_set _ n _ List.mem_cons_self)

theorem fullStep_empty {s : State} {n : Nat} (h : (s.chan n).slopeN = 0) : s.fullStep n = s := if_pos h

theorem fullStep_judged {s : State} {n : Nat} (h : (s.chan n).slopeN ≠ 0) : s.fullStep n =
    if !(s.chan n).cfg.encEn && (slopePublished s n).stallCond n then (slopePublished s n).stallAct n else slopePublished s n := if_neg h

/-- A full step is published, and may then act as a stall, on a channel that chops alone. -/
theorem fullStep_cases {s : State} {n : Nat} (h : (s.chan n).slopeN ≠ 0) :
    s.fullStep n = slopePublished s n ∨ (s.fullStep n = (slopePublished s n).stallAct n ∧ (s.chan n).cfg.stepDir = false) := by
  rw [fullStep_judged h]
  split
  next hstall =>
    obtain ⟨henc, hcond⟩ := (Bool.and_eq_true _ _).mp hstall
    have hcfg : ((slopePublished s n).chan n).cfg = (s.chan n).cfg := (congrArg Chan.cfg (slopePublished_chan s n)).trans rfl
    refine .inr ⟨rfl, ?_⟩
    rw [← hcfg]
    exact stepDir_of_stallCond hcond (by simpa [hcfg] using henc)
  next => exact .inl rfl

theorem slopeAvg_key_ne (n : Fin 48) : ∀ g ∈ faultFlds n, g.key ≠ (R.STP_STAT_SLOPE_AVG n).key := by
  simp only [faultFlds, List.forall_mem_cons, Fld.key, R.STP_STAT_FLT_CODE, R.STP_FLT0_FLT, R.STP_FLT1_FLT, R.STP_STAT_SLOPE_AVG]
  exact ⟨by omega, by omega, by omega, fun _ h => absurd h List.not_mem_nil⟩

/-- A full step with on-times in it publishes their average and starts a new one. -/
theorem fullStep_average {s : State} {n : Fin 48} (h : (s.chan n).slopeN ≠ 0) :
    (s.fullStep n).get (R.STP_STAT_SLOPE_AVG n) = min (slopeAvg (s.chan n)) 65535 ∧ ((s.fullStep n).chan n).slopeSum = 0 ∧ ((s.fullStep n).chan n).slopeN = 0 := by
  have hchan := slopePublished_chan s n
  rcases fullStep_cases h with hu | ⟨hu, -⟩ <;> rw [hu]
  · exact ⟨slopePublished_avg s n, congrArg Chan.slopeSum hchan, congrArg Chan.slopeN hchan⟩
  · obtain ⟨-, hsum, hcount, -⟩ := stallAct_keeps (slopePublished s n) n
    refine ⟨?_, hsum.trans (congrArg Chan.slopeSum hchan), hcount.trans (congrArg Chan.slopeN hchan)⟩
    rw [onlyChanAx_get (stallAct_onlyChanAx _ n) (slopeAvg_key_ne n), slopePublished_avg]

/-- A full step leaves the generator and the pulses that a channel in STEP/DIR mode has queued. -/
theorem fullStep_generator {s : State} {n : Nat} (hpulses : (s.chan n).cfg.stepDir = false → (s.chan n).pulses = []) :
    ((s.fullStep n).chan n).gen = (s.chan n).gen ∧ ((s.fullStep n).chan n).pulses = (s.chan n).pulses := by
  by_cases h : (s.chan n).slopeN = 0
  · rw [fullStep_empty h]
    exact ⟨rfl, rfl⟩
  have hgen : ((slopePublished s n).chan n).gen = (s.chan n).gen := (congrArg Chan.gen (slopePublished_chan s n)).trans rfl
  have hqueue : ((slopePublished s n).chan n).pulses = (s.chan n).pulses := (congrArg Chan.pulses (slopePublished_chan s n)).trans rfl
  rcases fullStep_cases h with hu | ⟨hu, hdir⟩ <;> rw [hu]
  · exact ⟨hgen, hqueue⟩
  · obtain ⟨hstood, -, -, hnone⟩ := stallAct_keeps (slopePublished s n) n
    exact ⟨hstood.trans hgen, (hnone (hqueue.trans (hpulses hdir))).trans (hpulses hdir).symm⟩

theorem fullStep_onlyChanAx (s : State) (n : Nat) : OnlyChanAx s (s.fullStep n) n (stepFlds n) := by
  by_cases h : (s.chan n).slopeN = 0
  · rw [fullStep_empty h]
    exact onlyChanAx_refl s n _
  · rw [fullStep_judged h]
    exact onlyChanAx_ite (onlyChanAx_trans (slopePublished_onlyChanAx s n) (onlyChanAx_mono (stallAct_onlyChanAx _ n) (List.subset_cons_self _ _)))
      (slopePublished_onlyChanAx s n)

/-! The phases follow the index (R156). -/

theorem retarget_chan (s : State) (n : Nat) : ∃ x y, (s.retarget n).chan n = { s.chan n with phA := x, phB := y } := by
  let x := ((s.retarget n).chan n).phA
  let y := ((s.retarget n).chan n).phB
  have hset : (s.retarget n).chan n = _ := chan_setChan (s.readTable n) n _
  have hphases : (s.retarget n).chan n = { (s.readTable n).chan n with phA := x, phB := y } := by simp only [x, y, hset]
  exact ⟨x, y, hphases.trans (congrArg (fun c : Chan => { c with phA := x, phB := y }) (chan_setChan s n _))⟩

theorem reindex_chan (s : State) (n : Nat) (c : Chan) : ∃ x y, (s.reindex n c).chan n = { s.chan n with phA := x, phB := y } := by
  unfold State.reindex
  split
  · exact retarget_chan s n
  · exact ⟨_, _, rfl⟩

theorem reindex_onlyChan (s : State) (n : Nat) (c : Chan) : OnlyChan s (s.reindex n c) n [] := by
  refine ⟨fun m hm => ?_, fun f _ => ?_, ?_⟩
  · unfold State.reindex
    split
    · exact (chan_setChan_other (s.readTable n) _ hm).trans (chan_setChan_other s _ hm)
    · rfl
  · rw [reindex_chans]
    rfl
  · rw [reindex_chans]

/-! The generator moves. -/

theorem indexUpdate_step {s : State} {n : Nat} {p : Int} (h : (s.chan n).nextStep = some p) : s.indexUpdate n = s.moveChan n p := by
  simp [State.indexUpdate, h]

/-- The state with its generator moved, the full step not yet judged. -/
def generatorMoved (s : State) (n : Nat) (p : Int) : State := s.setChan n ((s.chan n).moveTo (s.stepping n) p)

theorem generatorMoved_chan (s : State) (n : Nat) (p : Int) : (generatorMoved s n p).chan n = (s.chan n).moveTo (s.stepping n) p := chan_setChan s n _

theorem moveChan_eq (s : State) (n : Nat) (p : Int) : s.moveChan n p =
    (if stepNo 8 p = stepNo 8 (s.chan n).gen then generatorMoved s n p else (generatorMoved s n p).fullStep n).reindex n (s.chan n) := rfl

/-- Pulses are queued in STEP/DIR mode alone. -/
theorem generatorMoved_pulses {s : State} {n : Nat} {p : Int} (h : ((generatorMoved s n p).chan n).cfg.stepDir = false) : ((generatorMoved s n p).chan n).pulses = [] := by
  rw [generatorMoved_chan] at h ⊢
  have hidle : ¬ s.stepping n = true := fun hlive => absurd ((stepDir_of_chanState (stepping_iff.mp hlive)).symm.trans h) (by decide)
  exact if_neg hidle

theorem moveChan_generator (s : State) (n : Nat) (p : Int) :
    ((s.moveChan n p).chan n).gen = p ∧ ((s.moveChan n p).chan n).pulses = ((s.chan n).moveTo (s.stepping n) p).pulses := by
  obtain ⟨hgen, hpulses⟩ := fullStep_generator (generatorMoved_pulses (s := s) (n := n) (p := p))
  rw [generatorMoved_chan] at hgen hpulses
  rw [moveChan_eq]
  obtain ⟨x, y, hchan⟩ := reindex_chan (if stepNo 8 p = stepNo 8 (s.chan n).gen then generatorMoved s n p else (generatorMoved s n p).fullStep n) n (s.chan n)
  rw [hchan]
  split
  · exact ⟨(congrArg Chan.gen (generatorMoved_chan s n p)).trans rfl, (congrArg Chan.pulses (generatorMoved_chan s n p)).trans rfl⟩
  · exact ⟨hgen, hpulses⟩

theorem moveChan_onlyChanAx (s : State) (n : Nat) (p : Int) : OnlyChanAx s (s.moveChan n p) n (stepFlds n) := by
  have hmoved := onlyChanAx_setChan s n ((s.chan n).moveTo (s.stepping n) p) (stepFlds n)
  exact onlyChanAx_trans (onlyChanAx_ite hmoved (onlyChanAx_trans hmoved (fullStep_onlyChanAx _ n)))
    (onlyChanAx_mono (onlyChanAx_of_onlyChan (reindex_onlyChan _ n _)) (List.nil_subset _))

/-- A step within a full step changes its channel alone, and neither the interpolation nor the average. -/
theorem moveChan_within {s : State} {n : Nat} {p : Int} (h : stepNo 8 p = stepNo 8 (s.chan n).gen) :
    ((s.moveChan n p).chan n).dst = (s.chan n).dst ∧ ((s.moveChan n p).chan n).slopeN = (s.chan n).slopeN ∧ OnlyChan s (s.moveChan n p) n [] := by
  have hu : s.moveChan n p = (generatorMoved s n p).reindex n (s.chan n) := by rw [moveChan_eq, if_pos h]
  obtain ⟨x, y, hchan⟩ := reindex_chan (generatorMoved s n p) n (s.chan n)
  obtain ⟨hother, hflds, hrest⟩ := reindex_onlyChan (generatorMoved s n p) n (s.chan n)
  rw [generatorMoved_chan] at hchan
  rw [hu]
  refine ⟨(congrArg Chan.dst hchan).trans rfl, (congrArg Chan.slopeN hchan).trans rfl, fun m hm => (hother m hm).trans (chan_setChan_other s _ hm), hflds, ?_⟩
  rw [reindex_chans]
  rfl

/-- A step that completes a full step with on-times in it publishes their average. -/
theorem moveChan_across {s : State} {n : Fin 48} {p : Int} (h : stepNo 8 p ≠ stepNo 8 (s.chan n).gen) (hon : (s.chan n).slopeN ≠ 0) :
    (s.moveChan n p).get (R.STP_STAT_SLOPE_AVG n) = min (slopeAvg (s.chan n)) 65535 ∧ ((s.moveChan n p).chan n).slopeSum = 0 ∧ ((s.moveChan n p).chan n).slopeN = 0 := by
  have hu : s.moveChan n p = ((generatorMoved s n p).fullStep n).reindex n (s.chan n) := by rw [moveChan_eq, if_neg h]
  obtain ⟨x, y, hchan⟩ := reindex_chan ((generatorMoved s n p).fullStep n) n (s.chan n)
  have hmoved := generatorMoved_chan s n p
  obtain ⟨havg, hsum, hcount⟩ := fullStep_average (s := generatorMoved s n p) (n := n) (by rw [hmoved]; exact hon)
  rw [hu, hchan, reindex_chans]
  rw [hmoved] at havg
  exact ⟨havg, hsum, hcount⟩

/-! Pulses, encoder edges and the hold delay. -/

theorem stepPulse_leaves {s : State} {n : Nat} {d : Bool} {k : Nat} {r : List (Bool × Nat)} (hlive : s.chanState n = 2) (hq : (s.chan n).pulses = (d, k) :: r) :
    s.stepPulse n = (s.setChan n { s.chan n with pulses := if k ≤ 1 then r else (d, k - 1) :: r, up := d }, [.step n (d != bit (s.chan n).cfg.cfg 12)]) := by
  simp [State.stepPulse, stepping_iff.mpr hlive, hq]

theorem stepPulse_idle {s : State} {n : Nat} (h : s.chanState n ≠ 2 ∨ (s.chan n).pulses = []) : s.stepPulse n = (s, []) := by
  rcases h with h | h
  · have hidle : s.stepping n = false := by simpa [State.stepping] using h
    simp [State.stepPulse, hidle]
  · simp [State.stepPulse, h]

theorem exec_stepPulse {s u : State} {n : Fin 48} {o : List Out} (h : s.stepPulse n = (u, o)) : exec (.stepPulse n) s = stpDo u s o :=
  congrArg (fun v : State × List Out => stpDo v.1 s v.2) h

/-- An edge of one encoder input counts by which input leads (R163). -/
theorem encoderEdge_one {s : State} {n : Nat} {a b : Bool} (hen : (s.chan n).cfg.encEn = true)
    (h : a ≠ (s.chan n).encA ∧ b = (s.chan n).encB ∨ a = (s.chan n).encA ∧ b ≠ (s.chan n).encB) : s.encoderEdge n a b =
      s.setChan n { s.chan n with
        encA := a, encB := b
        enc := if (a ≠ (s.chan n).encA ∧ a ≠ b) ∨ (b ≠ (s.chan n).encB ∧ a = b) then (s.chan n).enc + 1 else (s.chan n).enc - 1 } := by
  rcases h with ⟨ha, rfl⟩ | ⟨rfl, hb⟩
  · simp [State.encoderEdge, hen, ha]
  · simp [State.encoderEdge, hen, hb, @eq_comm _ (s.chan n).encA b]

/-- An edge of both at once is a fault. -/
theorem encoderEdge_both {s : State} {n : Nat} {a b : Bool} (hen : (s.chan n).cfg.encEn = true) (ha : a ≠ (s.chan n).encA) (hb : b ≠ (s.chan n).encB) :
    s.encoderEdge n a b = (s.setChan n { s.chan n with encA := a, encB := b }).stepFault n 6 := by
  simp [State.encoderEdge, hen, ha, hb]

/-- Settles O36: a step by what it completes, an edge by the inputs that change, and the hold delay by whether it has passed. -/
theorem stepGeneratorEvents : Obligations.StepGeneratorEvents := by
  intro s n a b c
  refine ⟨fun p hp => ?_, fun d k r hlive hq => ?_, fun hidle => ?_, fun hen hedge => ?_, fun hen ha hb => ?_, fun hvel hsearch hdue => ?_, fun hnot => ?_⟩
  · obtain ⟨hgen, hpulses⟩ := moveChan_generator s n p
    have hstep := nextStep_stepNo hp
    have hpulse : ((s.moveChan n p).chan n).pulses = if s.chanState n = 2 then
        addRun c.pulses (decide (stepNo c.cfg.mres c.gen < stepNo c.cfg.mres ((s.moveChan n p).chan n).gen)) 1 else [] := by
      rw [hgen, hpulses, moveTo_pulses _ hstep]
      simp only [stepping_iff, c]
    rw [← hgen] at hstep
    refine ends_stpDo (congrArg (stpDo · s []) (indexUpdate_step hp)) ⟨hgen, hstep, hpulse, fun h => ?_, moveChan_across, onlyChanAx_event (moveChan_onlyChanAx s n p)⟩
    obtain ⟨hdst, hcount, hframe⟩ := moveChan_within h
    exact ⟨hdst, hcount, onlyChan_event hframe⟩
  · exact ends_setChan (exec_stepPulse (stepPulse_leaves hlive hq)) fun t ht hout hframe => ⟨ht, hout, hframe⟩
  · exact ends_stpDo (exec_stepPulse (stepPulse_idle hidle)) ⟨rfl, rfl⟩
  · refine ends_setChan (congrArg (stpDo · s []) (encoderEdge_one hen hedge)) fun t ht _ hframe => ?_
    rw [ht]
    exact ⟨rfl, rfl, rfl, hframe⟩
  · let v := s.setChan n { c with encA := a, encB := b }
    have hchan : v.chan n = { c with encA := a, encB := b } := chan_setChan s n _
    exact ends_stpDo (congrArg (stpDo · s []) (encoderEdge_both hen ha hb)) ⟨(stepFault_chan v n 6 n).trans hchan, stepFault_code v n (by decide),
      stepFault_stpFlt v n 6, stepFault_ax v n 6, onlyChanAx_event (onlyChanAx_trans (onlyChanAx_setChan s n _ _) (stepFault_onlyChanAx v n 6))⟩
  · by_cases hhold : c.hold = true
    · have hu : s.holdExpire n = s := if_pos (.inr (.inl hhold))
      have hscale : c.scale 0 = c.cfg.holdS := by simp [Chan.scale, hsearch, hhold]
      exact ends_stpDo (congrArg (stpDo · s []) hu) ⟨hscale, rfl, fun _ _ => rfl, fun _ _ => rfl, rfl⟩
    · have hu : s.holdExpire n = s.setChan n { c with hold := true } := if_neg (by simp [hvel, hhold, hdue, c])
      refine ends_setChan (congrArg (stpDo · s []) hu) fun t ht _ hframe => ?_
      rw [ht]
      exact ⟨by simp [Chan.scale, hsearch], rfl, hframe⟩
  · have hu : s.holdExpire n = s := if_pos (hnot.imp_right .inr)
    exact ends_stpDo (congrArg (stpDo · s []) hu) rfl

end Sys2Proof.Proofs
end

section
/-! SUPPORT. A conversion of a monitoring ADC beside a capture set that takes another of its inputs (O38; R162, R247). -/
namespace Sys2Proof.Proofs
open Machine Laws

/-- A set that records captures a stepper ADC input of which `f` holds. -/
def adcCaptured (s : State) (f : CCh → Bool) : Bool := (List.range 8).any fun m => (s.cset m).open_ && (s.cset m).chans.any fun x => x.kind == 3 && f x

/-- A leftover conversion of an input that no set captures, on an ADC of which a set captures another, has no effect (R247). -/
theorem adcDone_leftover {s : State} {n : Nat} {b : Bool} (code t : Nat) (hfree : adcCaptured s (fun x => x.item == 2 * n + b2n b) = false)
    (hadc : adcCaptured s (fun x => x.item / 8 == (2 * n + b2n b) / 8) = true) (hopen : ((s.chan n).ph b).held = false) : s.adcDone n b code t = s := by
  unfold adcCaptured at hfree hadc
  simp only [State.adcDone, hfree, hadc, hopen, Bool.not_false, Bool.and_self, if_true]

/-- Capture set 0 records the current of phase B of channel 0; the sample-and-hold of phase A is open. -/
def captureBesideA : State :=
  State.reset.setCset 0 { CapSet.init with
    st := 2
    chans := [{ c := 0, kind := 3, item := 1, sig := 0, trim := 0, auto := 0, q := 0, addr := 0, len := 0, cyc := false, fmt := 1, xs := [], y := none, now := none }] }

/-- A conversion of phase A leaves VALLEY_A of channel 0 at its last result. -/
theorem exec_adcConversion_captureBesideA {t : State} (h : exec (.adcConversion 0 false 5 0) captureBesideA = .next t) : t.get (R.STP_MON_VALLEY_A 0) = 0 := by
  have hidle : captureBesideA.quiet.adcDone 0 false 5 0 = captureBesideA.quiet :=
    adcDone_leftover 5 0 (by decide +kernel) (by decide +kernel) (by decide +kernel)
  cases h
  exact (congrArg (State.get · (R.STP_MON_VALLEY_A 0)) hidle).trans (by decide +kernel)

/-- Refutes O38: while a capture set takes phase B of channel 0, a leftover conversion of phase A with code 5 is not stored in VALLEY_A. -/
theorem not_calibrationRuns : ¬ Obligations.CalibrationRuns := by
  unfold Obligations.CalibrationRuns
  intro h
  obtain ⟨-, -, -, -, -, hconversion⟩ := h captureBesideA 0 0 0 0 0 false 5 0
  obtain ⟨t, ht, hvalley, -⟩ := hconversion
  have hstands : (0 : Int) = _ := (congrArg Nat.cast (exec_adcConversion_captureBesideA ht)).symm.trans hvalley
  exact absurd hstands (by decide +kernel)

end Sys2Proof.Proofs
end

section
/-! SUPPORT. Accesses of the points of the process image, and the resynchronisation of output records (O44; R219 to R224, R231 to R235, R405). -/
namespace Sys2Proof.Proofs
open Machine Laws

/-! A written key. -/

/-- A store in which one key has been written reads as the write at that key and as before elsewhere. -/
theorem get_of_put {β : Type} [DecidableEq β] {d x : β} {l l' : Store β} {k : Nat} (h : l' = Store.put d l k x) :
    Store.get d l' k = x ∧ ∀ j, j ≠ k → Store.get d l' j = Store.get d l j := by
  rw [h]
  exact ⟨get_put_same d l k x, fun _ hj => put_get_ne d l x hj⟩

/-! What lets an access of the image through (R19, R405). -/

theorem memDom_pim {a : Nat} (hlo : 0x20000000 ≤ a) (hhi : a < 0x20200000) : memDom a = 9 := by
  have hrow : a / 0x8000000 = 4 := by omega
  simp only [memDom, hrow]

theorem atMem_write {s : State} {a : Nat} {o : Host.Outcome State Fault Refusal} (hup : s.domUp (memDom a) = true) : s.atMem a false o = o := by
  simp [State.atMem, hup]

theorem atMem_read_sound {s : State} {a : Nat} {o : Host.Outcome State Fault Refusal} (hup : s.domUp (memDom a) = true) (hsound : s.poisoned a 4 = false) :
    s.atMem a true o = o := by
  simp [State.atMem, hup, hsound]

theorem atMem_read_poisoned {s : State} {a : Nat} {o : Host.Outcome State Fault Refusal} (hup : s.domUp (memDom a) = true) (hpois : s.poisoned a 4 = true) :
    s.atMem a true o = .next { s with bus := .error, outs := [] } := by
  simp [State.atMem, hup, hpois]

/-! Counters that an operation counts under a condition. -/

section
variable {s : State} {f : Fld} {c : Prop} [Decidable c]

theorem countIf_counted (h : c) : Counted s (if c then s.count f else s) f := by
  rw [if_pos h]
  exact get_count_same s f

theorem fldsBut_count (s : State) (f : Fld) : FldsBut s (s.count f) [f] := fun _ hg => get_count_other s (hg f List.mem_cons_self).symm

theorem countIf_fldsBut : FldsBut s (if c then s.count f else s) (if c then [f] else []) := by
  split
  · exact fldsBut_count s f
  · exact fun _ _ => rfl

theorem countIf_pim : (if c then s.count f else s).pim = s.pim := by
  split
  · exact count_pim s f
  · rfl

theorem countIf_mtr : (if c then s.count f else s).mtr = s.mtr := by
  split
  · exact count_mtr s f
  · rfl

end

/-! A refreshed record (R222 to R224). -/

/-- The record that a value leaves in a point of a TYPE: normalised, with its quality, in a course. -/
def recordOf (type v course : Nat) : Pt := ⟨normPt type v, qualOf type (normPt type v), course⟩

section
variable (s : State) (p type v : Nat)

theorem refresh_pim : (s.refresh p type v).pim = { s.pim with recs := Store.put none s.pim.recs p (some (recordOf type v s.crs.cnt)) } := countIf_pim

theorem refresh_mtr : (s.refresh p type v).mtr = s.mtr := countIf_mtr

theorem refresh_fldsBut : FldsBut s (s.refresh p type v) (if qualOf type (normPt type v) = 14 then [R.PIM_NONFIN_CNT_COUNT] else []) := countIf_fldsBut

theorem refresh_counted (h : qualOf type (normPt type v) = 14) : Counted s (s.refresh p type v) R.PIM_NONFIN_CNT_COUNT := countIf_counted h

end

/-! The output log (R234, R235). -/

/-- The fields that the first output write beyond the log's 2048 of a course writes at a paired member. -/
def overflowFlds (s : State) : List Fld := if s.mtr.paired = true ∧ s.pim.writes = 2048 then [R.PIM_STAT_LOG_OVF, R.PIM_LOG_OVF_CNT] else []

/-- The state with an output write counted and, where the log takes it, logged. -/
def outputLogged (s : State) (p v : Nat) : State :=
  { s with pim := { s.pim with
      writes := s.pim.writes + 1
      log := if s.mtr.paired && decide (s.pim.writes < 2048) then s.pim.log ++ [(p, v)] else s.pim.log } }

theorem logOut_eq (s : State) (p v : Nat) : s.logOut p v = if s.mtr.paired = true ∧ s.pim.writes = 2048
    then ((outputLogged s p v).setFlag R.PIM_STAT_LOG_OVF true).count R.PIM_LOG_OVF_CNT else outputLogged s p v := by
  have hover : (s.mtr.paired && s.pim.writes + 1 == 2049) = true ↔ s.mtr.paired = true ∧ s.pim.writes = 2048 := by
    rw [Bool.and_eq_true, beq_iff_eq]
    exact and_congr_right fun _ => by omega
  by_cases h : s.mtr.paired = true ∧ s.pim.writes = 2048
  · exact (if_pos (hover.mpr h)).trans (if_pos h).symm
  · exact (if_neg (mt hover.mp h)).trans (if_neg h).symm

theorem logOut_pim (s : State) (p v : Nat) : (s.logOut p v).pim = (outputLogged s p v).pim := by
  rw [logOut_eq]
  split
  · exact count_pim _ _
  · rfl

theorem logOut_fldsBut (s : State) (p v : Nat) : FldsBut s (s.logOut p v) (overflowFlds s) := by
  rw [logOut_eq, overflowFlds]
  split
  · intro f hf
    exact (get_count_other _ (hf _ (by simp)).symm).trans (get_setFlag_other _ _ (hf _ (by simp)).symm)
  · exact fun _ _ => rfl

theorem logOut_nonFinite (s : State) (p v : Nat) : (s.logOut p v).get R.PIM_NONFIN_CNT_COUNT = s.get R.PIM_NONFIN_CNT_COUNT := by
  refine logOut_fldsBut s p v _ fun g hg => ?_
  unfold overflowFlds at hg
  split at hg
  · revert g
    decide
  · cases hg

/-! A write of a VALUE (R220, R232, R234). -/

/-- The state with a write to a point of range `r` accepted: the record is refreshed, and an output write is logged. -/
def written (s : State) (p : Nat) (r : Rng) (v : Nat) : State :=
  if r.dir = 1 then (s.refresh p r.type v).logOut p (normPt r.type v) else s.refresh p r.type v

section
variable {s : State} {p v : Nat} {r : Rng}

theorem ptWrite_accepted (hr : s.rng p = some r) (hdir : r.dir ≠ 0) (hlead : r.dir = 1 → s.leads = true) : s.ptWrite p v = (written s p r v, .done) := by
  have hnot : ¬(r.dir = 1 ∧ s.leads = false) := fun ⟨h, hl⟩ => absurd (hlead h) (by simp [hl])
  simp only [State.ptWrite, hr, hdir, hnot, if_false, written]

theorem ptWrite_refused (h : ∀ r, s.rng p = some r → r.dir = 0) : s.ptWrite p v = (s.count R.PIM_WR_CNT_REJ, .error) := by
  unfold State.ptWrite
  split
  next => rfl
  next r hr => exact if_pos (h r hr)

theorem ptWrite_shadowed (hr : s.rng p = some r) (hdir : r.dir = 1) (hlead : s.leads = false) : s.ptWrite p v = (s.count R.PIM_WR_CNT_SHADOW, .done) := by
  simp [State.ptWrite, hr, hdir, hlead]

end

section
variable (s : State) (p : Nat) (r : Rng) (v : Nat)

theorem written_recs : (written s p r v).pim.recs = Store.put none s.pim.recs p (some (recordOf r.type v s.crs.cnt)) := by
  unfold written
  split
  · rw [logOut_pim, outputLogged, refresh_pim]
  · rw [refresh_pim]

theorem written_output (h : r.dir = 1) : (written s p r v).pim.writes = s.pim.writes + 1 ∧
    (written s p r v).pim.log = if s.mtr.paired && decide (s.pim.writes < 2048) then s.pim.log ++ [(p, normPt r.type v)] else s.pim.log := by
  rw [written, if_pos h, logOut_pim, outputLogged, refresh_pim, refresh_mtr]
  exact ⟨rfl, rfl⟩

theorem written_internal (h : r.dir ≠ 1) : (written s p r v).pim.writes = s.pim.writes ∧ (written s p r v).pim.log = s.pim.log := by
  rw [written, if_neg h, refresh_pim]
  exact ⟨rfl, rfl⟩

theorem written_counted (h : qualOf r.type (normPt r.type v) = 14) : Counted s (written s p r v) R.PIM_NONFIN_CNT_COUNT := by
  have hcount := refresh_counted s p r.type v h
  unfold written
  split
  · exact (logOut_nonFinite _ _ _).trans hcount
  · exact hcount

theorem overflowFlds_refresh (type : Nat) : overflowFlds (s.refresh p type v) = overflowFlds s := by
  rw [overflowFlds, refresh_pim, refresh_mtr, overflowFlds]

theorem written_fldsBut : FldsBut s (written s p r v) ((if qualOf r.type (normPt r.type v) = 14 then [R.PIM_NONFIN_CNT_COUNT] else []) ++
    (if r.dir = 1 ∧ s.mtr.paired = true ∧ s.pim.writes = 2048 then [R.PIM_STAT_LOG_OVF, R.PIM_LOG_OVF_CNT] else [])) := by
  have hrefresh := refresh_fldsBut s p r.type v
  unfold written
  split
  next hout =>
    have hlog := logOut_fldsBut (s.refresh p r.type v) p (normPt r.type v)
    rw [overflowFlds_refresh, overflowFlds] at hlog
    simp only [hout, true_and]
    exact fldsBut_trans (fldsBut_mono hrefresh (List.subset_append_left _ _)) (fldsBut_mono hlog (List.subset_append_right _ _))
  next => exact fldsBut_mono hrefresh (List.subset_append_left _ _)

end

/-! The latch of a requester (R233). -/

theorem ptReadValue_latch (s : State) (q : Req) (p : Nat) :
    (s.ptReadValue q p).2.pim.latch = Store.put none s.pim.latch q.id (some (p, s.ptSecond p)) := rfl

theorem ptReadSecond_latched {s : State} {q : Req} {p w : Nat} (h : Store.get none s.pim.latch q.id = some (p, w)) :
    s.ptReadSecond q p = (w, { s with pim := { s.pim with latch := Store.put none s.pim.latch q.id none } }) := by
  simp [State.ptReadSecond, h]

theorem ptReadSecond_unlatched {s : State} {q : Req} {p : Nat} (h : ∀ w, Store.get none s.pim.latch q.id ≠ some (p, w)) : s.ptReadSecond q p = (s.ptSecond p, s) := by
  unfold State.ptReadSecond
  split
  next p' w hl => exact if_neg fun hp => h w (by rw [hl, hp])
  next => rfl

/-! A record of a resynchronisation pass (R235). -/

section
variable {s : State} {p v : Nat} {r : Rng} {c : Option Nat}

/-- An output point takes the record: its value and course, or its reset value. -/
theorem resyncRec_output (hr : s.rng p = some r) (hdir : r.dir = 1) : s.resyncRec ⟨p, v, c⟩ =
    (let t : State := { s with pim := { s.pim with recs := Store.put none s.pim.recs p (c.map (recordOf r.type v)) } }
     if c.isSome ∧ qualOf r.type (normPt r.type v) = 14 then t.count R.PIM_NONFIN_CNT_COUNT else t) := by
  simp only [State.resyncRec, hr, hdir, if_true]
  rfl

theorem resyncRec_pim (hr : s.rng p = some r) (hdir : r.dir = 1) : (s.resyncRec ⟨p, v, c⟩).pim =
    { s.pim with recs := Store.put none s.pim.recs p (c.map (recordOf r.type v)) } := by
  rw [resyncRec_output hr hdir]
  exact countIf_pim

theorem resyncRec_fldsBut (hr : s.rng p = some r) (hdir : r.dir = 1) :
    FldsBut s (s.resyncRec ⟨p, v, c⟩) (if c.isSome = true ∧ qualOf r.type (normPt r.type v) = 14 then [R.PIM_NONFIN_CNT_COUNT] else []) := by
  rw [resyncRec_output hr hdir]
  exact countIf_fldsBut

theorem resyncRec_counted (hr : s.rng p = some r) (hdir : r.dir = 1) (hsome : c.isSome = true) (hnon : qualOf r.type (normPt r.type v) = 14) :
    Counted s (s.resyncRec ⟨p, v, c⟩) R.PIM_NONFIN_CNT_COUNT := by
  rw [resyncRec_output hr hdir]
  exact countIf_counted ⟨hsome, hnon⟩

end

/-- A standby in RESYNC applies the records given, served for the mortar link controller. -/
theorem execOutputResyncPass_standby {s : State} (recs : List OutRec) (last : Bool) (hpair : s.mtr.paired = true) (hholder : s.mtr.holder = false)
    (hresync : s.flag R.PIM_STAT_RESYNC = true) : exec (.outputResyncPass recs last) s =
      (let t := (recs.foldl State.resyncRec s).serve 7 recs.length
       .next { s with pim := { t.pim with passDone := t.pim.passDone || last }, flds := t.flds, bus := .none, outs := [] }) :=
  if_pos (by simp [hpair, hholder, hresync])

/-! The accesses. -/

/-- A powered access ends as its meaning says: the image, the poisoned words and the fields are its own, and the rest stands. -/
theorem ends_pimDo {i : Instr} {s u : State} {b : Bus} {P : State → Prop} (hi : exec i s = pimDo u s b)
    (hp : P { s with pim := u.pim, tst := u.tst, flds := u.flds, bus := b, outs := [] }) : Ends i s P := ⟨_, hi, hp⟩

section
variable {s : State} (hup : s.domUp 9 = true)
include hup

theorem domUp_point (p : Fin 262144) : s.domUp (memDom (0x20000000 + 8 * p.val)) = true := by
  rw [memDom_pim (by omega) (by omega), hup]

theorem domUp_second (p : Fin 262144) : s.domUp (memDom (0x20000004 + 8 * p.val)) = true := by
  rw [memDom_pim (by omega) (by omega), hup]

theorem exec_pointWrite (q : Req) (p : Fin 262144) (v : BitVec 32) : exec (.pointWrite q p v) s =
    pimDo ((s.serve q.pimNo 1).ptWrite p v.toNat).1 s (s.ptWrite p v.toNat).2 := atMem_write (domUp_point hup p)

theorem exec_pointValueRead (q : Req) {p : Fin 262144} (hsound : s.poisoned (0x20000000 + 8 * p.val) 4 = false) : exec (.pointValueRead q p) s =
    pimDo ((s.ptReadValue q p).2.serve q.pimNo 1) s (.data (s.ptValue p)) := atMem_read_sound (domUp_point hup p) hsound

theorem exec_pointStatusRead_poisoned (q : Req) {p : Fin 262144} (hpois : s.poisoned (0x20000004 + 8 * p.val) 4 = true) :
    exec (.pointStatusRead q p) s = .next { s with bus := .error, outs := [] } := atMem_read_poisoned (domUp_second hup p) hpois

theorem ends_pointWrite {q : Req} {p : Fin 262144} {v : BitVec 32} {u : State} {b : Bus} {P : State → Prop}
    (hserved : (s.serve q.pimNo 1).ptWrite p v.toNat = (u, b)) (hbus : (s.ptWrite p v.toNat).2 = b)
    (hp : P { s with pim := u.pim, tst := u.tst, flds := u.flds, bus := b, outs := [] }) : Ends (.pointWrite q p v) s P := by
  refine ends_pimDo ?_ hp
  rw [exec_pointWrite hup, hserved, hbus]

theorem ends_pointStatusRead {q : Req} {p : Fin 262144} {u : State} {w : Nat} {P : State → Prop} (hsound : s.poisoned (0x20000004 + 8 * p.val) 4 = false)
    (hread : s.ptReadSecond q p = (w, u)) (hp : P { s with pim := (u.serve q.pimNo 1).pim, tst := u.tst, flds := u.flds, bus := .data w, outs := [] }) :
    Ends (.pointStatusRead q p) s P := by
  have hdone : exec (.pointStatusRead q p) s = pimDo ((s.ptReadSecond q p).2.serve q.pimNo 1) s (.data (s.ptReadSecond q p).1) :=
    atMem_read_sound (domUp_second hup p) hsound
  rw [hread] at hdone
  exact ends_pimDo hdone hp

end

/-- Settles O44: each access by what its meaning leaves in the image and in the counters. -/
theorem pointAccesses : Obligations.PointAccesses := by
  unfold Obligations.PointAccesses
  intro s q p v hup onlyPim
  refine ⟨fun r hr hdir hlead => ?accepted, fun hinput => ?refused, fun r hr hout hshadow => ?shadowed, fun hsound => ?value, fun hsound w hlatch => ?latched,
    fun hsound hnone => ?formed, fun hpois => ?poisoned, fun c last r hpair hholder hresync hr hout => ?resync⟩
  case accepted =>
    obtain ⟨hsame, hother⟩ := get_of_put (written_recs (s.serve q.pimNo 1) p r v.toNat)
    exact ends_pointWrite hup (ptWrite_accepted hr hdir hlead) (congrArg Prod.snd (ptWrite_accepted hr hdir hlead))
      ⟨hsame, hother, rfl, written_output (s.serve q.pimNo 1) p r _, written_internal (s.serve q.pimNo 1) p r _, written_counted (s.serve q.pimNo 1) p r _,
        written_fldsBut (s.serve q.pimNo 1) p r _, rfl⟩
  case refused =>
    exact ends_pointWrite hup (ptWrite_refused hinput) (congrArg Prod.snd (ptWrite_refused hinput))
      ⟨rfl, get_count_same _ _, count_pim _ _, fldsBut_count (s.serve q.pimNo 1) _, rfl⟩
  case shadowed =>
    exact ends_pointWrite hup (ptWrite_shadowed hr hout hshadow) (congrArg Prod.snd (ptWrite_shadowed hr hout hshadow))
      ⟨rfl, get_count_same _ _, count_pim _ _, fldsBut_count (s.serve q.pimNo 1) _, rfl⟩
  case value =>
    obtain ⟨hsame, hother⟩ := get_of_put (ptReadValue_latch s q p)
    exact ends_pimDo (exec_pointValueRead hup q hsound) ⟨rfl, hsame, hother, rfl, fun _ _ => rfl, rfl⟩
  case latched =>
    exact ends_pointStatusRead hup hsound (ptReadSecond_latched hlatch) ⟨rfl, get_put_same none s.pim.latch q.id none, rfl, fun _ _ => rfl, rfl⟩
  case formed => exact ends_pointStatusRead hup hsound (ptReadSecond_unlatched hnone) ⟨rfl, rfl, rfl, fun _ _ => rfl, rfl⟩
  case poisoned => exact ⟨_, exec_pointStatusRead_poisoned hup q hpois, rfl, rfl⟩
  case resync =>
    have hpim := resyncRec_pim (v := v.toNat) (c := c) hr hout
    obtain ⟨hsame, hother⟩ := get_of_put (congrArg Pim.recs hpim)
    have hdone := congrArg (Pim.passDone · || last) hpim
    exact ⟨_, execOutputResyncPass_standby _ last hpair hholder hresync, hdone, hsame, hother, rfl, resyncRec_counted hr hout, resyncRec_fldsBut hr hout, rfl⟩

end Sys2Proof.Proofs
end
